-- ==== Sys2Proof/Word.lean ====
section
/-! DEFINITION. The words of the 4812: octets, addresses, numbers of tenants, stations and ports, station time. -/

namespace Sys2Proof

/-- An octet of a frame, a message or the configuration image. -/
abbrev Byte := BitVec 8

/-- A 48-bit Ethernet address. -/
abbrev Addr := BitVec 48

/-- A tenant index 0 to 255 (R8). -/
abbrev Tenant := BitVec 8

/-- A station number; 15 as a destination means all stations. -/
abbrev Station := BitVec 4

/-- The identifying number of a station from its image. -/
abbrev Serial := BitVec 32

/-- A station time in microseconds, wrapping after 48 bits (R183). -/
abbrev Time := BitVec 48

/-- A 32-bit counter. -/
abbrev Count := BitVec 32

/-- A port number: S-ports 0 to 23, U-ports 24 to 27, X-ports 28 to 32. -/
abbrev Port := Fin 33

/-- The index of an X-port, X0 to X4. -/
abbrev XIndex := Fin 5

/-- A place of the peer table. -/
abbrev SlotNo := Fin 5

/-- A billing class or a traffic class, 0 to 3. -/
abbrev Cls := Fin 4

end Sys2Proof
end

