-- ==== Sys2Proof/Syntax.lean ====
section
/-! DEFINITION. The commands of the 4812: one constructor per row of spec/opcode_table.json. -/

namespace Sys2Proof

/-- The commands. Operands are what the outside gives with the event: a port, a peer slot, the octets of a
frame, a message, an entry or the image. -/
inductive Instr where
  /-- FRAME_RECEIVED (R1). The octets stand as on the wire, from the destination address through the FCS. -/
  | frameReceived (port : Port) (octets : List Byte)
  /-- TRANSMISSION_END (R69). -/
  | transmissionEnd (port : Port)
  /-- CARRIER_UP (R110). -/
  | carrierUp (port : Port)
  /-- CARRIER_DOWN (R110). -/
  | carrierDown (port : Port)
  /-- HOLD_EXPIRY (R111). -/
  | holdExpiry (port : Port)
  /-- DECAY_EXPIRY (R114). -/
  | decayExpiry (port : Port)
  /-- ONE_SECOND_EVENT (R113). -/
  | oneSecondEvent
  /-- AGING_VISIT (R33): the walk visits its next bucket. -/
  | agingVisit
  /-- SAMPLE (R99). -/
  | sample
  /-- LOAD_DUE (R82). -/
  | loadDue
  /-- HELLO_DUE (R145). -/
  | helloDue
  /-- REFRESH_END (R32). -/
  | refreshEnd
  /-- SWEEP_VISIT (R31): the sweep visits its next entry place. -/
  | sweepVisit
  /-- INTERVAL_END (R160). -/
  | intervalEnd
  /-- SHARE_WINDOW (R179). -/
  | shareWindow
  /-- LAPSE_EXPIRY (R119). -/
  | lapseExpiry (x : XIndex)
  /-- SILENCE_EXPIRY (R122). -/
  | silenceExpiry (slot : SlotNo)
  /-- JOIN_EXPIRY (R121). -/
  | joinExpiry (slot : SlotNo)
  /-- LINGER_EXPIRY (R124). -/
  | lingerExpiry (slot : SlotNo)
  /-- LOAD_FRESHNESS_EXPIRY (R85). -/
  | loadFreshnessExpiry (slot : SlotNo)
  /-- LINE_QUIET_END (R141). -/
  | lineQuietEnd
  /-- MESSAGE_OFFERED (R134): the line is idle. -/
  | messageOffered
  /-- ARBITRATION_LOST (R132). -/
  | arbitrationLost
  /-- TRANSMIT_ERROR (R140). -/
  | transmitError
  /-- MESSAGE_COMPLETED (R135). -/
  | messageCompleted
  /-- MESSAGE_DISCARDED_RX (R142): a message as received, from the arbitration field on; `ranOn` says that a
  dominant bit came within 12 bit times after its check, `own` that the station sent and completed it. -/
  | messageDiscardedRx (octets : List Byte) (ranOn own : Bool)
  /-- HELLO_RECEIVED (R120). -/
  | helloReceived (src dst : Station) (payload : List Byte)
  /-- LINK_RECEIVED (R127). -/
  | linkReceived (src dst : Station) (payload : List Byte)
  /-- LOAD_RECEIVED (R84). -/
  | loadReceived (src dst : Station) (payload : List Byte)
  /-- REACH_RECEIVED (R27). -/
  | reachReceived (src dst : Station) (payload : List Byte)
  /-- START_EXPORT (R171); the parameters follow the kind and the tag in the payload. -/
  | startExport (src dst : Station) (tag : BitVec 16) (params : List Byte)
  /-- HALT_EXPORT (R176). -/
  | haltExport (src dst : Station) (tag : BitVec 16) (params : List Byte)
  /-- HOLD_EXPORT (R175). -/
  | holdExport (src dst : Station) (tag : BitVec 16) (params : List Byte)
  /-- RESUME_EXPORT (R177). -/
  | resumeExport (src dst : Station) (tag : BitVec 16) (params : List Byte)
  /-- DISCARD_INTERVAL (R164). -/
  | discardInterval (src dst : Station) (tag : BitVec 16) (params : List Byte)
  /-- CLOSE_INTERVAL (R181). -/
  | closeInterval (src dst : Station) (tag : BitVec 16) (params : List Byte)
  /-- STATUS (R181). -/
  | status (src dst : Station) (tag : BitVec 16) (params : List Byte)
  /-- RESTART (R182). -/
  | restart (src dst : Station) (tag : BitVec 16) (params : List Byte)
  /-- UNKNOWN_ORDER (R169): an ORDER by its whole payload. -/
  | unknownOrder (src dst : Station) (payload : List Byte)
  /-- REFETCH_READ_COMPLETE (R194): the entry's octets as the flash delivered them (none: it did not answer). -/
  | refetchReadComplete (octets : List Byte)
  /-- FULL_RESET (R192), with the level of the strap pins STN3 to STN0. -/
  | fullReset (straps : BitVec 4)
  /-- IMAGE_LOAD_COMPLETE (R188): the octets of the flash from offset 0. -/
  | imageLoadComplete (image : List Byte)
  /-- MESSAGE_NOT_HANDED_ON (R144). -/
  | messageNotHandedOn (cls : BitVec 4) (src dst : Station)
  deriving DecidableEq, Repr

end Sys2Proof
end

