-- ==== Sys2Proof/Decode.lean ====
section
/-! DEFINITION. The commands that table words spell. The rows of spec/opcode_table.json give no bits, so there are
none. -/

namespace Sys2Proof

/-- The command that a word of `nbits` bits spells by the table's bits: none, since no row gives bits. -/
def decodeTableWord (nbits w : Nat) : Option Instr :=
  match nbits, w with
  | _, _ => none

end Sys2Proof
end

