-- ==== Sys2Proof/Config.lean ====
section
/-! DEFINITION. What the implementation fixes (capacities and codes of the manual) and the free values: constants
without a body for what the manual leaves open. -/

namespace Sys2Proof.Config

/-- Cells of the pool (R59). -/
def poolCells : Nat := 12288

/-- Octets of a cell (R59). -/
def cellOctets : Nat := 256

/-- The items of a REACH notice (R26). -/
def reachItems : Nat := 14

/-- The reach queue's limit (R24). -/
def reachLimit : Nat := 512

/-- The length of the reach queue at which the sweep pauses (R31). -/
def sweepPause : Nat := 256

/-- The answer queue's limit (R138). -/
def answerLimit : Nat := 4

/-- The most octets of an answer's data (Table 12-4). -/
def answerDataLimit : Nat := 116

/-- The refetch queue's limit (R193). -/
def refetchLimit : Nat := 8

/-- The restraint list's limit (R102). -/
def restraintLimit : Nat := 16

/-- Part code and revision of the 4812 (Table 12-3). -/
def partCode : Nat := 0x4812

/-- The marker of the configuration image (section 12.4). -/
def imageMarker : Nat := 0x4E534349

/-- The longest image the 4812 reads (R189). -/
def imageLimit : Nat := 262144

/-- The port-hello destination address 03-4E-5A-00-12-01 (section 12.1). -/
def helloAddr : Addr := 0x034E5A001201#48

/-- The tag marker (Table 12-1). -/
def tagMarker : Nat := 0xD4A1

/-- Free value: the source address of a port hello sent under a station number; the manual gives none. -/
opaque portHelloSource : Station → Addr

/-- Free value: the EtherType of a port hello; the manual gives none. -/
opaque portHelloEtherType : BitVec 16

/-- Free value: octet `i` (0 the kind, 1 and 2 the tag) that an answer echoes for an ORDER payload of `n`
octets too short to hold it; the manual gives none. -/
opaque missingOrderOctet : (n i : Nat) → Byte

/-- Free value: the level of the strap pins STN3 to STN0 as they are sampled at the `n`-th restart; the board gives it
(R188, R192). -/
opaque strapsAtRestart : (n : Nat) → BitVec 4

end Sys2Proof.Config
end

