-- ==== Sys2Proof/Machine/State.lean ====
section
/-! DEFINITION. The state of the 4812 as plain data, block by block (Table 0-1), and the state right after a
full reset. Sparse tables are lists of (key, value) pairs with ascending keys; what an unlisted key reads as is
said at each field. -/

namespace Sys2Proof.Machine

/-! ## Port units (chapters 1 and 7) -/

/-- The link states of a port (R110). -/
inductive LinkState where
  | down | up | degraded | held
  deriving DecidableEq, Repr

/-- The drop reasons of Table 1-1. -/
inductive DropReason where
  | runt | giant | badFcs | unclassified | tenantFault | badTag | loop | samePort | noPath
  | queueFull | poolEmpty | restrained | denied | flushed
  deriving DecidableEq, Repr

/-- The drop counters of a port unit (R3). -/
structure Drops where
  runt : Count := 0
  giant : Count := 0
  badFcs : Count := 0
  unclassified : Count := 0
  tenantFault : Count := 0
  badTag : Count := 0
  loop : Count := 0
  samePort : Count := 0
  noPath : Count := 0
  queueFull : Count := 0
  poolEmpty : Count := 0
  restrained : Count := 0
  denied : Count := 0
  flushed : Count := 0
  deriving DecidableEq, Repr

/-- A port unit (R110, R118). The last four fields are used by X-ports alone. -/
structure PortUnit where
  link : LinkState := .down
  penalty : Nat := 0
  carrier : Bool := false
  holdExpiry : Option Time := none
  decayExpiry : Option Time := none
  badFrames : BitVec 16 := 0
  bond : Option Nat := none
  drops : Drops := {}
  far : Option Station := none
  farSerial : Serial := 0
  looped : Bool := false
  lapseExpiry : Option Time := none
  deriving DecidableEq, Repr

/-! ## Frames in hand (chapters 1, 3 and 4) -/

/-- The content of a group tag (Table 1-4). -/
structure GroupTag where
  flood : Bool
  diverted : Bool
  relay : Bool
  origin : Station
  target : Station
  hop : Nat
  tenant : Tenant
  bcls : Cls
  tcls : Cls
  bucket : Nat
  deriving DecidableEq, Repr

/-- A frame descriptor (Table 1-5). `tag` is the tag read at ingress; a frame is classified here exactly when it
has none. `dst` is the destination address, which the path selector and the meter read. -/
structure Descriptor where
  ingress : Port
  length : Nat
  tenant : Tenant
  bcls : Cls
  tcls : Cls
  bucket : Nat
  members : BitVec 24
  tariffs : Vector Nat 4
  exempt : Bool
  tag : Option GroupTag
  dst : Addr
  deriving DecidableEq, Repr

/-- A queued copy (R60). A port hello has no descriptor. The octets go from the destination address to the end
of the payload, without tag and FCS; the tag that the port adds is `tag`. -/
structure Copy where
  desc : Option Descriptor
  tag : Option GroupTag
  cells : Nat
  length : Nat
  octets : List Byte
  deriving DecidableEq, Repr

/-- One of the 132 queues with its occupancy and its number of copies (R60, R62), oldest first, the copy in
transmission included. -/
structure ClassQueue where
  copies : List Copy := []
  occ : Nat := 0
  num : Nat := 0
  deriving DecidableEq, Repr

/-- The buffer manager's state of one port: its four queues, the class whose front copy is in transmission
(R68), and the transmit counts (R69). -/
structure PortQueues where
  classes : Vector ClassQueue 4 := Vector.replicate 4 {}
  sending : Option Cls := none
  txCopies : Count := 0
  txOctets : BitVec 48 := 0
  deriving DecidableEq, Repr

/-- The buffer manager (R62). An unlisted tenant has occupancy 0. -/
structure Buffer where
  free : Nat := Config.poolCells
  ports : Vector PortQueues 33 := Vector.replicate 33 {}
  tenantOcc : List (Nat × Nat) := []
  deriving DecidableEq, Repr

/-! ## Configuration tables (chapters 1, 2, 9 and 11) -/

/-- The integrity states of a configuration entry (R193). -/
inductive Integrity where
  | good | waiting | queued | failed
  deriving DecidableEq, Repr

/-- The VLAN field of a classifier rule (Table 1-2). -/
inductive VlanMatch where
  | any | untagged | vid (v : Nat)
  deriving DecidableEq, Repr

/-- An entry check as the loader stores it with its entry (R188 step 4): the octets of the image entry that it covers, and the
16 bits that came with them. What no image entry gave covers no octet and holds the check of none, 0xFFFF (log entry 6). -/
structure EntryCheck where
  octets : List Byte := []
  check : BitVec 16 := 0xFFFF
  deriving DecidableEq, Repr

/-- A classifier rule (Table 1-2). `ports` none means any. `entry` is its stored check (R188). -/
structure Rule where
  ports : Option (BitVec 28)
  vlan : VlanMatch
  prio : Option Nat
  etype : Option Nat
  tenant : Tenant
  bcls : Cls
  tcls : Cls
  integ : Integrity := .good
  entry : EntryCheck := {}
  deriving DecidableEq, Repr

/-- A present tenant entry (Table 1-3), with its stored check (R188). -/
structure TenantEntry where
  account : Option (BitVec 32)
  members : BitVec 24
  quota : Nat
  tariffs : Vector Nat 4
  exempt : Bool
  integ : Integrity := .good
  entry : EntryCheck := {}
  deriving DecidableEq, Repr

/-- A tariff (R154), with its stored check (R188). -/
structure Tariff where
  fee : Nat := 0
  base : Nat := 0
  peak : Nat := 0
  detour : Nat := 0
  inbound : Nat := 0
  integ : Integrity := .good
  entry : EntryCheck := {}
  deriving DecidableEq, Repr

/-- An entry of the image's FIXED section, as the integrity unit knows it (R22, R193), with its stored check (R188). -/
structure FixedCfg where
  tenant : Tenant
  addr : Addr
  localPort : Option (Fin 24)
  integ : Integrity := .good
  entry : EntryCheck := {}
  deriving DecidableEq, Repr

/-- The kinds of configuration entry, in the order in which WAITING entries are queued (R194). -/
inductive CfgKind where
  | rule | tenant | tariff | fixed
  deriving DecidableEq, Repr

/-- A configuration entry named by its kind and its number (R194). -/
structure CfgItem where
  kind : CfgKind
  number : Nat
  deriving DecidableEq, Repr

/-! ## Forwarding table (chapter 2) -/

/-- A holder record (section 2.1). -/
structure Holder where
  station : Station
  gen : BitVec 16
  period : BitVec 16
  deriving DecidableEq, Repr

/-- The origin of an entry; a FIXED one knows the number of its image entry. -/
inductive Origin where
  | learned | fixed (number : Nat)
  deriving DecidableEq, Repr

/-- A forwarding entry (Table 2-1). `intact` is the outcome that a test of its integrity check has, a check whose form the
manual does not give (log entry 6); a FIXED one has the stored check of its image entry besides (R188, R193). -/
structure FwdEntry where
  tenant : Tenant
  addr : Addr
  origin : Origin
  localPort : Option (Fin 24)
  age : Nat
  announced : Bool
  holders : List Holder
  intact : Bool := true
  entry : EntryCheck := {}
  deriving DecidableEq, Repr

/-- The operations of a reach item (R24). -/
inductive ReachOp where
  | join | leave
  deriving DecidableEq, Repr

/-- An item of the reach queue (R24). -/
structure ReachItem where
  tenant : Tenant
  addr : Addr
  op : ReachOp
  deriving DecidableEq, Repr

/-- The forwarding table (R16, R24, R30 to R33, R37). The table is keyed by entry index; an unlisted index is an
empty slot. -/
structure Forwarding where
  table : List (Nat × FwdEntry) := []
  queue : List ReachItem := []
  resweep : Bool := false
  sweep : Option Nat := none
  sweepDue : Bool := false
  agingPos : Nat := 0
  agingOn : Bool := false
  period : BitVec 16 := 0
  learnRefused : Count := 0
  reachRefused : Count := 0
  reachIgnored : Count := 0
  sweepOverrun : Count := 0
  deriving DecidableEq, Repr

/-! ## Peer table (chapters 3, 5 and 7) -/

/-- The states of a peer slot (R120 to R124). -/
inductive SlotState where
  | joining | active | severed | lost
  deriving DecidableEq, Repr

/-- An entry of a reach map (R126). -/
structure ReachEntry where
  link : LinkState
  looped : Bool
  far : Option Station
  deriving DecidableEq, Repr

/-- A taken peer slot (Table 7-4), with the peer's announced load (R84), the expiry of its freshness (R85, R183) and its relay
choice (R41). -/
structure PeerSlot where
  station : Station
  serial : Serial
  state : SlotState
  gen : BitVec 16
  seenRunning : Bool
  collision : Bool := false
  lastHeard : Time
  silenceExpiry : Option Time
  joinExpiry : Option Time
  lingerExpiry : Option Time := none
  freshExpiry : Option Time := none
  reachMap : Option (List ReachEntry) := none
  bondUp : BitVec 64 := 0
  uCount : Nat := 0
  isolated : Bool := false
  uplink : Option (Nat × Time) := none
  xIdx : List Nat := [0, 0, 0, 0, 0]
  dPeer : Option Station := none
  dShare : Nat := 0
  rCount : Nat := 0
  relay : Option Station := none
  deriving DecidableEq, Repr

/-- The peer table (section 7.4, R128, R129). -/
structure Peers where
  slots : Vector (Option PeerSlot) 5 := Vector.replicate 5 none
  genCounter : BitVec 16 := 0
  isolated : Bool := false
  tableFull : Count := 0
  linkIgnored : Count := 0
  deriving DecidableEq, Repr

/-! ## Load unit and restraint unit (chapters 5 and 6) -/

/-- The load unit (R77, R80, R81, R89, R96). The nine indices are those of U0 to U3 and X0 to X4, in that order. -/
structure LoadUnit where
  idx : Vector Nat 9 := Vector.replicate 9 0
  uplink : Nat := 0
  peak : Vector Bool 4 := Vector.replicate 4 false
  divPeer : Option Station := none
  share : Nat := 0
  loadIgnored : Count := 0
  deriving DecidableEq, Repr

/-- The restraint settings of a tenant (R97). -/
structure RestraintSetting where
  quota : Nat := 0
  exempt : Bool := false
  deriving DecidableEq, Repr

/-- The restraint unit (R98). `denied` lists the tenants whose flag is set. An unlisted tenant's settings are
quota 0, not exempt. -/
structure Restraint where
  on : Bool := false
  slot : Nat := 0
  nextStart : Nat := 0
  list : List (Tenant × Nat) := []
  denied : List Tenant := []
  settings : List (Nat × RestraintSetting) := [(0, { quota := 0, exempt := true })]
  deriving DecidableEq, Repr

/-! ## Meter (chapter 9) -/

/-- A live accumulator (Table 9-2). -/
structure Accumulator where
  outF : BitVec 40 := 0
  outO : BitVec 48 := 0
  inF : BitVec 40 := 0
  inO : BitVec 48 := 0
  charge : BitVec 48 := 0
  residue : BitVec 10 := 0
  drops : Count := 0
  suspect : Bool := false
  saturated : Bool := false
  restrained : Bool := false
  tariffFault : Bool := false
  checkGood : Bool := true
  deriving DecidableEq, Repr

/-- A record of a pending interval (R161). -/
structure Record where
  tenant : Tenant
  bcls : Cls
  outF : BitVec 40
  outO : BitVec 48
  inF : BitVec 40
  inO : BitVec 48
  charge : BitVec 48
  drops : Count
  suspect : Bool
  saturated : Bool
  restrained : Bool
  tariffFault : Bool
  deriving DecidableEq, Repr

/-- A pending interval (R161). The mark set is one bit per code. -/
structure Interval where
  number : Count
  span : Nat
  opened : Time
  closed : Time
  marks : BitVec 8
  records : List Record
  deriving DecidableEq, Repr

/-- The meter but for the tariff table (R156, R159, R163). An unlisted accumulator has all counts 0, residue 0
and no flag. -/
structure Meter where
  accs : List (Nat × Accumulator) := []
  number : Count := 1
  span : Nat := 1
  opened : Time := 0
  marks : BitVec 8 := 0
  queue : List Interval := []
  everOpened : Bool := false
  deriving DecidableEq, Repr

/-! ## Export channels and orders (chapter 10) -/

/-- The channel states (R170). -/
inductive ChanState where
  | idle | running | held | stopped
  deriving DecidableEq, Repr

/-- A record as a RECORD message carries it (R172): with translate set, the account number. -/
structure OutRecord where
  account : Option (BitVec 32)
  entry : Record
  deriving DecidableEq, Repr

/-- What going back to a mark restores (Table 10-2). -/
structure Mark where
  cursor : Nat := 0
  sent : Nat := 0
  skipF : Nat := 0
  skipU : Nat := 0
  seq : BitVec 16 := 0
  deriving DecidableEq, Repr

/-- A built RECORD message of a channel, ready or in slot 7 (Table 10-2). -/
structure Outstanding where
  seq : BitVec 16
  records : List OutRecord
  inSlot : Bool := false
  deriving DecidableEq, Repr

/-- The cause set of an END report (R173, R176). -/
structure Causes where
  exhausted : Bool := false
  count : Bool := false
  single : Bool := false
  matched : Bool := false
  event : Bool := false
  halted : Bool := false
  deriving DecidableEq, Repr

/-- Where a pending END stands: prepared, made ready, or in slot 6 (R173, R139). -/
inductive EndStage where
  | prepared | ready | inSlot
  deriving DecidableEq, Repr

/-- A pending END report (Table 10-2). -/
structure PendingEnd where
  causes : Causes
  stage : EndStage
  deriving DecidableEq, Repr

/-- A channel context (Table 10-2). -/
structure Channel where
  state : ChanState := .idle
  source : Count := 0
  cursor : Nat := 0
  filterLow : Tenant := 0
  filterHigh : Tenant := 0
  stop : Option (Tenant × Tenant) := none
  limit : Nat := 0
  single : Bool := false
  event : Bool := false
  translate : Bool := false
  dst : Station := 0
  priority : Nat := 0
  shareLimit : Nat := 0
  sent : Nat := 0
  skipF : Nat := 0
  skipU : Nat := 0
  lost : Nat := 0
  seq : BitVec 16 := 0
  building : List OutRecord := []
  outstanding : Option Outstanding := none
  mark : Mark := {}
  pendingEnd : Option PendingEnd := none
  shareUsed : Nat := 0
  deriving DecidableEq, Repr

/-- The content of an END report as it stands when it is made ready (R173). -/
structure EndReport where
  chan : Fin 2
  interval : Count
  causes : Causes
  cursor : Nat
  sent : Nat
  skipF : Nat
  skipU : Nat
  lost : Nat
  seq : BitVec 16
  dst : Station
  deriving DecidableEq, Repr

/-- The two channels, the one that goes first between equals (R179), and the ENDs made ready in order (R139). -/
structure Channels where
  ctx : Vector Channel 2 := Vector.replicate 2 {}
  nextFirst : Fin 2 := 0
  readyEnds : List EndReport := []
  deriving DecidableEq, Repr

/-- The order handler (R168, R169, R182). -/
structure Orders where
  collectors : List Station := []
  anySource : Bool := false
  ignored : Count := 0
  dropped : Count := 0
  restartPending : Bool := false
  deriving DecidableEq, Repr

/-- The reasons of Table 10-1. -/
inductive Reason where
  | busy | wrongState | noInterval | inExport | badParameter | notReady
  deriving DecidableEq, Repr

/-! ## Parameters, time base, loader (chapter 11) -/

/-- The start states (section 11.3). -/
inductive Phase where
  | loading | failsafe | joining | running
  deriving DecidableEq, Repr

/-- The image parameters with their defaults (Table 12-7 and the tables of the owning chapters). Periods stand in
the unit of Table 12-7. -/
structure Params where
  serial : Serial := 0
  bitRate : Nat := 1
  deepHash : Bool := false
  samplePeriod : Nat := 100
  loadShift : Nat := 3
  loadPeriod : Nat := 10
  helloPeriod : Nat := 500
  refreshPeriod : Nat := 30
  basis : Nat := 2048
  margin : Nat := 2048
  cap : Nat := 256
  slew : Nat := 64
  xl : Nat := 24576
  tp : Nat := 16384
  onLevel : Nat := 1536
  offLevel : Nat := 3072
  window : Nat := 8
  ageLimit : Nat := 300
  billing : Nat := 300
  holdBase : Nat := 1
  degrade : Nat := 16
  decay : Nat := 60
  classLimit : Nat := 1024
  deriving DecidableEq, Repr

/-- The time base (R183): the station time and the time at which each periodic event is next due. -/
structure TimeBase where
  now : Time := 0
  sampleDue : Time := 100
  loadDue : Option Time := none
  helloDue : Option Time := none
  secondDue : Time := 1000000
  refreshDue : Option Time := none
  intervalDue : Option Time := none
  shareDue : Time := 1000
  deriving DecidableEq, Repr

/-- The loader and integrity unit (R188 to R195). `strapReads` is the model's own: how many free strap levels restarts
have sampled (log entry 5). -/
structure Loader where
  phase : Phase := .loading
  enteredAt : Time := 0
  helloCount : Nat := 0
  strapReads : Nat := 0
  station : Station := 0
  failReason : Option Nat := none
  clamps : Count := 0
  integrityFaults : Count := 0
  refetchFailed : Count := 0
  restartCount : Count := 0
  refetch : List CfgItem := []
  failures : Nat := 0
  deriving DecidableEq, Repr

/-! ## Event links (chapter 11) -/

/-- The source events of Table 11-2. -/
inductive EventSource where
  | portDown | portUp | portDegraded | peerActive | peerSevered | peerLost | isolationOn | isolationOff
  | restraintOn | restraintOff | tenantDenied | diversionStart | diversionEnd
  | intervalClosed | closeDeferred | integrityFault
  deriving DecidableEq, Repr

/-- An event as raised: its source and the qualifier it carries. -/
structure Event where
  source : EventSource
  qual : Option Nat := none
  deriving DecidableEq, Repr

/-- The actions of Table 11-3. -/
inductive LinkAction where
  | sendLoad | sendLink | closeInterval | exportEvent (chan : Fin 2) | markInterval (code : Fin 8)
  deriving DecidableEq, Repr

/-- A filled link place with its hold-off state (R185, R186). -/
structure EventLink where
  source : EventSource
  qual : Option Nat
  action : LinkAction
  holdOff : Nat
  count : Nat := 0
  pend : Bool := false
  deriving DecidableEq, Repr

/-! ## STATUS parts (chapter 10 and Table 12-4) -/

/-- STATION part 0 (R195): identity, start state, times and the loader's counts. -/
structure StationIdentity where
  station : Station
  serial : Serial
  phase : Phase
  now : Time
  inPhase : Time
  failReason : Option Nat
  clamps : Count
  integrityFaults : Count
  refetchFailed : Count
  restartCount : Count
  refetchLength : Nat
  waiting : Nat
  failed : Nat
  deriving DecidableEq, Repr

/-- STATION part 1 (R73, R96, R108, R167): buffer, load and restraint items, and the meter's STATION items. -/
structure StationLoad where
  free : Nat
  cellsHeld : Nat
  classLimit : Nat
  uplink : Nat
  divPeer : Option Station
  share : Nat
  loadIgnored : Count
  restraintOn : Bool
  slot : Nat
  nextStart : Nat
  listed : Nat
  denied : Nat
  onLevel : Nat
  offLevel : Nat
  window : Nat
  pendingIntervals : Nat
  deferral : Bool
  deriving DecidableEq, Repr

/-- STATION part 2 (R37, R129, R150, R169, R196): forwarding, peer table and group line items, with the order
handler's counts and FORMAT_ERROR. `slotsHeld` says for slots 0 to 7 whether one is on the line and one waits. -/
structure StationNotices where
  learnRefused : Count
  reachRefused : Count
  reachIgnored : Count
  sweepOverrun : Count
  occupied : Nat
  fixedEntries : Nat
  reachLength : Nat
  resweep : Bool
  sweep : Option Nat
  sweepDue : Bool
  isolated : Bool
  uCount : Nat
  bondUp : BitVec 64
  genCounter : BitVec 16
  tableFull : Count
  linkIgnored : Count
  rxError : Count
  txError : Count
  txFailed : Count
  quietCount : Count
  numberClash : Count
  conflict : Bool
  quietLeft : Option Time
  discards : Nat
  answerLength : Nat
  bitRate : Nat
  slotsHeld : List (Bool × Bool)
  formatError : Count
  ordersIgnored : Count
  ordersDropped : Count
  deriving DecidableEq, Repr

/-- STATION part 3 (R195): the sixteen link places (absent, or hold-off count and pending flag) and the integrity
states of the classifier rules and tariffs. -/
structure StationLinks where
  links : List (Option (Nat × Bool))
  rules : List (Option Integrity)
  tariffs : List Integrity
  deriving DecidableEq, Repr

/-- PORT n part 0 (R129, R96): link items; the load index of a U-port or X-port and the peak state of a U-port (log
entry 20). -/
structure PortLink where
  link : LinkState
  penalty : Nat
  holdLeft : Option Time
  carrier : Bool
  badFrames : BitVec 16
  far : Option (Station × Serial)
  looped : Bool
  loadIndex : Option Nat
  peak : Option Bool
  deriving DecidableEq, Repr

/-- PORT n part 1 (R73): queue and drop counts. -/
structure PortCounts where
  queues : List (Nat × Nat)
  txCopies : Count
  txOctets : BitVec 48
  drops : Drops
  deriving DecidableEq, Repr

/-- Freshness of a slot's announced uplink index (R85). -/
inductive Freshness where
  | fresh | stale | absent
  deriving DecidableEq, Repr

/-- A PEERS part (R129, R96, R42): one slot. -/
structure PeerReport where
  station : Station
  serial : Serial
  state : SlotState
  gen : BitVec 16
  seenRunning : Bool
  collision : Bool
  sinceHeard : Time
  direct : Option XIndex
  reachMap : Option (List ReachEntry)
  bondUp : BitVec 64
  uCount : Nat
  isolated : Bool
  uplink : Option Nat
  freshness : Freshness
  xIdx : List Nat
  dPeer : Option Station
  dShare : Nat
  rCount : Nat
  relay : Option Station
  deriving DecidableEq, Repr

/-- TENANT t part 0 (R73, R108, R195). -/
structure TenantReport where
  occupancy : Nat
  listed : Option (Nat × Bool)
  denied : Bool
  quota : Nat
  exempt : Bool
  integ : Option Integrity
  deriving DecidableEq, Repr

/-- A pending interval's header in INTERVALS part 0 (R167). -/
structure IntervalHeader where
  number : Count
  span : Nat
  opened : Time
  closed : Time
  marks : BitVec 8
  records : Nat
  readers : List (Fin 2)
  deriving DecidableEq, Repr

/-- INTERVALS part 0 (R167). -/
structure IntervalsReport where
  number : Count
  span : Nat
  opened : Time
  marks : BitVec 8
  deferral : Bool
  pending : List IntervalHeader
  deriving DecidableEq, Repr

/-- The items of one part of a STATUS answer (R181, Table 12-4). -/
inductive StatusPart where
  | stationIdentity (r : StationIdentity)
  | stationLoad (r : StationLoad)
  | stationNotices (r : StationNotices)
  | stationLinks (r : StationLinks)
  | portLink (r : PortLink)
  | portCounts (r : PortCounts)
  | peer (r : Option PeerReport)
  | tenant (r : TenantReport)
  | accumulators (r : List Accumulator)
  | intervals (r : IntervalsReport)
  | channel (c : Channel) (settling : Bool)
  deriving DecidableEq, Repr

/-! ## Messages of the group line (chapter 8) -/

/-- The data of an answer (R171, R175, R181). -/
inductive AnswerData where
  | none
  | started (number : Count) (records : Nat) (shareLimit : Nat)
  | chanState (s : ChanState)
  | discarded (closed : Option Count)
  | closed (number : Count)
  | deferred (span : Nat)
  | status (part count : Nat) (items : StatusPart)
  deriving DecidableEq, Repr

/-- The content of a message that a station sends (Tables 12-3 and 12-4, section 12.3). -/
inductive Body where
  | link (serial : Serial) (reach : List ReachEntry) (uCount : Nat) (bondUp : BitVec 64) (isolated : Bool)
  | hello (serial : Serial) (phase : Phase) (isolated conflict : Bool)
  | load (serial : Serial) (uplink : Nat) (xIdx : List Nat) (dPeer : Option Station) (dShare rCount : Nat)
      (isolated : Bool)
  | answer (kind : Byte) (tag : BitVec 16) (refusal : Option Reason) (data : AnswerData)
  | reach (serial : Serial) (items : List ReachItem)
  | endReport (r : EndReport)
  | record (chan : Fin 2) (interval : Count) (seq : BitVec 16) (records : List OutRecord)
  deriving DecidableEq, Repr

/-- A message of the station: its destination and content, its error count (R135), and whether its owner has asked
for its withdrawal (R136). -/
structure TxMsg where
  dst : Station
  body : Body
  errors : Nat := 0
  withdrawn : Bool := false
  deriving DecidableEq, Repr

/-- The group line controller (R134, R138, R150). The message on the line stands in `onLine`; the other fields hold
the waiting messages of their slots, and `answers` the answers that wait, oldest first. -/
structure GroupLine where
  onLine : Option TxMsg := none
  wLink : Option TxMsg := none
  wHello : Option TxMsg := none
  wLoad : Option TxMsg := none
  answers : List TxMsg := []
  wReach : Option TxMsg := none
  wEnd : Option TxMsg := none
  wRecord : Option TxMsg := none
  conflict : Bool := false
  quiet : Option Time := none
  discards : Nat := 0
  rxError : Count := 0
  txError : Count := 0
  txFailed : Count := 0
  quietCount : Count := 0
  numberClash : Count := 0
  formatError : Count := 0
  deriving DecidableEq, Repr

/-! ## The whole station -/

/-- The default entry of tenant 0 (R8). -/
def tenantZero : TenantEntry where
  account := none
  members := BitVec.allOnes 24
  quota := 0
  tariffs := Vector.replicate 4 0
  exempt := true

/-- The state of the station, with the queue of commands that wait (the model's own field). An unlisted rule,
tenant, fixed entry or link is absent; an unlisted tariff holds 0 in all five values. -/
structure State where
  pending : List Instr := []
  ports : Vector PortUnit 33 := Vector.replicate 33 {}
  buffer : Buffer := {}
  rules : List (Nat × Rule) := []
  tenants : List (Nat × TenantEntry) := [(0, tenantZero)]
  tariffs : List (Nat × Tariff) := []
  fixed : List (Nat × FixedCfg) := []
  fwd : Forwarding := {}
  peers : Peers := {}
  load : LoadUnit := {}
  restraint : Restraint := {}
  line : GroupLine := {}
  meter : Meter := {}
  chans : Channels := {}
  orders : Orders := {}
  links : List (Nat × EventLink) := []
  params : Params := {}
  time : TimeBase := {}
  loader : Loader := {}
  deriving DecidableEq, Repr

/-- The station right after power-on: every block at the value its chapter gives for a full reset (R192); the straps
are read as 0 and the few registers without a reset value are 0 (log entries 4 and 7). -/
def State.reset : State := {}

/-- No command of the 4812 stops the machine: what the manual calls a fault is state (drop counters,
INTEGRITY_FAULT, FAILSAFE). No constructor, so nothing raises one; safe. -/
inductive Fault where
  deriving DecidableEq, Repr

/-- Why a command has no meaning. -/
inductive Refusal where
  /-- Raised by an arm of Dispatch whose command has no meaning yet; safe. No arm uses it. -/
  | notModelled (mnemonic : String)
  deriving DecidableEq, Repr

end Sys2Proof.Machine
end

