-- ==== Sys2Proof/Machine/Ops.lean ====
section
/-! DEFINITION. The shared operations: effects with raised events, sparse maps, counters, cyclic checks, station
time, ports, drop counts, and integrity faults with their refetch. -/

namespace Sys2Proof.Machine

/-! ## Effects -/

/-- What an operation leaves: the state, and the events it raised, in order. -/
structure Out where
  st : State
  evs : List Event := []

/-- The operation raised nothing. -/
def Out.of (s : State) : Out := { st := s }

/-- One operation after another; their events in order. -/
def Out.andThen (o : Out) (f : State → Out) : Out :=
  match f o.st with
  | ⟨s, e⟩ => ⟨s, o.evs ++ e⟩

/-- A change that raises nothing, after an operation. -/
def Out.also (o : Out) (f : State → State) : Out := ⟨f o.st, o.evs⟩

/-- Raises an event (11.2). -/
def raise (source : EventSource) (qual : Option Nat) (s : State) : Out := ⟨s, [⟨source, qual⟩]⟩

/-- An operation over the items of a list, in order. -/
def eachOut {α : Type} (f : α → State → Out) : List α → State → Out
  | [], s => .of s
  | a :: as, s => (f a s).andThen (eachOut f as)

/-- A silent operation over the items of a list, in order. -/
def eachState {α : Type} (f : α → State → State) : List α → State → State
  | [], s => s
  | a :: as, s => eachState f as (f a s)

/-! ## Sparse maps: lists of (key, value) with ascending keys -/

/-- The value at a key. -/
def mapFind {α : Type} : List (Nat × α) → Nat → Option α
  | [], _ => none
  | (k, v) :: m, n => if k = n then some v else mapFind m n

/-- The value at a key, or what an unlisted key reads as. -/
def mapGet {α : Type} (d : α) (m : List (Nat × α)) (n : Nat) : α := (mapFind m n).getD d

/-- Sets the value at a key. -/
def mapInsert {α : Type} : List (Nat × α) → Nat → α → List (Nat × α)
  | [], n, x => [(n, x)]
  | (k, v) :: m, n, x =>
    if n < k then (n, x) :: (k, v) :: m
    else if n = k then (n, x) :: m
    else (k, v) :: mapInsert m n x

/-- Removes a key. -/
def mapErase {α : Type} : List (Nat × α) → Nat → List (Nat × α)
  | [], _ => []
  | (k, v) :: m, n => if k = n then m else (k, v) :: mapErase m n

/-- Sets the value at a key of a map whose unlisted keys read as `d`. -/
def mapSet {α : Type} [DecidableEq α] (d : α) (m : List (Nat × α)) (n : Nat) (x : α) : List (Nat × α) :=
  if x = d then mapErase m n else mapInsert m n x

/-- Changes the value at a key that is listed. -/
def mapModify {α : Type} (m : List (Nat × α)) (n : Nat) (f : α → α) : List (Nat × α) :=
  match mapFind m n with
  | some v => mapInsert m n (f v)
  | none => m

/-- The canonical form: keys strictly ascending. -/
def mapWf {α : Type} : List (Nat × α) → Bool
  | [] => true
  | [_] => true
  | (k, _) :: (k', v') :: m => decide (k < k') && mapWf ((k', v') :: m)

/-! ## Counters and numbers -/

/-- A 32-bit counter that saturates (R3). -/
def satInc (c : Count) : Count := if c = BitVec.allOnes 32 then c else c + 1

/-- Adds to a counter of any width, stopping at its largest value; the flag says that the increase would have
carried it above that value (R156). -/
def satAdd {w : Nat} (c : BitVec w) (n : Nat) : BitVec w × Bool :=
  if 2 ^ w ≤ c.toNat + n then (BitVec.allOnes w, true) else (c + BitVec.ofNat w n, false)

/-- Evaluates a number before it is used; the value is `f n`. -/
def withNat {α : Type} (n : Nat) (f : Nat → α) : α :=
  match n with
  | 0 => f 0
  | k + 1 => f (k + 1)

/-- The number 0 to 3 of a class field, values above 3 read as 3. -/
def clsOf (n : Nat) : Cls := ⟨min n 3, by omega⟩

/-! ## Cyclic checks (R2, R14, R189) -/

/-- Bits of a check register of `w` bits, most significant bit first. -/
def crcShiftUp (w poly : Nat) : Nat → Nat → Nat
  | 0, r => r
  | n + 1, r =>
    withNat (if r < 2 ^ (w - 1) then 2 * r else (2 * r - 2 ^ w) ^^^ poly) (crcShiftUp w poly n)

/-- Octets taken most significant bit first. -/
def crcUp (w poly : Nat) : List Byte → Nat → Nat
  | [], r => r
  | b :: bs, r => withNat (crcShiftUp w poly 8 (r ^^^ (b.toNat * 2 ^ (w - 8)))) (crcUp w poly bs)

/-- Bits of a 32-bit check register, least significant bit first. -/
def crcShiftDown (poly : Nat) : Nat → Nat → Nat
  | 0, r => r
  | n + 1, r => withNat (if r % 2 = 1 then (r / 2) ^^^ poly else r / 2) (crcShiftDown poly n)

/-- Octets taken least significant bit first. -/
def crcDown (poly : Nat) : List Byte → Nat → Nat
  | [], r => r
  | b :: bs, r => withNat (crcShiftDown poly 8 (r ^^^ b.toNat)) (crcDown poly bs)

/-- The 16-bit check of R14: generator x^16 + x^12 + x^5 + 1, initial 0xFFFF, no final complement. -/
def crc16 (octets : List Byte) : Nat := crcUp 16 0x1021 octets 0xFFFF

/-- The frame check sequence of R2: generator 0x04C11DB7 with octets least significant bit first, which is the
reflected generator 0xEDB88320, initial all ones, complemented. -/
def frameCheck (octets : List Byte) : Nat := crcDown 0xEDB88320 octets 0xFFFFFFFF ^^^ 0xFFFFFFFF

/-- The image check of R189: generator 0x04C11DB7, octets most significant bit first, complemented. -/
def imageCheck (octets : List Byte) : Nat := crcUp 32 0x04C11DB7 octets 0xFFFFFFFF ^^^ 0xFFFFFFFF

/-! ## Stored entry checks (R188, R193) -/

/-- A stored entry check is the check of the octets that it covers. -/
def EntryCheck.good (c : EntryCheck) : Bool := crc16 c.octets == c.check.toNat

/-- The outcome of a rule's test at a read. -/
def Rule.checkGood (r : Rule) : Bool := r.entry.good

/-- The outcome of a tenant entry's test at a read. -/
def TenantEntry.checkGood (e : TenantEntry) : Bool := e.entry.good

/-- The outcome of a tariff's test at a read. -/
def Tariff.checkGood (t : Tariff) : Bool := t.entry.good

/-- The outcome of a forwarding entry's test at a read: its own check and, for a FIXED one, that of its image entry. -/
def FwdEntry.checkGood (e : FwdEntry) : Bool := e.intact && e.entry.good

/-! ## Station time (R183) -/

/-- A time `us` microseconds after another, modulo 2^48. -/
def later (t : Time) (us : Nat) : Time := t + BitVec.ofNat 48 us

/-- Whether the station time has reached `t`: the difference, modulo 2^48, lies in the lower half. -/
def reached (now t : Time) : Bool := decide ((now - t).toNat < 2 ^ 47)

/-- The station time reaches `t`; it never goes back (log entry 2). -/
def reachTime (t : Time) (s : State) : State :=
  if reached s.time.now t then s else { s with time := { s.time with now := t } }

/-- One second in microseconds. -/
def second : Nat := 1000000

/-- The hello period in microseconds (Table 7-1). -/
def helloUs (s : State) : Nat := s.params.helloPeriod * 1000

/-- The refresh period in microseconds. -/
def refreshUs (s : State) : Nat := s.params.refreshPeriod * second

/-- The load notice period in microseconds. -/
def loadUs (s : State) : Nat := s.params.loadPeriod * 1000

/-! ## Ports, slots and start state -/

/-- Port order (ascending port number). -/
def allPorts : List Port := List.finRange 33

/-- The X-ports in port order. -/
def allX : List XIndex := [0, 1, 2, 3, 4]

/-- The peer slots in order. -/
def allSlots : List SlotNo := [0, 1, 2, 3, 4]

/-- S-port n. -/
def sPort (n : Fin 24) : Port := ⟨n.val, by omega⟩

/-- U-port n. -/
def uPort (n : Fin 4) : Port := ⟨24 + n.val, by omega⟩

/-- X-port n. -/
def xPort (n : XIndex) : Port := ⟨28 + n.val, by omega⟩

/-- The S-port that a port number names. -/
def asS (p : Port) : Option (Fin 24) := if h : p.val < 24 then some ⟨p.val, h⟩ else none

/-- The U-port that a port number names. -/
def asU (p : Port) : Option (Fin 4) :=
  if h : 24 ≤ p.val ∧ p.val < 28 then some ⟨p.val - 24, by omega⟩ else none

/-- The X-port that a port number names. -/
def asX (p : Port) : Option XIndex := if h : 28 ≤ p.val then some ⟨p.val - 28, by omega⟩ else none

/-- The port unit of a port. -/
def State.port (s : State) (p : Port) : PortUnit := s.ports[p]

/-- Changes one port unit. -/
def setPort (p : Port) (f : PortUnit → PortUnit) (s : State) : State :=
  { s with ports := s.ports.set p.val (f s.ports[p]) p.isLt }

/-- The peer slot n. -/
def State.slot (s : State) (n : SlotNo) : Option PeerSlot := s.peers.slots[n]

/-- Sets the peer slot n. -/
def setSlot (n : SlotNo) (x : Option PeerSlot) (s : State) : State :=
  { s with peers := { s.peers with slots := s.peers.slots.set n.val x n.isLt } }

/-- Changes the peer slot n when it is taken. -/
def modifySlot (n : SlotNo) (f : PeerSlot → PeerSlot) (s : State) : State :=
  setSlot n ((s.slot n).map f) s

/-- The station is in JOINING or RUNNING. -/
def State.acting (s : State) : Bool := s.loader.phase == .joining || s.loader.phase == .running

/-- The group line controller is started: from the end of LOADING, unless the straps read 15 (R130). -/
def State.lineStarted (s : State) : Bool := s.loader.phase != .loading && s.loader.station != 15#4

/-- The station may fill slots 0, 3, 5, 6 and 7: JOINING or RUNNING with CONFLICT clear (R134). -/
def State.mayNotify (s : State) : Bool := s.acting && !s.line.conflict

/-! ## Drop counters (R3) -/

/-- Adds 1 to one drop counter. -/
def Drops.bump (d : Drops) : DropReason → Drops
  | .runt => { d with runt := satInc d.runt }
  | .giant => { d with giant := satInc d.giant }
  | .badFcs => { d with badFcs := satInc d.badFcs }
  | .unclassified => { d with unclassified := satInc d.unclassified }
  | .tenantFault => { d with tenantFault := satInc d.tenantFault }
  | .badTag => { d with badTag := satInc d.badTag }
  | .loop => { d with loop := satInc d.loop }
  | .samePort => { d with samePort := satInc d.samePort }
  | .noPath => { d with noPath := satInc d.noPath }
  | .queueFull => { d with queueFull := satInc d.queueFull }
  | .poolEmpty => { d with poolEmpty := satInc d.poolEmpty }
  | .restrained => { d with restrained := satInc d.restrained }
  | .denied => { d with denied := satInc d.denied }
  | .flushed => { d with flushed := satInc d.flushed }

/-- Counts a drop at a port under a reason. -/
def countDrop (p : Port) (r : DropReason) (s : State) : State :=
  setPort p (fun u => { u with drops := u.drops.bump r }) s

/-! ## Integrity faults and refetch (R193) -/

/-- INTEGRITY_FAULT is raised and the station's integrity fault count increases. -/
def integrityFault (s : State) : Out :=
  raise .integrityFault none
    { s with loader := { s.loader with integrityFaults := satInc s.loader.integrityFaults } }

/-- Sets the integrity state of a configuration entry. -/
def setInteg (i : CfgItem) (v : Integrity) (s : State) : State :=
  match i.kind with
  | .rule => { s with rules := mapModify s.rules i.number fun r => { r with integ := v } }
  | .tenant => { s with tenants := mapModify s.tenants i.number fun t => { t with integ := v } }
  | .tariff =>
    { s with tariffs := mapSet {} s.tariffs i.number { mapGet {} s.tariffs i.number with integ := v } }
  | .fixed => { s with fixed := mapModify s.fixed i.number fun f => { f with integ := v } }

/-- A refetch is requested: the entry becomes QUEUED, or WAITING when the refetch queue holds 8 items. -/
def requestRefetch (i : CfgItem) (s : State) : State :=
  if s.loader.refetch.length < Config.refetchLimit then
    setInteg i .queued { s with loader := { s.loader with refetch := s.loader.refetch ++ [i] } }
  else setInteg i .waiting s

/-- A read of a GOOD configuration entry failed its check (R193). -/
def configFault (i : CfgItem) (s : State) : Out := integrityFault (requestRefetch i s)

end Sys2Proof.Machine
end

