-- ==== Sys2Proof/Machine/Operands.lean ====
section
/-! DEFINITION. The operand forms: the fields of a frame (R1, R6, R11), of a received message (Tables 12-2 to 12-4)
and of an image entry (Table 12-6), and the octets of the messages the station sends. -/

namespace Sys2Proof.Config

/-- Free value: the octets of an answer's data that Table 12-4 does not lay out: all of the data, but for the first two
octets of a STATUS part; the manual gives none (log entry 20). -/
opaque answerItems : Machine.AnswerData → List Byte

end Sys2Proof.Config

namespace Sys2Proof.Machine

/-! ## Octets -/

/-- A number from octets, most significant octet first. -/
def beNat : List Byte → Nat
  | [] => 0
  | b :: bs => b.toNat * 256 ^ bs.length + beNat bs

/-- The `n` octets of a number, most significant first. -/
def beOctets : (n : Nat) → Nat → List Byte
  | 0, _ => []
  | n + 1, v => BitVec.ofNat 8 (v / 256 ^ n) :: beOctets n v

/-- Octets `i` to `i + n - 1`. -/
def slice (l : List Byte) (i n : Nat) : List Byte := (l.drop i).take n

/-- The number in octets `i` to `i + n - 1`. -/
def fieldNat (l : List Byte) (i n : Nat) : Nat := beNat (slice l i n)

/-- The number in octet `i`. -/
def octetNat (l : List Byte) (i : Nat) : Nat := (l.getD i 0).toNat

/-- Bit `b` of a number. -/
def bitOf (v b : Nat) : Bool := v / 2 ^ b % 2 == 1

/-! ## Frames -/

/-- The length of a frame as counted (R1): on an X-port the 8 octets of the tag are deducted. -/
def frameLength (p : Port) (l : List Byte) : Nat := if 28 ≤ p.val then l.length - 8 else l.length

/-- The FCS matches the frame's octets (R2); its four octets stand least significant first. -/
def fcsGood (l : List Byte) : Bool :=
  beNat (l.drop (l.length - 4)).reverse == frameCheck (l.take (l.length - 4))

/-- The destination address of a frame. -/
def frameDst (l : List Byte) : Addr := BitVec.ofNat 48 (fieldNat l 0 6)

/-- The source address of a frame. -/
def frameSrc (l : List Byte) : Addr := BitVec.ofNat 48 (fieldNat l 6 6)

/-- A group address: its first octet is odd (R39, R19). -/
def groupAddr (a : Addr) : Bool := a.getLsbD 40

/-- A frame is tagged when the two octets after the source address are 0x8100 (R6). -/
def vlanTagged (l : List Byte) : Bool := fieldNat l 12 2 == 0x8100

/-- The four properties that the classifier reads (R6); `vid` and `prio` of an untagged frame are absent. -/
structure FrameView where
  vid : Option Nat
  prio : Option Nat
  etype : Nat
  deriving DecidableEq, Repr

/-- Reads the classifier's properties from a frame (R6). PRESUMED (log entry 45): in the two octets after 0x8100, read as
one number, the VLAN identifier stands in bits 11 to 0 and the priority code in bits 15 to 13. -/
def frameView (l : List Byte) : FrameView :=
  if vlanTagged l then
    { vid := some (fieldNat l 14 2 % 4096), prio := some (fieldNat l 14 2 / 8192), etype := fieldNat l 16 2 }
  else { vid := none, prio := none, etype := fieldNat l 12 2 }

/-- The hash input of R13. -/
def hashInput (deep : Bool) (t : Tenant) (l : List Byte) : List Byte :=
  t :: slice l 0 12 ++ (if deep then slice l (if vlanTagged l then 18 else 14) 12 else [])

/-- The flow bucket of R14. -/
def flowBucket (deep : Bool) (t : Tenant) (l : List Byte) : Nat := crc16 (hashInput deep t l) % 1024

/-- The frame's octets that travel to every egress: from the destination address to the end of the payload (R10). -/
def plainOctets (l : List Byte) : List Byte := l.take (l.length - 4)

/-- The same for an X-port frame: the tag after the source address is removed. -/
def untaggedOctets (l : List Byte) : List Byte := slice l 0 12 ++ (plainOctets l).drop 20

/-- Where the payload of a port hello starts: after an EtherType (PRESUMED, log entry 8). -/
def portHelloPayload : Nat := 14

/-- The tag marker stands in the frame (R11). -/
def hasTagMarker (l : List Byte) : Bool := fieldNat l 12 2 == Config.tagMarker

/-- The content of the group tag (Table 12-1). -/
def readTag (l : List Byte) : GroupTag where
  flood := bitOf (octetNat l 14) 3
  diverted := bitOf (octetNat l 14) 2
  relay := bitOf (octetNat l 14) 1
  origin := BitVec.ofNat 4 (octetNat l 15 / 16)
  target := BitVec.ofNat 4 (octetNat l 15 % 16)
  tenant := l.getD 16 0
  hop := octetNat l 17 / 64
  bcls := clsOf (octetNat l 17 / 16 % 4)
  tcls := clsOf (octetNat l 17 / 4 % 4)
  bucket := fieldNat l 18 2

/-- The version field of the group tag. -/
def tagVersion (l : List Byte) : Nat := octetNat l 14 / 16

/-- Two or more of FLOOD, DIVERTED and RELAY are set (R11 case 7). -/
def GroupTag.manyFlags (g : GroupTag) : Bool :=
  (g.flood && g.diverted) || (g.flood && g.relay) || (g.diverted && g.relay)

/-- The tag is invalid at station `own`: one of the eight cases of R11 holds. -/
def tagInvalid (own : Station) (l : List Byte) : Bool :=
  let g := readTag l
  tagVersion l != 1 || g.origin == 15#4 || g.target == 15#4
    || (g.hop != 1 && g.hop != 2) || (g.hop == 2 && !g.relay)
    || (g.relay && g.target == g.origin)
    || (g.hop == 2 && g.relay && g.target != own)
    || g.manyFlags || decide (1023 < g.bucket)

/-- The octets of a group tag (Table 12-1). -/
def tagOctets (g : GroupTag) : List Byte :=
  beOctets 2 Config.tagMarker
    ++ [BitVec.ofNat 8 (16 + (if g.flood then 8 else 0) + (if g.diverted then 4 else 0) + (if g.relay then 2 else 0)),
        BitVec.ofNat 8 (g.origin.toNat * 16 + g.target.toNat), g.tenant,
        BitVec.ofNat 8 (g.hop * 64 + g.bcls.val * 16 + g.tcls.val * 4)]
    ++ beOctets 2 g.bucket

/-- The octets of the port hello that the station sends (section 12.1), without FCS. -/
def portHelloOctets (st : Station) (serial : Serial) : List Byte :=
  beOctets 6 Config.helloAddr.toNat ++ beOctets 6 (Config.portHelloSource st).toNat
    ++ beOctets 2 Config.portHelloEtherType.toNat
    ++ BitVec.ofNat 8 st.toNat :: beOctets 4 serial.toNat ++ List.replicate 49 0

/-- What leaves a port for a copy (R10, R56): the tag after the source address when the copy carries one, and the FCS
generated afresh, least significant octet first. -/
def wireOctets (c : Copy) : List Byte :=
  let body := match c.tag with
    | none => c.octets
    | some g => slice c.octets 0 12 ++ tagOctets g ++ c.octets.drop 12
  body ++ (beOctets 4 (frameCheck body)).reverse

/-! ## Messages as received (Table 12-2) -/

/-- The header fields of a message. -/
structure RxHeader where
  cls : Nat
  src : Station
  dst : Station
  length : Nat
  deriving DecidableEq, Repr

/-- Reads the header of a message. -/
def rxHeader (m : List Byte) : RxHeader where
  cls := octetNat m 0 / 16
  src := BitVec.ofNat 4 (octetNat m 0 % 16)
  dst := BitVec.ofNat 4 (octetNat m 1 / 16)
  length := octetNat m 2

/-- The payload of a message. -/
def rxPayload (m : List Byte) : List Byte := slice m 3 (rxHeader m).length

/-- A received message fails one of the six receive checks of R142. The octets after the check stand for a message
that ran on past its length. -/
def rxFails (m : List Byte) (ranOn : Bool) : Bool :=
  let n := (rxHeader m).length
  decide (m.length < n + 5) || fieldNat m (n + 3) 2 != crc16 (m.take (n + 3))
    || decide (120 < n) || decide (8 ≤ (rxHeader m).cls) || (rxHeader m).src == 15#4
    || ranOn || decide (n + 5 < m.length)

/-! ## Payloads as received (Table 12-3, R196) -/

/-- The link state codes of a reach map. -/
def linkOfCode : Nat → LinkState
  | 0 => .down
  | 1 => .up
  | 2 => .degraded
  | _ => .held

/-- The code of a link state. -/
def codeOfLink : LinkState → Nat
  | .down => 0
  | .up => 1
  | .degraded => 2
  | .held => 3

/-- A HELLO as received. `phase` is its start state. -/
structure HelloRx where
  switch : Bool
  serial : Serial
  phase : Phase
  conflict : Bool
  deriving DecidableEq, Repr

/-- Reads a HELLO payload; none is a payload fault of R196. Role, part code and start state are codes; the revision and
the capacities are numbers and are not tested (log entry 18). -/
def readHello (l : List Byte) : Option HelloRx :=
  if l.length = 19 ∧ fieldNat l 5 2 = Config.partCode then
    match octetNat l 0, octetNat l 17 with
    | 1, 1 => some ⟨true, ser, .joining, conf⟩
    | 1, 2 => some ⟨true, ser, .running, conf⟩
    | 1, 3 => some ⟨true, ser, .failsafe, conf⟩
    | 2, 1 => some ⟨false, ser, .joining, conf⟩
    | 2, 2 => some ⟨false, ser, .running, conf⟩
    | 2, 3 => some ⟨false, ser, .failsafe, conf⟩
    | _, _ => none
  else none
where
  ser : Serial := BitVec.ofNat 32 (fieldNat l 1 4)
  conf : Bool := bitOf (octetNat l 18) 1

/-- A LINK as received. -/
structure LinkRx where
  serial : Serial
  reach : List ReachEntry
  uCount : Nat
  bondUp : BitVec 64
  isolated : Bool
  deriving DecidableEq, Repr

/-- One octet of a reach map. -/
def readReachEntry (v : Nat) : ReachEntry where
  link := linkOfCode (v / 64)
  looped := bitOf v 5
  far := if bitOf v 4 then some (BitVec.ofNat 4 (v % 16)) else none

/-- A bond-up set from its 8 octets: bond b is bit b mod 8 of octet b div 8; the bit of bond 0 is reserved. -/
def readBonds (l : List Byte) : BitVec 64 := BitVec.ofNat 64 (beNat l.reverse) &&& ~~~(1#64)

/-- Reads a LINK payload; none is a payload fault of R196. -/
def readLink (l : List Byte) : Option LinkRx :=
  let reach := (slice l 4 5).map fun b => readReachEntry b.toNat
  if l.length = 19 ∧ octetNat l 9 ≤ 4 ∧ reach.all (fun e => e.far != some 15#4) then
    some { serial := BitVec.ofNat 32 (fieldNat l 0 4), reach := reach, uCount := octetNat l 9,
           bondUp := readBonds (slice l 10 8), isolated := bitOf (octetNat l 18) 0 }
  else none

/-- A LOAD as received. -/
structure LoadRx where
  serial : Serial
  uplink : Nat
  xIdx : List Nat
  dPeer : Option Station
  dShare : Nat
  rCount : Nat
  isolated : Bool
  deriving DecidableEq, Repr

/-- Reads a LOAD payload; none is a payload fault of R196. -/
def readLoad (l : List Byte) : Option LoadRx :=
  let xs := [fieldNat l 6 2, fieldNat l 8 2, fieldNat l 10 2, fieldNat l 12 2, fieldNat l 14 2]
  if l.length = 21 ∧ fieldNat l 4 2 ≤ 32767 ∧ xs.all (· ≤ 32767) ∧ octetNat l 16 ≤ 15
      ∧ fieldNat l 17 2 ≤ 1024 ∧ octetNat l 19 ≤ 16 then
    some { serial := BitVec.ofNat 32 (fieldNat l 0 4), uplink := fieldNat l 4 2, xIdx := xs,
           dPeer := if octetNat l 16 = 15 then none else some (BitVec.ofNat 4 (octetNat l 16)),
           dShare := fieldNat l 17 2, rCount := octetNat l 19, isolated := bitOf (octetNat l 20) 0 }
  else none

/-- A REACH as received. -/
structure ReachRx where
  serial : Serial
  items : List ReachItem
  deriving DecidableEq, Repr

/-- Reads `n` reach items; none when an item holds an operation other than 1 or 2. -/
def readItems : (n : Nat) → List Byte → Option (List ReachItem)
  | 0, _ => some []
  | n + 1, l =>
    match octetNat l 7, readItems n (l.drop 8) with
    | 1, some is => some (⟨l.getD 0 0, BitVec.ofNat 48 (fieldNat l 1 6), .join⟩ :: is)
    | 2, some is => some (⟨l.getD 0 0, BitVec.ofNat 48 (fieldNat l 1 6), .leave⟩ :: is)
    | _, _ => none

/-- Reads a REACH payload; none is a payload fault of R196. -/
def readReach (l : List Byte) : Option ReachRx :=
  let n := octetNat l 4
  if 1 ≤ n ∧ n ≤ 14 ∧ l.length = 5 + 8 * n then
    (readItems n (l.drop 5)).map fun is => { serial := BitVec.ofNat 32 (fieldNat l 0 4), items := is }
  else none

/-! ## Order parameters (Table 12-4) -/

/-- The parameters of START_EXPORT as written. -/
structure StartParams where
  chan : Nat
  interval : Nat
  low : Tenant
  high : Tenant
  stop : Option (Tenant × Tenant)
  limit : Nat
  single : Bool
  event : Bool
  translate : Bool
  dst : Nat
  priority : Nat
  share : Nat
  deriving DecidableEq, Repr

/-- Reads START_EXPORT parameters; none when they are too short or hold unassigned values (R196). -/
def readStart (l : List Byte) : Option StartParams :=
  if 16 ≤ l.length ∧ octetNat l 7 ≤ 1 ∧ octetNat l 12 ≤ 7 then
    some { chan := octetNat l 0, interval := fieldNat l 1 4, low := l.getD 5 0, high := l.getD 6 0,
           stop := if octetNat l 7 = 1 then some (l.getD 8 0, l.getD 9 0) else none,
           limit := fieldNat l 10 2, single := bitOf (octetNat l 12) 0, event := bitOf (octetNat l 12) 1,
           translate := bitOf (octetNat l 12) 2, dst := octetNat l 13, priority := octetNat l 14,
           share := octetNat l 15 }
  else none

/-- The channel that an order names; none when the parameter is missing or is neither 0 nor 1. -/
def readChan (l : List Byte) : Option (Fin 2) :=
  match l with
  | [] => none
  | b :: _ => if h : b.toNat < 2 then some ⟨b.toNat, h⟩ else none

/-! ## Messages as sent (Tables 12-2 to 12-5) -/

/-- The class of a message by its content (Table 8-2). -/
def Body.cls : Body → Nat
  | .link .. => 0
  | .hello .. => 1
  | .load .. => 3
  | .answer .. => 4
  | .reach .. => 5
  | .endReport _ => 6
  | .record .. => 7

/-- The octet of a flag in bit 0. -/
def flagOctet (b : Bool) : Byte := if b then 1 else 0

/-- The octet of a reach map entry. -/
def reachEntryOctet (e : ReachEntry) : Byte :=
  BitVec.ofNat 8 (codeOfLink e.link * 64 + (if e.looped then 32 else 0)
    + (match e.far with | some st => 16 + st.toNat | none => 0))

/-- The code of a reach operation. -/
def opCode : ReachOp → Byte
  | .join => 1
  | .leave => 2

/-- The octet of a diversion peer field; 15 stands for none. -/
def divPeerOctet : Option Station → Byte
  | some st => BitVec.ofNat 8 st.toNat
  | none => 15

/-- The octets of a reach item. -/
def reachItemOctets (i : ReachItem) : List Byte :=
  i.tenant :: beOctets 6 i.addr.toNat ++ [opCode i.op]

/-- The code of a start state. -/
def phaseCode : Phase → Byte
  | .joining => 1
  | .running => 2
  | .failsafe => 3
  | .loading => 0

/-- The code of an answer's outcome. -/
def outcomeCode : Option Reason → Byte
  | none => 0
  | some .busy => 1
  | some .wrongState => 2
  | some .noInterval => 3
  | some .inExport => 4
  | some .badParameter => 5
  | some .notReady => 6

/-- The octet of a cause set. -/
def causesOctet (c : Causes) : Byte :=
  BitVec.ofNat 8 ((if c.exhausted then 1 else 0) + (if c.count then 2 else 0) + (if c.single then 4 else 0)
    + (if c.matched then 8 else 0) + (if c.event then 16 else 0) + (if c.halted then 32 else 0))

/-- The 38 octets of an interval record (Table 12-5). -/
def recordOctets (r : OutRecord) : List Byte :=
  beOctets 4 (match r.account with | some a => a.toNat | none => r.entry.tenant.toNat)
    ++ [BitVec.ofNat 8 r.entry.bcls.val]
    ++ beOctets 5 r.entry.outF.toNat ++ beOctets 6 r.entry.outO.toNat
    ++ beOctets 5 r.entry.inF.toNat ++ beOctets 6 r.entry.inO.toNat
    ++ beOctets 6 r.entry.charge.toNat ++ beOctets 4 r.entry.drops.toNat
    ++ [BitVec.ofNat 8 ((if r.entry.suspect then 1 else 0) + (if r.entry.saturated then 2 else 0)
        + (if r.entry.restrained then 4 else 0) + (if r.entry.tariffFault then 8 else 0)
        + (if r.account.isSome then 16 else 0))]

/-- The data octets of an answer, at most 116: a STATUS part begins with its part number and the part count; the other
octets are free (Table 12-4, log entry 20). -/
def AnswerData.octets (d : AnswerData) : List Byte :=
  match d with
  | .none => []
  | .status part count _ =>
    (BitVec.ofNat 8 part :: BitVec.ofNat 8 count :: Config.answerItems d).take Config.answerDataLimit
  | _ => (Config.answerItems d).take Config.answerDataLimit

/-- The payload octets of a message (Tables 12-3 to 12-5). -/
def Body.payload : Body → List Byte
  | .link serial rmap u bonds iso =>
    beOctets 4 serial.toNat ++ rmap.map reachEntryOctet ++ [BitVec.ofNat 8 u]
      ++ (beOctets 8 bonds.toNat).reverse ++ [flagOctet iso]
  | .hello serial phase iso conf =>
    1 :: beOctets 4 serial.toNat ++ beOctets 2 Config.partCode ++ [1, 24, 4, 5, 5]
      ++ beOctets 2 256 ++ beOctets 2 1024
      ++ [2, phaseCode phase, BitVec.ofNat 8 ((if iso then 1 else 0) + (if conf then 2 else 0))]
  | .load serial u xs dp share rc iso =>
    beOctets 4 serial.toNat ++ beOctets 2 u ++ xs.flatMap (beOctets 2)
      ++ [divPeerOctet dp]
      ++ beOctets 2 share ++ [BitVec.ofNat 8 rc, flagOctet iso]
  | .answer kind tag refusal data => kind :: beOctets 2 tag.toNat ++ [outcomeCode refusal] ++ data.octets
  | .reach serial items =>
    beOctets 4 serial.toNat ++ [BitVec.ofNat 8 items.length] ++ items.flatMap reachItemOctets
  | .endReport r =>
    BitVec.ofNat 8 r.chan.val :: beOctets 4 r.interval.toNat ++ [causesOctet r.causes]
      ++ beOctets 2 r.cursor ++ beOctets 2 r.sent ++ beOctets 2 r.skipF ++ beOctets 2 r.skipU
      ++ beOctets 2 r.lost ++ beOctets 2 r.seq.toNat
  | .record chan interval seq records =>
    BitVec.ofNat 8 chan.val :: beOctets 4 interval.toNat ++ beOctets 2 seq.toNat
      ++ [BitVec.ofNat 8 records.length] ++ records.flatMap recordOctets

/-- The octets of a message sent by station `src` (Table 12-2), its check included (R131). -/
def messageOctets (src : Station) (m : TxMsg) : List Byte :=
  let p := m.body.payload
  let body := BitVec.ofNat 8 (m.body.cls * 16 + src.toNat) :: BitVec.ofNat 8 (m.dst.toNat * 16)
    :: BitVec.ofNat 8 p.length :: p
  body ++ beOctets 2 (crc16 body)

end Sys2Proof.Machine
end

