-- ==== Sys2Proof/Machine/Flags.lean ====
section
/-! DEFINITION. The conditions and flags that the rules compute from the state and that no register holds: usable and in
service, the direct X-port, the announced sets, relays, freshness, eligibility, windows, settling, occupancies. -/

namespace Sys2Proof.Machine

/-! ## Ports (R1, R110, R126) -/

/-- UP or DEGRADED. -/
def LinkState.usable (l : LinkState) : Bool := l == .up || l == .degraded

/-- The port is usable. -/
def State.usable (s : State) (p : Port) : Bool := (s.port p).link.usable

/-- The port is in service (R1): JOINING or RUNNING, and no X-port while CONFLICT stands. -/
def State.inService (s : State) (p : Port) : Bool :=
  s.acting && !(decide (28 ≤ p.val) && s.line.conflict)

/-- The port is in service and usable. -/
def State.portReady (s : State) (p : Port) : Bool := s.inService p && s.usable p

/-- The U-ports in port order. -/
def allU : List (Fin 4) := [0, 1, 2, 3]

/-- The S-ports in port order. -/
def allS : List (Fin 24) := List.finRange 24

/-- The usable U-port count (R126). -/
def State.uCount (s : State) : Nat := (allU.filter fun u => s.usable (uPort u)).length

/-- The bond-up set (R126): bond b is bit b. -/
def State.bondUp (s : State) : BitVec 64 :=
  allS.foldl (fun acc p =>
    match (s.port (sPort p)).bond with
    | some b => if s.portReady (sPort p) then acc ||| BitVec.ofNat 64 (2 ^ b) else acc
    | none => acc) 0

/-- The reach map of the station (R126). -/
def State.reachMap (s : State) : List ReachEntry :=
  allX.map fun x =>
    let u := s.port (xPort x)
    { link := u.link, looped := u.looped, far := u.far }

/-- What a LINK notice reports (R126). -/
def State.linkContent (s : State) : List ReachEntry × Nat × BitVec 64 × Bool :=
  (s.reachMap, s.uCount, s.bondUp, s.peers.isolated)

/-! ## Ways to a peer (R40, R41) -/

/-- The first X-port in link state `l` whose far station is `st`. -/
def State.xTo (s : State) (l : LinkState) (st : Station) : Option XIndex :=
  allX.find? fun x => (s.port (xPort x)).link == l && (s.port (xPort x)).far == some st

/-- The direct X-port of a peer (R40). -/
def State.directX (s : State) (st : Station) : Option XIndex :=
  if s.line.conflict then none else (s.xTo .up st).orElse fun _ => s.xTo .degraded st

/-- The place of the peer table that a station holds. -/
def State.slotOf (s : State) (st : Station) : Option SlotNo :=
  allSlots.find? fun n => (s.slot n).any fun p => p.station == st

/-- The slot of a station. -/
def State.peer (s : State) (st : Station) : Option PeerSlot := (s.slotOf st).bind s.slot

/-- A slot that takes notices: JOINING, ACTIVE or SEVERED (R27). -/
def SlotState.live (x : SlotState) : Bool := x != .lost

/-- The stations 0 to 14 in ascending order. -/
def allStations : List Station := (List.range 15).map (BitVec.ofNat 4)

/-- The ACTIVE slot of a station. -/
def State.activePeer (s : State) (st : Station) : Option PeerSlot :=
  (s.peer st).filter fun p => p.state == .active

/-- The reach map lists `p` as the far station of a usable X-port (R41). -/
def reaches (m : Option (List ReachEntry)) (p : Station) : Bool :=
  (m.getD []).any fun e => e.far == some p && e.link.usable

/-- The relay that R41 gives a SEVERED slot of station `p`. -/
def State.relayFor (s : State) (p : Station) : Option Station :=
  allStations.find? fun q => (s.activePeer q).any fun x => reaches x.reachMap p

/-- The relay choice of a slot by R41. -/
def State.relayOf (s : State) (x : PeerSlot) : Option Station :=
  if x.state = .severed then s.relayFor x.station else none

/-! ## Holders (R43, R35, R28) -/

/-- The refresh periods since a holder was joined, modulo 65,536 (R30). -/
def holderAge (now : BitVec 16) (h : Holder) : Nat := (now - h.period).toNat

/-- A holder record is usable at a decision (R43). -/
def State.holderUsable (s : State) (h : Holder) : Bool :=
  (s.peer h.station).any fun p =>
    p.gen == h.gen && (p.state == .active || (p.state == .severed && p.relay.isSome))

/-- A holder is dead: its station has no slot, or its generation is not the slot's (R28 case 3, R35). -/
def State.holderDead (s : State) (h : Holder) : Bool :=
  !((s.peer h.station).any fun p => p.gen == h.gen)

/-- A holder record is removed at an aging visit (R35). -/
def State.holderExpired (s : State) (h : Holder) : Bool :=
  s.holderDead h || decide (3 ≤ holderAge s.fwd.period h)

/-! ## Load view (R85, R87) -/

/-- Freshness of a slot's announced uplink index (R85): fresh while its expiry stands and the station time has not reached
it. -/
def State.freshness (s : State) (x : PeerSlot) : Freshness :=
  match x.uplink with
  | none => .absent
  | some _ => if x.freshExpiry.any fun t => !reached s.time.now t then .fresh else .stale

/-- The announced uplink index as chapter 5 reads it (R85). -/
def State.readUplink (s : State) (x : PeerSlot) : Nat :=
  match x.uplink with
  | none => 32767
  | some (v, _) => if s.loader.phase != .joining && s.freshness x == .fresh then v else 32767

/-- The load index of an X-port. -/
def State.xLoad (s : State) (x : XIndex) : Nat := s.load.idx[4 + x.val]

/-- The gap of a peer (R87). -/
def State.gap (s : State) (x : PeerSlot) : Int :=
  (s.load.uplink : Int) - (s.readUplink x : Int) - (s.params.margin : Int)

/-- A peer is eligible for diversion (R87). -/
def State.eligible (s : State) (x : PeerSlot) : Bool :=
  x.state == .active
    && (s.directX x.station).any (fun d => decide (s.xLoad d < s.params.xl))
    && s.freshness x == .fresh && decide (0 < s.gap x) && !x.isolated

/-- A peer is a candidate of the isolation rule (R91). -/
def State.isoCandidate (s : State) (x : PeerSlot) : Bool :=
  x.state == .active && !x.isolated && (s.directX x.station).isSome && decide (s.readUplink x < 32767)

/-! ## Restraint (R105) -/

/-- The settings of a tenant (R97). -/
def State.setting (s : State) (t : Tenant) : RestraintSetting := mapGet {} s.restraint.settings t.toNat

/-- The window of a start slot is open (R105). -/
def State.windowOpen (s : State) (start : Nat) : Bool :=
  decide ((s.restraint.slot + 64 - start % 64) % 64 < s.params.window)

/-- The start slot of a listed tenant. -/
def State.listedStart (s : State) (t : Tenant) : Option Nat :=
  (s.restraint.list.find? fun i => i.1 == t).map Prod.snd

/-- The restraint outcome of a frame's tenant (R105); none is ADMIT. -/
def State.restraintOutcome (s : State) (t : Tenant) : Option DropReason :=
  if s.restraint.denied.contains t then some .denied
  else match s.listedStart t with
    | some start => if s.windowOpen start then none else some .restrained
    | none => none

/-! ## Occupancies (R59, R62, R72) -/

/-- The cells of a copy of egress length `n` (R59). -/
def cellsFor (n : Nat) : Nat := (n + (Config.cellOctets - 1)) / Config.cellOctets

/-- The four classes. -/
def allCls : List Cls := [0, 1, 2, 3]

/-- Port occupancy: the sum of the port's four queues (R62). -/
def PortQueues.occupancy (q : PortQueues) : Nat := (allCls.map fun c => q.classes[c].occ).sum

/-- The sum of port occupancies (R72). -/
def State.cellsHeld (s : State) : Nat := (allPorts.map fun p => s.buffer.ports[p].occupancy).sum

/-- The occupancy of a tenant. -/
def State.tenantCells (s : State) (t : Tenant) : Nat := mapGet 0 s.buffer.tenantOcc t.toNat

/-- The tenant that a copy counts against; a port hello counts against tenant 0 (R66). -/
def Copy.tenant (c : Copy) : Tenant :=
  match c.desc with
  | some d => d.tenant
  | none => 0

/-! ## Channels and the meter (R170, R163, section 9.4) -/

/-- A channel is settling (R170). -/
def Channel.settling (c : Channel) : Bool :=
  c.state != .running && (c.outstanding.isSome || c.pendingEnd.isSome)

/-- The channel protects interval `n` from discard (R164). -/
def Channel.reads (c : Channel) (n : Count) : Bool := c.state != .idle && c.source == n

/-- The pending interval with number `n`. -/
def State.interval (s : State) (n : Count) : Option Interval := s.meter.queue.find? fun i => i.number == n

/-- The record list that a channel examines. -/
def State.sourceRecords (s : State) (c : Channel) : List Record :=
  match s.interval c.source with
  | some i => i.records
  | none => []

/-- A deferral stands (section 9.4). -/
def Meter.deferral (m : Meter) : Bool := decide (1 < m.span)

/-- The answer queue length: the waiting answers and the one on the line (R138). -/
def State.answerLength (s : State) : Nat :=
  s.line.answers.length + (if (s.line.onLine.map fun m => m.body.cls) == some 4 then 1 else 0)

/-- A message of class `c` is on the line. -/
def GroupLine.sending (l : GroupLine) (c : Nat) : Bool := (l.onLine.map fun m => m.body.cls) == some c

end Sys2Proof.Machine
end

