-- ==== Sys2Proof/Machine/Table.lean ====
section
/-! DEFINITION. The forwarding table (chapter 2): the reach queue and its notices, learning, REACH items, fixed entries,
the sweep and the aging walk. -/

namespace Sys2Proof.Machine

/-! ## Buckets (R16) -/

/-- The bucket of a key (R16). -/
def bucketOf (t : Tenant) (a : Addr) : Nat := crc16 (t :: beOctets 6 a.toNat) % 4096

/-- The entry indices of a bucket in slot order. -/
def bucketSlots (b : Nat) : List Nat := [4 * b, 4 * b + 1, 4 * b + 2, 4 * b + 3]

/-- The entry is that of a key. -/
def FwdEntry.isFor (e : FwdEntry) (t : Tenant) (a : Addr) : Bool := e.tenant == t && e.addr == a

/-- The entry index that holds a key. -/
def keyIndex (table : List (Nat × FwdEntry)) (t : Tenant) (a : Addr) : Option Nat :=
  (bucketSlots (bucketOf t a)).find? fun i => (mapFind table i).any fun e => e.isFor t a

/-- The lowest-numbered free slot of a bucket. -/
def freeSlot (table : List (Nat × FwdEntry)) (b : Nat) : Option Nat :=
  (bucketSlots b).find? fun i => (mapFind table i).isNone

/-- Writes an entry at an index. -/
def putEntry (i : Nat) (e : FwdEntry) (s : State) : State :=
  { s with fwd := { s.fwd with table := mapInsert s.fwd.table i e } }

/-- Removes the entry at an index. -/
def dropEntry (i : Nat) (s : State) : State :=
  { s with fwd := { s.fwd with table := mapErase s.fwd.table i } }

/-! ## The reach queue (R24, R25, R26, R137) -/

/-- The item is that of a key. -/
def ReachItem.isFor (i : ReachItem) (t : Tenant) (a : Addr) : Bool := i.tenant == t && i.addr == a

/-- Queues an operation for a key (R24); a drop with no sweep running starts one at once (R32). -/
def enqueueReach (op : ReachOp) (t : Tenant) (a : Addr) (s : State) : State :=
  if s.fwd.queue.any (fun i => i.isFor t a) then
    { s with fwd := { s.fwd with
        queue := s.fwd.queue.map fun i => if i.isFor t a then { i with op := op } else i } }
  else if s.fwd.queue.length < Config.reachLimit then
    { s with fwd := { s.fwd with queue := s.fwd.queue ++ [⟨t, a, op⟩] } }
  else if s.fwd.sweep.isNone then { s with fwd := { s.fwd with sweep := some 0, resweep := false } }
  else { s with fwd := { s.fwd with resweep := true } }

/-- The announced flag after an item has been taken into a notice (R26). DESIGN CHOICE (log entry 52): the entry is not tested
here, and one whose check is bad keeps it so until the next read that R36 names. -/
def announceItem (i : ReachItem) (table : List (Nat × FwdEntry)) : List (Nat × FwdEntry) :=
  match keyIndex table i.tenant i.addr with
  | none => table
  | some n => mapModify table n fun e =>
    match i.op with
    | .join => if e.localPort.isSome then { e with announced := true } else e
    | .leave => { e with announced := false }

/-- The announced flags after items have been taken in order. -/
def announceItems : List ReachItem → List (Nat × FwdEntry) → List (Nat × FwdEntry)
  | [], table => table
  | i :: is, table => announceItems is (announceItem i table)

/-- Composes a REACH into slot 5 when the slot is empty, items wait and the station may notify (R26, R137). -/
def composeReach (s : State) : State :=
  if s.mayNotify && s.line.wReach.isNone && !s.line.sending 5 && !s.fwd.queue.isEmpty then
    let items := s.fwd.queue.take Config.reachItems
    { s with
      fwd := { s.fwd with
        queue := s.fwd.queue.drop Config.reachItems, table := announceItems items s.fwd.table }
      line := { s.line with wReach := some { dst := 15, body := .reach s.params.serial items } } }
  else s

/-- Queues an operation; a REACH is composed as soon as an item stands before an empty slot 5 (R137). -/
def queueReach (op : ReachOp) (t : Tenant) (a : Addr) (s : State) : State :=
  composeReach (enqueueReach op t a s)

/-- Withdraws a key whose entry lost its local port; `announced` is the entry's flag (R25). -/
def withdrawKey (t : Tenant) (a : Addr) (announced : Bool) (s : State) : State :=
  if s.fwd.queue.any (fun i => i.isFor t a) || announced then queueReach .leave t a s else s

/-! ## Integrity faults on entries (R36) -/

/-- An entry failed its check on a read (R36). -/
def entryFault (i : Nat) (e : FwdEntry) (s : State) : Out :=
  let s1 := dropEntry i s
  let s2 := if e.localPort.isSome then queueReach .leave e.tenant e.addr s1 else s1
  match e.origin with
  | .learned => integrityFault s2
  | .fixed n => configFault ⟨.fixed, n⟩ s2

/-- Reads the slot at an index: a faulty entry is dealt with. -/
def testSlot (i : Nat) (s : State) : Out :=
  match mapFind s.fwd.table i with
  | some e => if e.checkGood then .of s else entryFault i e s
  | none => .of s

/-- Reads the occupied slots of a bucket; faulty entries are dealt with (R36). DESIGN CHOICE (log entry 49): a lookup, a learn,
a REACH item and a reinsertion deal with several of them in slot order, as R33 has it for the walk. -/
def testBucket (b : Nat) (s : State) : Out := eachOut testSlot (bucketSlots b) s

/-- Some entry of the bucket fails its check. -/
def bucketFaulty (b : Nat) (s : State) : Bool :=
  (bucketSlots b).any fun i => (mapFind s.fwd.table i).any fun e => !e.checkGood

/-- The key's FIXED entry awaits its refetch, or its refetch has failed three times (R23, R193). -/
def State.awaitsRefetch (s : State) (t : Tenant) (a : Addr) : Bool :=
  s.fixed.any fun x => x.2.tenant == t && x.2.addr == a && x.2.integ != .good

/-- A lookup (R18): a hit returns the entry. Any faulty entry of the bucket makes it a miss, and so does a FIXED entry of the key
that awaits its refetch or has failed, whatever a learn or a JOIN has made for the key (R23). -/
def lookup (t : Tenant) (a : Addr) (s : State) : Option FwdEntry × Out :=
  let b := bucketOf t a
  if bucketFaulty b s then (none, testBucket b s)
  else if s.awaitsRefetch t a then (none, .of s)
  else ((keyIndex s.fwd.table t a).bind (mapFind s.fwd.table), .of s)

/-! ## Learning (R20, R21) -/

/-- The age in refresh periods of an entry's newest holder (R21). -/
def newestAge (now : BitVec 16) (hs : List Holder) : Nat :=
  hs.foldl (fun m h => min m (holderAge now h)) 65535

/-- A holder-only LEARNED entry. -/
def FwdEntry.holderOnly (e : FwdEntry) : Bool := e.origin == .learned && e.localPort.isNone

/-- The better victim of two candidates: the one with the greater measure, the earlier between equals. -/
def olderOf : Option (Nat × Nat) → Nat × Nat → Option (Nat × Nat)
  | none, c => some c
  | some b, c => if b.2 < c.2 then some c else some b

/-- The victim that R21 chooses in a bucket. -/
def victimSlot (b : Nat) (s : State) : Option Nat :=
  (((bucketSlots b).filterMap fun i =>
      (mapFind s.fwd.table i).bind fun e =>
        if e.holderOnly then some (i, newestAge s.fwd.period e.holders) else none).foldl
    olderOf none).map Prod.fst

/-- The entry that a learn or JOIN inserts (Table 2-2, R28 case 4). -/
def freshEntry (t : Tenant) (a : Addr) (lp : Option (Fin 24)) (hs : List Holder) : FwdEntry :=
  { tenant := t, addr := a, origin := .learned, localPort := lp, age := 0, announced := false, holders := hs }

/-- A learn of a key on S-port `p`, on a bucket already tested (Table 2-2, R21). -/
def learnKey (p : Fin 24) (t : Tenant) (a : Addr) (s : State) : State :=
  match keyIndex s.fwd.table t a with
  | some i =>
    match mapFind s.fwd.table i with
    | none => s
    | some e =>
      if e.origin = .learned then
        let s1 := putEntry i { e with localPort := some p, age := 0 } s
        if e.localPort.isSome then s1 else queueReach .join t a s1
      else s
  | none =>
    match (freeSlot s.fwd.table (bucketOf t a)).orElse fun _ => victimSlot (bucketOf t a) s with
    | some i => queueReach .join t a (putEntry i (freshEntry t a (some p) []) s)
    | none => { s with fwd := { s.fwd with learnRefused := satInc s.fwd.learnRefused } }

/-- A learn (R19, R20): the bucket's faults are dealt with first. -/
def learn (p : Fin 24) (t : Tenant) (a : Addr) (s : State) : Out :=
  (testBucket (bucketOf t a) s).also (learnKey p t a)

/-! ## REACH items from peers (R28, R29) -/

/-- Inserts a holder record in station order. -/
def insertHolder (h : Holder) : List Holder → List Holder
  | [] => [h]
  | x :: xs => if h.station.toNat < x.station.toNat then h :: x :: xs else x :: insertHolder h xs

/-- The dead holder with the oldest refresh period number, ties to the lowest station number (R28 case 3). -/
def oldestDead (s : State) (hs : List Holder) : Option Holder :=
  (hs.filter s.holderDead).foldl
    (fun m h => match m with
      | none => some h
      | some x => if holderAge s.fwd.period x < holderAge s.fwd.period h then some h else some x) none

/-- The holder list after a JOIN of the sender (R28 cases 1 to 3). -/
def joinHolders (s : State) (h : Holder) (hs : List Holder) : List Holder :=
  if hs.any (fun x => x.station == h.station) then
    hs.map fun x => if x.station == h.station then h else x
  else if hs.length < 5 then insertHolder h hs
  else match oldestDead s hs with
    | some d => insertHolder h (hs.filter fun x => x != d)
    | none => hs

/-- A JOIN item on a bucket already tested (R28). -/
def joinKey (h : Holder) (t : Tenant) (a : Addr) (s : State) : State :=
  match keyIndex s.fwd.table t a with
  | some i =>
    { s with fwd := { s.fwd with
        table := mapModify s.fwd.table i fun e => { e with holders := joinHolders s h e.holders } } }
  | none =>
    match freeSlot s.fwd.table (bucketOf t a) with
    | some i => putEntry i (freshEntry t a none [h]) s
    | none => { s with fwd := { s.fwd with reachRefused := satInc s.fwd.reachRefused } }

/-- A LEARNED entry without local port and holders is removed (R17). -/
def removeEmpty (i : Nat) (s : State) : State :=
  match mapFind s.fwd.table i with
  | some e => if e.origin = .learned ∧ e.localPort = none ∧ e.holders = [] then dropEntry i s else s
  | none => s

/-- A LEAVE item on a bucket already tested (R29). -/
def leaveKey (sender : Station) (t : Tenant) (a : Addr) (s : State) : State :=
  match keyIndex s.fwd.table t a with
  | some i =>
    match mapFind s.fwd.table i with
    | some e =>
      if e.holders.any (fun h => h.station == sender) then
        removeEmpty i (putEntry i { e with holders := e.holders.filter fun h => h.station != sender } s)
      else s
    | none => s
  | none => s

/-- One item of a taken REACH notice (R27), against the sender's slot as it stands. -/
def applyItem (sender : Station) (it : ReachItem) (s : State) : Out :=
  (testBucket (bucketOf it.tenant it.addr) s).also fun s1 =>
    match it.op with
    | .join =>
      match s1.peer sender with
      | some p => joinKey ⟨sender, p.gen, s1.fwd.period⟩ it.tenant it.addr s1
      | none => s1
    | .leave => leaveKey sender it.tenant it.addr s1

/-- A REACH notice (R27). -/
def takeReach (sender : Station) (r : ReachRx) (s : State) : Out :=
  if (s.peer sender).any fun p => p.state.live && p.serial == r.serial then
    eachOut (applyItem sender) r.items s
  else .of { s with fwd := { s.fwd with reachIgnored := satInc s.fwd.reachIgnored } }

/-! ## Fixed entries (R22, R23) -/

/-- The slot that a reinsertion takes in a full bucket when R21 gives no victim: the LEARNED entry with the greatest
local age, ties to the lowest slot number (R23). -/
def oldestLocal (b : Nat) (s : State) : Option Nat :=
  (((bucketSlots b).filterMap fun i =>
      (mapFind s.fwd.table i).bind fun e => if e.origin = .learned then some (i, e.age) else none).foldl
    olderOf none).map Prod.fst

/-- The FIXED entry of image entry `n`, with the check that the image gives it (R188). -/
def fixedEntry (n : Nat) (f : FixedCfg) : FwdEntry :=
  { freshEntry f.tenant f.addr f.localPort [] with origin := .fixed n, entry := f.entry }

/-- Queues a JOIN when the image gives the fixed entry a local port. -/
def announceFixed (f : FixedCfg) (s : State) : State :=
  if f.localPort.isSome then queueReach .join f.tenant f.addr s else s

/-- Puts a fixed entry into slot `i`, displacing a LEARNED entry whose local port is withdrawn (R23, R25). DESIGN CHOICE
(log entry 46): the LEAVE of the displaced key is queued before the JOIN of the restored one. -/
def displaceFixed (n : Nat) (f : FixedCfg) (i : Nat) (s : State) : State :=
  match mapFind s.fwd.table i with
  | some e =>
    let s1 := putEntry i (fixedEntry n f) s
    announceFixed f (if e.localPort.isSome then withdrawKey e.tenant e.addr e.announced s1 else s1)
  | none => s

/-- A restored FIXED entry returns to its bucket, already tested (R23). DESIGN CHOICE (log entry 51): where the entry of its
key belongs to another FIXED entry, since the flash has changed after the load, the restored one takes that entry over as it
would one that a learn or a JOIN has made. -/
def reinsertFixed (n : Nat) (f : FixedCfg) (s : State) : State :=
  let b := bucketOf f.tenant f.addr
  match keyIndex s.fwd.table f.tenant f.addr with
  | some i =>
    match mapFind s.fwd.table i with
    | some e =>
      let s1 := putEntry i { e with origin := .fixed n, localPort := f.localPort, age := 0, entry := f.entry } s
      if f.localPort.isSome then announceFixed f s1
      else if e.localPort.isSome then withdrawKey f.tenant f.addr e.announced s1 else s1
    | none => s
  | none =>
    match freeSlot s.fwd.table b with
    | some i => announceFixed f (putEntry i (fixedEntry n f) s)
    | none =>
      match (victimSlot b s).orElse fun _ => oldestLocal b s with
      | some i => displaceFixed n f i s
      | none => s

/-! ## The refresh sweep (R30 to R32) -/

/-- The sweep passes its position (R31); past index 16,383 it ends, and a new one starts when one is due or the
resweep flag is set (R32). -/
def advanceSweep (i : Nat) (s : State) : State :=
  if i + 1 < 16384 then { s with fwd := { s.fwd with sweep := some (i + 1) } }
  else if s.fwd.sweepDue || s.fwd.resweep then
    { s with fwd := { s.fwd with sweep := some 0, sweepDue := false, resweep := false } }
  else { s with fwd := { s.fwd with sweep := none } }

/-- A visit of the sweep to entry index `i`, already tested: a JOIN for an entry with a usable local port (R31). -/
def announceEntry (i : Nat) (s : State) : State :=
  match mapFind s.fwd.table i with
  | some e =>
    match e.localPort with
    | some p => if s.usable (sPort p) then queueReach .join e.tenant e.addr s else s
    | none => s
  | none => s

/-- SWEEP_VISIT: the sweep, running and not paused, visits its next entry place (R31). -/
def visitSweep (s : State) : Out :=
  match s.fwd.sweep with
  | some i =>
    if s.fwd.queue.length < Config.sweepPause then
      (testSlot i s).also fun s1 => advanceSweep i (announceEntry i s1)
    else .of s
  | none => .of s

/-- REFRESH_END: the refresh period number increases, and a sweep starts or an overrun is counted (R30, R32). -/
def endRefresh (s : State) : State :=
  let s1 := { s with fwd := { s.fwd with period := s.fwd.period + 1 } }
  match s1.fwd.sweep with
  | none => { s1 with fwd := { s1.fwd with sweep := some 0 } }
  | some _ => { s1 with fwd := { s1.fwd with sweepOverrun := satInc s1.fwd.sweepOverrun, sweepDue := true } }

/-! ## The aging walk (R33 to R35) -/

/-- Local aging of the entry at `i` (R34). -/
def ageLocal (i : Nat) (s : State) : State :=
  match mapFind s.fwd.table i with
  | some e =>
    match e.origin, e.localPort with
    | .learned, some p =>
      let age := min (e.age + 1) 4095
      if s.params.ageLimit ≤ age ∨ s.usable (sPort p) = false then
        withdrawKey e.tenant e.addr e.announced (putEntry i { e with localPort := none, age := 0 } s)
      else putEntry i { e with age := age } s
    | _, _ => s
  | none => s

/-- Holder expiry of the entry at `i` (R35). -/
def expireHolders (i : Nat) (s : State) : State :=
  { s with fwd := { s.fwd with
      table := mapModify s.fwd.table i fun e =>
        { e with holders := e.holders.filter fun h => !s.holderExpired h } } }

/-- The visit of the walk to one slot (R33). -/
def ageSlot (i : Nat) (s : State) : Out :=
  match mapFind s.fwd.table i with
  | some e =>
    if e.checkGood then .of (removeEmpty i (expireHolders i (ageLocal i s))) else entryFault i e s
  | none => .of s

/-- AGING_VISIT: the walk visits its next bucket while a pass is under way (R33). -/
def visitAging (s : State) : Out :=
  if s.fwd.agingOn then
    let b := s.fwd.agingPos
    (eachOut ageSlot (bucketSlots b) s).also fun s1 =>
      if b + 1 < 4096 then { s1 with fwd := { s1.fwd with agingPos := b + 1 } }
      else { s1 with fwd := { s1.fwd with agingPos := 0, agingOn := false } }
  else .of s

end Sys2Proof.Machine
end

