-- ==== Sys2Proof/Machine/Notices.lean ====
section
/-! DEFINITION. The notices that the station composes into its transmit slots: LINK (R126), LOAD (R82, R83) and HELLO
(R145). A composition makes the new message the waiting one of its slot (R135). -/

namespace Sys2Proof.Machine

/-- Composes a LINK notice (R126); passed over in LOADING, FAILSAFE and CONFLICT. -/
def composeLink (s : State) : State :=
  if s.mayNotify then
    { s with line := { s.line with
        wLink := some { dst := 15, body := .link s.params.serial s.reachMap s.uCount s.bondUp s.peers.isolated } } }
  else s

/-- Composes a LOAD notice (R82, R83); passed over in LOADING, FAILSAFE and CONFLICT. -/
def composeLoad (s : State) : State :=
  if s.mayNotify then
    let body : Body :=
      .load s.params.serial s.load.uplink (allX.map s.xLoad) s.load.divPeer s.load.share
        s.restraint.list.length s.peers.isolated
    { s with line := { s.line with wLoad := some { dst := 15, body := body } } }
  else s

/-- Composes a HELLO (R145), with the controller started. -/
def composeHello (s : State) : State :=
  if s.lineStarted then
    { s with line := { s.line with
        wHello := some { dst := 15, body := .hello s.params.serial s.loader.phase s.peers.isolated s.line.conflict } } }
  else s

end Sys2Proof.Machine
end

