-- ==== Sys2Proof/Machine/Load.lean ====
section
/-! DEFINITION. The load unit (chapter 5): port load indices, uplink index, peak states, the diversion peer and share,
and the peers' announced load. -/

namespace Sys2Proof.Machine

/-! ## Indices and peak states (R78, R80, R81) -/

/-- The occupancy fraction on the load scale (R78 step 1). -/
def loadFraction (basis occ : Nat) : Nat := min (occ * 32768 / basis) 32767

/-- The step of a port load index toward an occupancy fraction (R78 steps 2 and 3). -/
def loadStep (k o l : Nat) : Int :=
  let d : Int := (o : Int) - (l : Int)
  let q := d.tdiv (2 ^ k)
  if q = 0 then d.sign else q

/-- The update of one port load index (R78). -/
def nextIndex (k basis occ l : Nat) : Nat := ((l : Int) + loadStep k (loadFraction basis occ) l).toNat

/-- The port of a load index: U0 to U3, X0 to X4. -/
def indexPort (i : Fin 9) : Port := ⟨24 + i.val, by omega⟩

/-- The nine load indices. -/
def allIndices : List (Fin 9) := [0, 1, 2, 3, 4, 5, 6, 7, 8]

/-- Updates one port load index from its port's occupancy (R77). -/
def updateIndex (i : Fin 9) (s : State) : State :=
  let l := nextIndex s.params.loadShift s.params.basis (s.buffer.ports[indexPort i]).occupancy s.load.idx[i]
  { s with load := { s.load with idx := s.load.idx.set i.val l i.isLt } }

/-- The U-ports in a link state. -/
def State.uIn (s : State) (l : LinkState) : List (Fin 4) := allU.filter fun u => (s.port (uPort u)).link == l

/-- The load index of a U-port. -/
def State.uLoad (s : State) (u : Fin 4) : Nat := s.load.idx[u.val]

/-- The floor of the mean of the load indices of some U-ports. -/
def State.meanLoad (s : State) (us : List (Fin 4)) : Nat := (us.map s.uLoad).sum / us.length

/-- The uplink index by R80. -/
def State.uplinkIndex (s : State) : Nat :=
  if s.uIn .up ≠ [] then s.meanLoad (s.uIn .up)
  else if s.uIn .degraded ≠ [] then s.meanLoad (s.uIn .degraded)
  else 32767

/-- Judges the peak state of one U-port (R81). -/
def updatePeak (u : Fin 4) (s : State) : State :=
  { s with load := { s.load with peak := s.load.peak.set u.val (decide (s.params.tp ≤ s.uLoad u)) u.isLt } }

/-- The load indices, the uplink index and the peak states of a SAMPLE. -/
def updateLoads (s : State) : State :=
  let s1 := eachState updateIndex allIndices s
  eachState updatePeak allU { s1 with load := { s1.load with uplink := s1.uplinkIndex } }

/-! ## Diversion (R87 to R94) -/

/-- Sets the diversion peer and share, raising DIVERSION_START or DIVERSION_END at a change from or to 0 (R94). -/
def setDiversion (peer : Option Station) (share : Nat) (s : State) : Out :=
  let s1 := { s with load := { s.load with divPeer := peer, share := share } }
  if s.load.share = 0 ∧ 0 < share then raise .diversionStart none s1
  else if 0 < s.load.share ∧ share = 0 then raise .diversionEnd none s1
  else .of s1

/-- The better of two eligible peers: the larger gap, the lower station between equals (R88). -/
def betterGap (m : Option (Station × Int)) (c : Station × Int) : Option (Station × Int) :=
  match m with
  | none => some c
  | some x => if x.2 < c.2 then some c else some x

/-- The best peer with its gap (R88). -/
def State.bestPeer (s : State) : Option (Station × Int) :=
  (allStations.filterMap fun st =>
    (s.peer st).bind fun x => if s.eligible x then some (st, s.gap x) else none).foldl betterGap none

/-- The target share of a gap (R88). -/
def State.target (s : State) (gap : Int) : Nat := min (gap / 32).toNat s.params.cap

/-- A share moved toward its target by at most one slew step (R89, third line). -/
def slewShare (slew share target : Nat) : Nat :=
  if share ≤ target then (if target - share ≤ slew then target else share + slew)
  else (if share - target ≤ slew then target else share - slew)

/-- The update of the diversion at a SAMPLE while not ISOLATED (Table 5-3). -/
def updateDiversion (s : State) : Out :=
  match s.bestPeer with
  | none => setDiversion none 0 s
  | some (st, gap) =>
    if s.load.share = 0 then setDiversion (some st) (min (s.target gap) s.params.slew) s
    else if s.load.divPeer = some st then
      setDiversion (some st) (slewShare s.params.slew s.load.share (s.target gap)) s
    else setDiversion (some st) 0 s

/-- The lower of two candidates' announced indices, the lower station between equals (R91). -/
def lowerIndex (m : Option (Station × Nat)) (c : Station × Nat) : Option (Station × Nat) :=
  match m with
  | none => some c
  | some x => if c.2 < x.2 then some c else some x

/-- The peer that the isolation rule chooses (R91). -/
def State.isoPeer (s : State) : Option Station :=
  ((allStations.filterMap fun st =>
    (s.peer st).bind fun x => if s.isoCandidate x then some (st, s.readUplink x) else none).foldl
      lowerIndex none).map Prod.fst

/-- The isolation rule (R91). -/
def isolationRule (s : State) : Out :=
  match s.isoPeer with
  | some st => setDiversion (some st) 1024 s
  | none => setDiversion none 0 s

/-- A SAMPLE at the load unit (R77 to R91). -/
def sampleLoad (s : State) : Out :=
  let s1 := updateLoads s
  if s1.peers.isolated then isolationRule s1 else updateDiversion s1

/-- The diversion peer is ACTIVE and has a direct X-port. -/
def State.diversionStands (s : State) (st : Station) : Bool :=
  (s.activePeer st).isSome && (s.directX st).isSome

/-- A lost diversion peer is dropped at once (R90). -/
def dropLostDiversion (s : State) : Out :=
  match s.load.divPeer with
  | some st => if s.diversionStands st then .of s else setDiversion none 0 s
  | none => .of s

/-- A change of the ISOLATED flag at the load unit (R92). -/
def isolationTurned (on : Bool) (s : State) : Out :=
  if on then isolationRule s else setDiversion none 0 s

/-! ## The peers' announced load (R84, R86) -/

/-- The load view of a slot as R86 clears it. -/
def clearView (x : PeerSlot) : PeerSlot :=
  { x with
    uplink := none, freshExpiry := none, xIdx := [0, 0, 0, 0, 0], dPeer := none, dShare := 0, rCount := 0
    isolated := false }

/-- A LOAD notice (R84); its uplink index is fresh for four load periods (R85). -/
def takeLoad (sender : Station) (r : LoadRx) (s : State) : State :=
  match s.slotOf sender with
  | some n =>
    if (s.slot n).any fun p => p.state.live && p.serial == r.serial then
      modifySlot n (fun p => { p with
        uplink := some (r.uplink, s.time.now), freshExpiry := some (later s.time.now (4 * loadUs s))
        xIdx := r.xIdx, dPeer := r.dPeer, dShare := r.dShare, rCount := r.rCount, isolated := r.isolated }) s
    else { s with load := { s.load with loadIgnored := satInc s.load.loadIgnored } }
  | none => { s with load := { s.load with loadIgnored := satInc s.load.loadIgnored } }

end Sys2Proof.Machine
end

