-- ==== Sys2Proof/Machine/RestraintUnit.lean ====
section
/-! DEFINITION. The restraint unit at a SAMPLE (chapter 6): slot counter, mode, exits and entries. -/

namespace Sys2Proof.Machine

/-- Step (1) of R99: the slot counter advances, modulo 64. -/
def advanceSlot (s : State) : State :=
  { s with restraint := { s.restraint with slot := (s.restraint.slot + 1) % 64 } }

/-- Step (2): the mode (R100). -/
def decideMode (s : State) : Out :=
  if s.restraint.on then
    if s.params.offLevel ≤ s.buffer.free then
      raise .restraintOff none
        { s with restraint := { s.restraint with on := false, list := [], denied := [], nextStart := 0 } }
    else .of s
  else if s.buffer.free < s.params.onLevel then
    raise .restraintOn none { s with restraint := { s.restraint with on := true } }
  else .of s

/-- Step (3): the exits of R101. -/
def restraintExits (s : State) : State :=
  { s with restraint := { s.restraint with
      list := s.restraint.list.filter fun i => decide ((s.setting i.1).quota * 3 / 4 < s.tenantCells i.1)
      denied := s.restraint.denied.filter fun t => decide ((s.setting t).quota < s.tenantCells t) } }

/-- A tenant is a candidate (R102). -/
def State.candidate (s : State) (t : Tenant) : Bool :=
  t != 0 && !(s.setting t).exempt && (s.setting t).quota != 0
    && decide ((s.setting t).quota < s.tenantCells t)
    && !(s.restraint.list.any fun i => i.1 == t) && !s.restraint.denied.contains t

/-- Lists or denies one tenant when it is a candidate (R102, R103). -/
def considerTenant (t : Tenant) (s : State) : Out :=
  if s.candidate t then
    if s.restraint.list.length < Config.restraintLimit then
      .of { s with restraint := { s.restraint with
        list := s.restraint.list ++ [(t, s.restraint.nextStart)]
        nextStart := (s.restraint.nextStart + s.params.window) % 64 } }
    else
      raise .tenantDenied none { s with restraint := { s.restraint with denied := s.restraint.denied ++ [t] } }
  else .of s

/-- The tenants with settings, in ascending index: the others have no quota and are no candidates. -/
def State.settingTenants (s : State) : List Tenant :=
  (s.restraint.settings.map Prod.fst).map (BitVec.ofNat 8)

/-- Step (4): the entries of R102 and R103. -/
def restraintEntries (s : State) : Out := eachOut considerTenant s.settingTenants s

/-- A SAMPLE at the restraint unit (R99). -/
def sampleRestraint (s : State) : Out :=
  (decideMode (advanceSlot s)).andThen fun s1 =>
    if s1.restraint.on then restraintEntries (restraintExits s1) else .of s1

end Sys2Proof.Machine
end

