-- ==== Sys2Proof/Machine/MeterUnit.lean ====
section
/-! DEFINITION. The meter (chapter 9): accumulators, rating, interval boundaries, closes, deferrals and discards. -/

namespace Sys2Proof.Machine

/-! ## Accumulators (R156, R157) -/

/-- The number of the accumulator of a tenant and billing class (R156). -/
def accKey (t : Tenant) (b : Cls) : Nat := t.toNat * 4 + b.val

/-- The live accumulator of a number, as it stands. -/
def State.acc (s : State) (k : Nat) : Accumulator := mapGet {} s.meter.accs k

/-- Writes a live accumulator. -/
def putAcc (k : Nat) (a : Accumulator) (s : State) : State :=
  { s with meter := { s.meter with accs := mapSet {} s.meter.accs k a } }

/-- A read of an accumulator: one that fails its check is cleared, marked SUSPECT and INTEGRITY_FAULT is raised
(R157). -/
def testAcc (k : Nat) (s : State) : Out :=
  if (s.acc k).checkGood then .of s else integrityFault (putAcc k { suspect := true } s)

/-- Changes an accumulator after the read that tests it. -/
def changeAcc (k : Nat) (f : Accumulator → Accumulator) (s : State) : Out :=
  (testAcc k s).also fun s1 => putAcc k (f (s1.acc k)) s1

/-- The drop count increases by 1; at its largest value it stays and SATURATED is set (R67, R156). -/
def Accumulator.drop (a : Accumulator) : Accumulator :=
  let d := satAdd a.drops 1
  { a with drops := d.1, saturated := a.saturated || d.2 }

/-- Frames and octets of an outbound frame (R152). -/
def Accumulator.outbound (len : Nat) (a : Accumulator) : Accumulator :=
  let f := satAdd a.outF 1
  let o := satAdd a.outO len
  { a with outF := f.1, outO := o.1, saturated := a.saturated || f.2 || o.2 }

/-- Frames and octets of an inbound frame (R152). -/
def Accumulator.inbound (len : Nat) (a : Accumulator) : Accumulator :=
  let f := satAdd a.inF 1
  let o := satAdd a.inO len
  { a with inF := f.1, inO := o.1, saturated := a.saturated || f.2 || o.2 }

/-- The number n of R155 step 1. -/
def rateSum (fee rate len residue : Nat) : Nat := fee * 1024 + len * rate + residue

/-- Charge units and residue after a frame (R155). -/
def Accumulator.rate (fee rate len : Nat) (a : Accumulator) : Accumulator :=
  let n := rateSum fee rate len a.residue.toNat
  let c := satAdd a.charge (n / 1024)
  { a with charge := c.1, saturated := a.saturated || c.2
           residue := if a.charge = BitVec.allOnes 48 then a.residue else BitVec.ofNat 10 (n % 1024) }

/-! ## Rating (R151 to R155) -/

/-- The rate columns of a tariff (R153). -/
inductive Column where
  | base | peak | detour | inbound
  deriving DecidableEq, Repr

/-- The rate of a column. -/
def Tariff.rate (t : Tariff) : Column → Nat
  | .base => t.base
  | .peak => t.peak
  | .detour => t.detour
  | .inbound => t.inbound

/-- The rate column of a metered frame whose first admitted copy goes to `egress` with tag `tag` (R153). -/
def State.column (s : State) (d : Descriptor) (egress : Port) (tag : Option GroupTag) : Column :=
  if (asU d.ingress).isSome then .inbound
  else if groupAddr d.dst then .base
  else if (asU egress).any (fun u => s.load.peak[u.val]) then .peak
  else if tag.any (fun g => g.diverted) then .detour
  else .base

/-- The tariff of a number, as it stands. -/
def State.tariff (s : State) (n : Nat) : Tariff := mapGet {} s.tariffs n

/-- A read of a tariff at a rating (R154): the tariff when it is usable and its check is good. -/
def readTariff (n : Nat) (s : State) : Option Tariff × Out :=
  let t := s.tariff n
  if t.integ = .good then
    if t.checkGood then (some t, .of s) else (none, configFault ⟨.tariff, n⟩ s)
  else (none, .of s)

/-- The frames and octets of a metered frame by its direction (R152). -/
def Accumulator.count (d : Descriptor) (a : Accumulator) : Accumulator :=
  if (asU d.ingress).isSome then a.inbound d.length else a.outbound d.length

/-- Meters a frame whose first admitted copy goes to `egress` (R151 to R155). -/
def meterFrame (d : Descriptor) (egress : Port) (tag : Option GroupTag) (s : State) : Out :=
  let k := accKey d.tenant d.bcls
  (testAcc k s).andThen fun s1 =>
    let r := readTariff d.tariffs[d.bcls.val] s1
    r.2.also fun s2 =>
      let a := (s2.acc k).count d
      match r.1 with
      | some t => putAcc k (a.rate t.fee (t.rate (s2.column d egress tag)) d.length) s2
      | none => putAcc k { a with tariffFault := true } s2

/-- A frame is one that the meter counts: classified here and not of tenant 0 (R151, R67). -/
def Descriptor.metered (d : Descriptor) : Bool := d.tag.isNone && d.tenant != 0

/-- The report of a frame none of whose copies was admitted (R67). -/
def reportNone (d : Descriptor) (s : State) : Out :=
  if d.metered then changeAcc (accKey d.tenant d.bcls) Accumulator.drop s else .of s

/-- The report of an admitted frame (R67, R151). -/
def reportAdmitted (d : Descriptor) (egress : Port) (tag : Option GroupTag) (s : State) : Out :=
  if d.metered then meterFrame d egress tag s else .of s

/-- The RESTRAINED flag is set at the restraint unit's request (R106). -/
def flagRestrained (d : Descriptor) (s : State) : Out :=
  if d.metered then changeAcc (accKey d.tenant d.bcls) (fun a => { a with restrained := true }) s else .of s

/-! ## Boundaries (R159 to R162) -/

/-- The record of an accumulator (R161 step 1). -/
def recordOf (k : Nat) (a : Accumulator) : Record where
  tenant := BitVec.ofNat 8 (k / 4)
  bcls := ⟨k % 4, by omega⟩
  outF := a.outF
  outO := a.outO
  inF := a.inF
  inO := a.inO
  charge := a.charge
  drops := a.drops
  suspect := a.suspect
  saturated := a.saturated
  restrained := a.restrained
  tariffFault := a.tariffFault

/-- An accumulator has any count above 0 or any flag set (R161 step 1). -/
def Accumulator.recorded (a : Accumulator) : Bool :=
  a.outF != 0 || a.outO != 0 || a.inF != 0 || a.inO != 0 || a.charge != 0 || a.drops != 0
    || a.suspect || a.saturated || a.restrained || a.tariffFault

/-- The record list of a close. -/
def closeRecords (accs : List (Nat × Accumulator)) : List Record :=
  (accs.filter fun x => x.2.recorded).map fun x => recordOf x.1 x.2

/-- The live accumulators after a close: counts and flags cleared, residues kept (R161 step 2). -/
def clearAccs (accs : List (Nat × Accumulator)) : List (Nat × Accumulator) :=
  (accs.filter fun x => x.2.residue != 0).map fun x => (x.1, { residue := x.2.residue })

/-- The close itself, with all accumulators read (R161). -/
def closeLive (s : State) : Out :=
  let m := s.meter
  let i : Interval :=
    { number := m.number, span := m.span, opened := m.opened, closed := s.time.now, marks := m.marks,
      records := closeRecords m.accs }
  raise .intervalClosed none
    { s with meter := { m with
        queue := m.queue ++ [i], accs := clearAccs m.accs, number := m.number + 1, span := 1, marks := 0,
        opened := s.time.now } }

/-- Closes the live interval: every accumulator is read first (R161, R157). -/
def closeInterval (s : State) : Out :=
  (eachOut testAcc (s.meter.accs.map Prod.fst) s).andThen closeLive

/-- Defers the close (R162). -/
def deferClose (s : State) : Out :=
  raise .closeDeferred none { s with meter := { s.meter with span := s.meter.span + 1 } }

/-- A boundary taken now closes (R161); otherwise it is deferred (R162). -/
def State.closes (s : State) : Bool :=
  decide (s.meter.queue.length < 2) && s.meter.number != BitVec.allOnes 32

/-- A boundary that the meter acts on: in JOINING and RUNNING (R160). -/
def boundary (s : State) : Out :=
  if s.acting then (if s.closes then closeInterval s else deferClose s) else .of s

/-- MARK_INTERVAL adds its code to the live mark set (R159). -/
def markInterval (code : Fin 8) (s : State) : State :=
  { s with meter := { s.meter with marks := s.meter.marks ||| BitVec.ofNat 8 (2 ^ code.val) } }

/-! ## Discards (R164) -/

/-- The channels that protect interval `n` (R164). -/
def State.readers (s : State) (n : Count) : List (Fin 2) :=
  ([0, 1] : List (Fin 2)).filter fun c => s.chans.ctx[c.val].reads n

/-- The outcome of a DISCARD_INTERVAL at the meter, by the first line of R164 that applies; none is accepted. -/
def State.discardRefusal (s : State) (n : Count) : Option Reason :=
  if (s.interval n).isNone then some .noInterval
  else if s.readers n ≠ [] then some .inExport
  else none

/-- Removes interval `n`; a standing deferral is closed at once (R164). -/
def removeInterval (n : Count) (s : State) : Out :=
  let s1 := { s with meter := { s.meter with queue := s.meter.queue.filter fun i => i.number != n } }
  if s1.meter.deferral && s1.meter.number != BitVec.allOnes 32 then closeInterval s1 else .of s1

end Sys2Proof.Machine
end

