-- ==== Sys2Proof/Machine/ExportUnit.lean ====
section
/-! DEFINITION. The export channels (chapter 10): record production, termination, END reports, the way into slots 6 and 7,
withdrawal and the outcomes on the line. -/

namespace Sys2Proof.Machine

/-- The context of a channel. -/
def State.chan (s : State) (c : Fin 2) : Channel := s.chans.ctx[c.val]

/-- Changes the context of a channel. -/
def setChan (c : Fin 2) (f : Channel → Channel) (s : State) : State :=
  { s with chans := { s.chans with ctx := s.chans.ctx.set c.val (f s.chans.ctx[c.val]) c.isLt } }

/-- The two channels. -/
def bothChans : List (Fin 2) := [0, 1]

/-! ## END reports (R173, R139) -/

/-- The report of a channel's END as it stands (R173). -/
def endReportOf (c : Fin 2) (x : Channel) (causes : Causes) : EndReport :=
  { chan := c, interval := x.source, causes := causes, cursor := x.cursor, sent := x.sent, skipF := x.skipF,
    skipU := x.skipU, lost := x.lost, seq := x.seq, dst := x.dst }

/-- Slot 6 takes the END made ready first when it holds none (R139). -/
def fillEnd (s : State) : State :=
  if s.mayNotify && s.line.wEnd.isNone && !s.line.sending 6 then
    match s.chans.readyEnds with
    | [] => s
    | r :: rs =>
      let s1 := { s with
        line := { s.line with wEnd := some { dst := r.dst, body := .endReport r } }
        chans := { s.chans with readyEnds := rs } }
      setChan r.chan (fun x => { x with pendingEnd := x.pendingEnd.map fun e => { e with stage := .inSlot } }) s1
  else s

/-- A prepared END is made ready once its channel has no outstanding message (R173), and enters slot 6 when free. -/
def readyEnd (c : Fin 2) (s : State) : State :=
  let x := s.chan c
  match x.pendingEnd, x.outstanding with
  | some ⟨causes, .prepared⟩, none =>
    let s1 := setChan c (fun y => { y with pendingEnd := some ⟨causes, .ready⟩ }) s
    fillEnd { s1 with chans := { s1.chans with readyEnds := s1.chans.readyEnds ++ [endReportOf c x causes] } }
  | _, _ => s

/-! ## Slot 7 (R179) -/

/-- A channel is eligible for slot 7: its outstanding message is ready and its share allows it (R179). -/
def Channel.slotEligible (x : Channel) : Bool :=
  x.outstanding.any (fun o => !o.inSlot) && decide (x.shareUsed < x.shareLimit)

/-- The channel whose message enters slot 7, by priority and then by turn (R179). -/
def State.nextRecord (s : State) : Option (Fin 2) :=
  let a := s.chans.nextFirst
  let b : Fin 2 := 1 - a
  match (s.chan a).slotEligible, (s.chan b).slotEligible with
  | false, false => none
  | true, false => some a
  | false, true => some b
  | true, true => if (s.chan a).priority < (s.chan b).priority then some b else some a

/-- Slot 7 takes an outstanding message when it holds none (R134, R179). -/
def fillRecord (s : State) : State :=
  if s.mayNotify && s.line.wRecord.isNone && !s.line.sending 7 then
    match s.nextRecord with
    | none => s
    | some c =>
      let x := s.chan c
      match x.outstanding with
      | none => s
      | some o =>
        let s1 := { s with
          line := { s.line with wRecord := some { dst := x.dst, body := .record c x.source o.seq o.records } }
          chans := { s.chans with nextFirst := 1 - c } }
        setChan c (fun y => { y with
          outstanding := some { o with inSlot := true }, shareUsed := y.shareUsed + 1 }) s1
  else s

/-! ## Production and termination (R172, R173) -/

/-- The mark of a channel (Table 10-2). -/
def Channel.markNow (x : Channel) : Mark := ⟨x.cursor, x.sent, x.skipF, x.skipU, x.seq⟩

/-- A channel goes back to its mark (R175). -/
def Channel.toMark (x : Channel) : Channel :=
  { x with
    cursor := x.mark.cursor, sent := x.mark.sent, skipF := x.mark.skipF, skipU := x.mark.skipU, seq := x.mark.seq
    building := [], outstanding := none }

/-- The causes EXHAUSTED, COUNT and SINGLE that hold (R173). -/
def Channel.causesNow (x : Channel) (records : Nat) : Causes :=
  { exhausted := x.cursor == records, count := x.limit != 0 && x.sent == x.limit
    single := x.single && x.sent == 1 }

/-- The message in building is built: it takes the sequence number and becomes outstanding (R172). -/
def Channel.build (x : Channel) : Channel :=
  { x with outstanding := some { seq := x.seq, records := x.building }, seq := x.seq + 1, building := [] }

/-- A run terminates with a cause set (R173). -/
def Channel.terminate (causes : Causes) (x : Channel) : Channel :=
  let y := if x.building = [] then x else x.build
  { y with
    pendingEnd := some ⟨causes, .prepared⟩
    state := if causes.exhausted then .idle else .stopped }

/-- The record takes part in a message (R172 step 4). -/
def Channel.joinRecord (x : Channel) (account : Option (BitVec 32)) (r : Record) : Channel :=
  { x with building := x.building ++ [⟨account, r⟩], cursor := x.cursor + 1, sent := x.sent + 1 }

/-- The account number of a tenant, with the read of its entry (R172 step 3, R9 case 4). -/
def readAccount (t : Tenant) (s : State) : Option (BitVec 32) × Out :=
  match mapFind s.tenants t.toNat with
  | none => (none, .of s)
  | some e =>
    if e.integ = .good then
      if e.checkGood then (e.account, .of s) else (none, configFault ⟨.tenant, t.toNat⟩ s)
    else (none, .of s)

/-- The record's tenant lies in a range. -/
def inRange (low high t : Tenant) : Bool := decide (low.toNat ≤ t.toNat) && decide (t.toNat ≤ high.toNat)

/-- Steps (1) to (4) of R172 on record `r`; the flag says that step (2) applied. `passStop` is the first examination
after a RESUME_EXPORT. -/
def examine (passStop : Bool) (r : Record) (x : Channel) (s : State) : (Channel × Bool) × Out :=
  if !inRange x.filterLow x.filterHigh r.tenant then
    (({ x with skipF := x.skipF + 1, cursor := x.cursor + 1 }, false), .of s)
  else if !passStop && x.stop.any (fun p => inRange p.1 p.2 r.tenant) then ((x, true), .of s)
  else if x.translate then
    let q := readAccount r.tenant s
    match q.1 with
    | some a => ((x.joinRecord (some a) r, false), q.2)
    | none => (({ x with skipU := x.skipU + 1, cursor := x.cursor + 1 }, false), q.2)
  else ((x.joinRecord none r, false), .of s)

/-- Some cause holds. -/
def Causes.any (c : Causes) : Bool := c.exhausted || c.count || c.single || c.matched || c.event || c.halted

/-- Examines the records from the cursor on, until a message is built or the run terminates (R172, R173). `total` is
the source's record count, the list the records not yet examined. -/
def examineAll (total : Nat) : List Record → (passStop : Bool) → Channel → State → Channel × Out
  | [], _, x, s => (x.terminate { x.causesNow total with exhausted := true }, .of s)
  | r :: rs, passStop, x, s =>
    if (x.causesNow total).any then (x.terminate (x.causesNow total), .of s)
    else if x.building.length = 2 then (x.build, .of s)
    else
      let q := examine passStop r x s
      if q.1.2 then (q.1.1.terminate { q.1.1.causesNow total with matched := true }, q.2)
      else
        let n := examineAll total rs false q.1.1 q.2.st
        (n.1, ⟨n.2.st, q.2.evs ++ n.2.evs⟩)

/-- A RUNNING channel without an outstanding message produces records (R172). -/
def produce (passStop : Bool) (c : Fin 2) (s : State) : Out :=
  let x := s.chan c
  if x.state = .running ∧ x.outstanding = none then
    let records := s.sourceRecords x
    let n := examineAll records.length (records.drop x.cursor) passStop { x with mark := x.markNow } s
    n.2.also fun s1 => fillRecord (readyEnd c (setChan c (fun _ => n.1) s1))
  else .of s

/-- A channel whose message has left it goes on: it builds the next in RUNNING, or its END is made ready; then slot 7
takes what is ready (R178). DESIGN CHOICE (log entry 48): the next message is built before slot 7 is filled. -/
def channelFreed (c : Fin 2) (s : State) : Out :=
  (produce false c s).also fun s1 => fillRecord (readyEnd c s1)

/-! ## Withdrawal, holding, halting, EXPORT_EVENT (R136, R174 to R176) -/

/-- A message of channel `c` is on the line in slot 7. -/
def State.recordOnLine (s : State) (c : Fin 2) : Bool :=
  s.line.onLine.any fun m =>
    match m.body with
    | .record c' _ _ _ => c' == c
    | _ => false

/-- The withdrawal of the RECORD on the line is asked for (R136). -/
def askWithdrawal (s : State) : State :=
  { s with line := { s.line with onLine := s.line.onLine.map fun m => { m with withdrawn := true } } }

/-- A channel's unsent records return to the mark (R175): a message on the line is asked back and stays until its
outcome; any other is dropped or removed from slot 7. -/
def returnRecords (c : Fin 2) (s : State) : State :=
  match (s.chan c).outstanding with
  | none => setChan c Channel.toMark s
  | some o =>
    if s.recordOnLine c then askWithdrawal (setChan c (fun x => { x with building := [] }) s)
    else if o.inSlot then setChan c Channel.toMark { s with line := { s.line with wRecord := none } }
    else setChan c Channel.toMark s

/-- A RUNNING channel becomes HELD (R175); slot 7 may then take the other channel's message. -/
def holdChannel (c : Fin 2) (s : State) : State :=
  fillRecord (returnRecords c (setChan c (fun x => { x with state := .held }) s))

/-- A channel in RUNNING, HELD or STOPPED is halted (R176). -/
def haltChannel (c : Fin 2) (s : State) : State :=
  let s1 := if (s.chan c).state = .running then returnRecords c s else s
  let s2 := setChan c (fun x => { x with
    state := .idle, pendingEnd := some ⟨{ halted := true }, .prepared⟩ }) s1
  fillRecord (readyEnd c s2)

/-- EXPORT_EVENT (R174). -/
def exportEvent (c : Fin 2) (s : State) : State :=
  let x := s.chan c
  if x.state = .running ∧ x.event then
    let causes := { x.causesNow (s.sourceRecords x).length with event := true }
    fillRecord (readyEnd c (setChan c (Channel.terminate causes) s))
  else s

/-! ## Outcomes on the line (R178) -/

/-- A RECORD of channel `c` completed. -/
def recordSent (c : Fin 2) (s : State) : Out :=
  channelFreed c (setChan c (fun x => { x with outstanding := none }) s)

/-- A RECORD of channel `c` was discarded after its retries: its records are lost. -/
def recordLost (c : Fin 2) (n : Nat) (s : State) : Out :=
  channelFreed c (setChan c (fun x => { x with outstanding := none, lost := x.lost + n }) s)

/-- A RECORD of channel `c` was withdrawn. -/
def recordWithdrawn (c : Fin 2) (s : State) : Out :=
  channelFreed c (setChan c Channel.toMark s)

/-- An END of channel `c` left the channel, completed or discarded; slot 6 takes the next. -/
def endGone (c : Fin 2) (s : State) : State :=
  fillEnd (setChan c (fun x => { x with pendingEnd := none }) s)

/-- A channel at the entry to CONFLICT, after slots 6 and 7 have been cleared (R178): a RUNNING one is HELD with its
records returned; a message cut off or removed from slot 7 goes back to its mark; a pending END is gone. -/
def conflictChannel (c : Fin 2) (s : State) : State :=
  setChan c (fun x =>
    let y := if x.state = .running then { x.toMark with state := .held }
      else if x.outstanding.any (fun o => o.inSlot) then x.toMark else x
    { y with pendingEnd := none }) s

end Sys2Proof.Machine
end

