-- ==== Sys2Proof/Machine/BufferUnit.lean ====
section
/-! DEFINITION. The buffer manager (chapter 4): admission, transmission, flushes and port hellos. -/

namespace Sys2Proof.Machine

/-! ## Cells and queues (R59, R62) -/

/-- Changes the queues of one port. -/
def setQueues (p : Port) (f : PortQueues → PortQueues) (s : State) : State :=
  { s with buffer := { s.buffer with ports := s.buffer.ports.set p.val (f s.buffer.ports[p]) p.isLt } }

/-- Changes one class queue of a port. -/
def setClass (c : Cls) (f : ClassQueue → ClassQueue) (q : PortQueues) : PortQueues :=
  { q with classes := q.classes.set c.val (f q.classes[c]) c.isLt }

/-- A copy takes its cells: the pool gives them and its tenant holds them (R64). -/
def holdCells (x : Copy) (s : State) : State :=
  { s with buffer := { s.buffer with
      free := s.buffer.free - x.cells
      tenantOcc := mapSet 0 s.buffer.tenantOcc x.tenant.toNat (s.tenantCells x.tenant + x.cells) } }

/-- A copy gives back its cells (R69, R70). -/
def returnCells (x : Copy) (s : State) : State :=
  { s with buffer := { s.buffer with
      free := s.buffer.free + x.cells
      tenantOcc := mapSet 0 s.buffer.tenantOcc x.tenant.toNat (s.tenantCells x.tenant - x.cells) } }

/-- The copy at the back of its queue. -/
def ClassQueue.push (x : Copy) (q : ClassQueue) : ClassQueue :=
  { copies := q.copies ++ [x], occ := q.occ + x.cells, num := q.num + 1 }

/-- The queue without its front copy. -/
def ClassQueue.pop (q : ClassQueue) : ClassQueue :=
  match q.copies with
  | [] => q
  | x :: xs => { copies := xs, occ := q.occ - x.cells, num := q.num - 1 }

/-! ## Transmit (R68, R69) -/

/-- The highest-numbered class whose queue is not empty (R68). -/
def PortQueues.nextClass (q : PortQueues) : Option Cls :=
  ([3, 2, 1, 0] : List Cls).find? fun c => !q.classes[c].copies.isEmpty

/-- A port that may send and has no copy in transmission chooses its next copy (R68). -/
def startTransmission (p : Port) (s : State) : State :=
  if s.portReady p then
    setQueues p (fun q => if q.sending.isNone then { q with sending := q.nextClass } else q) s
  else s

/-- The port's queues and counts after the end of the transmission of `x`, the front copy of class `c` (R69). -/
def PortQueues.sent (c : Cls) (x : Copy) (q : PortQueues) : PortQueues :=
  { setClass c ClassQueue.pop q with
    sending := none, txCopies := q.txCopies + 1, txOctets := q.txOctets + BitVec.ofNat 48 x.length }

/-- TRANSMISSION_END at a port (R69); no effect at a port that sends nothing. -/
def endTransmission (p : Port) (s : State) : State :=
  match (s.buffer.ports[p]).sending with
  | none => s
  | some c =>
    match ((s.buffer.ports[p]).classes[c]).copies with
    | [] => s
    | x :: _ => startTransmission p (returnCells x (setQueues p (PortQueues.sent c x) s))

/-! ## Admission (R64) -/

/-- The test of a copy of `n` cells for class `c` of port `p` (R64); none admits it. -/
def State.admission (s : State) (p : Port) (c : Cls) (n : Nat) : Option DropReason :=
  if !s.portReady p then some .flushed
  else if s.params.classLimit < (s.buffer.ports[p]).classes[c].occ + n then some .queueFull
  else if s.buffer.free < n then some .poolEmpty
  else none

/-- The changes that an admission makes (R64). -/
def enqueueCopy (p : Port) (c : Cls) (x : Copy) (s : State) : State :=
  startTransmission p (holdCells x (setQueues p (setClass c (ClassQueue.push x)) s))

/-- A copy that the path selector names: its egress port and, on an X-port, its tag (R38). -/
structure CopyPlan where
  port : Port
  tag : Option GroupTag
  deriving DecidableEq, Repr

/-- The egress length of a copy (R59). -/
def egressLength (p : Port) (len : Nat) : Nat := if 28 ≤ p.val then len + 8 else len

/-- The copy of a frame for a plan. -/
def copyOf (d : Descriptor) (octets : List Byte) (c : CopyPlan) : Copy :=
  let n := egressLength c.port d.length
  { desc := some d, tag := c.tag, cells := cellsFor n, length := n, octets := octets }

/-- Tests and admits the copies of a frame in list order (R63 step 2); the first admitted one is returned (R67). -/
def admitCopies (d : Descriptor) (octets : List Byte) : List CopyPlan → State → Option CopyPlan × State
  | [], s => (none, s)
  | c :: cs, s =>
    let x := copyOf d octets c
    match s.admission c.port d.tcls x.cells with
    | some r => admitCopies d octets cs (countDrop c.port r s)
    | none =>
      let n := admitCopies d octets cs (enqueueCopy c.port d.tcls x s)
      (some c, n.2)

/-! ## Flushes (R70) -/

/-- One removed copy: its cells return and it is counted FLUSHED. -/
def flushCopy (p : Port) (x : Copy) (s : State) : State := countDrop p .flushed (returnCells x s)

/-- The copies of a port, class by class. -/
def PortQueues.allCopies (q : PortQueues) : List Copy := allCls.flatMap fun c => q.classes[c].copies

/-- Flushes a port's four queues, the copy in transmission included (R70). -/
def flushPort (p : Port) (s : State) : State :=
  setQueues p (fun q => { q with classes := Vector.replicate 4 {}, sending := none })
    (eachState (flushCopy p) (s.buffer.ports[p]).allCopies s)

/-! ## Port hellos (R66, R117) -/

/-- The port hello that the station sends (R117, Formats). -/
def State.portHello (s : State) : Copy :=
  { desc := none, tag := none, cells := 1, length := 72
    octets := portHelloOctets s.loader.station s.params.serial }

/-- A port hello waits in the queue of an X-port, not yet in transmission (R66 case 4). -/
def PortQueues.helloWaits (q : PortQueues) : Bool :=
  (if q.sending = some 3 then q.classes[(3 : Cls)].copies.drop 1 else q.classes[(3 : Cls)].copies).any
    fun x => x.desc.isNone

/-- Makes the port hello of an X-port for this hello period (R66). -/
def makePortHello (x : XIndex) (s : State) : State :=
  if !s.portReady (xPort x) then s
  else if (s.buffer.ports[xPort x]).helloWaits then s
  else if s.buffer.free < 1 then countDrop (xPort x) .poolEmpty s
  else enqueueCopy (xPort x) 3 s.portHello s

end Sys2Proof.Machine
end

