-- ==== Sys2Proof/Machine/PathUnit.lean ====
section
/-! DEFINITION. The path selector (chapter 3): the decision of each frame and the tags of its copies. -/

namespace Sys2Proof.Machine

/-- The answer of the path selector: a drop, or the copies in their fixed order (R38). -/
inductive Decision where
  | drop (r : DropReason)
  | copies (l : List CopyPlan)
  deriving DecidableEq, Repr

/-- The item at index `n` modulo the number of items; none of an empty list. -/
def pick {α : Type} (l : List α) (n : Nat) : Option α := l[n % l.length]?

/-! ## Tags on egress (R56) -/

/-- A tag without flags that this station writes (Table 3-3). -/
def State.plainTag (s : State) (d : Descriptor) : GroupTag :=
  { flood := false, diverted := false, relay := false, origin := s.loader.station, target := 0, hop := 1
    tenant := d.tenant, bcls := d.bcls, tcls := d.tcls, bucket := d.bucket }

/-- The tag of a flood copy. -/
def State.floodTag (s : State) (d : Descriptor) : GroupTag := { s.plainTag d with flood := true }

/-- The tag of a diverted uplink copy. -/
def State.divertedTag (s : State) (d : Descriptor) : GroupTag := { s.plainTag d with diverted := true }

/-- The tag of a copy to a SEVERED holder `p` through its relay. -/
def State.relayTag (s : State) (d : Descriptor) (p : Station) : GroupTag :=
  { s.plainTag d with relay := true, target := p }

/-- The tag of the onward hop of a relayed frame. -/
def onwardTag (d : Descriptor) (g : GroupTag) : GroupTag :=
  { g with hop := 2, tenant := d.tenant, bcls := d.bcls, tcls := d.tcls, bucket := d.bucket }

/-- One copy over the direct X-port of a station, or NO_PATH. -/
def State.overX (s : State) (st : Station) (g : GroupTag) : Decision :=
  match s.directX st with
  | some x => .copies [⟨xPort x, some g⟩]
  | none => .drop .noPath

/-! ## The uplink path (R46) -/

/-- The candidate U-ports of case (2) of R46. -/
def State.uplinks (s : State) : List (Fin 4) := if s.uIn .up ≠ [] then s.uIn .up else s.uIn .degraded

/-- Case (2) of R46: the U-port of a flow bucket. -/
def State.uplinkPort (s : State) (bucket : Nat) : Option Port := (pick s.uplinks bucket).map uPort

/-- One copy to the U-port of the bucket, or NO_PATH. -/
def State.overU (s : State) (bucket : Nat) : Decision :=
  match s.uplinkPort bucket with
  | some p => .copies [⟨p, none⟩]
  | none => .drop .noPath

/-- The uplink path of a frame from an S-port (R46, R47). -/
def State.uplinkPath (s : State) (d : Descriptor) : Decision :=
  if d.bucket < s.load.share then
    match s.load.divPeer with
    | some st => s.overX st (s.divertedTag d)
    | none => .drop .noPath
  else s.overU d.bucket

/-! ## Holders (R43) -/

/-- The usable holders of an entry in ascending station number (R43). -/
def State.usableHolders (s : State) (e : FwdEntry) : List Holder :=
  allStations.filterMap fun st => e.holders.find? fun h => h.station == st && s.holderUsable h

/-- One copy toward a chosen holder (R43). -/
def State.towardHolder (s : State) (d : Descriptor) (h : Holder) : Decision :=
  match s.peer h.station with
  | none => .drop .noPath
  | some x =>
    if x.state = .active then s.overX h.station (s.plainTag d)
    else match x.relay with
      | some q => s.overX q (s.relayTag d h.station)
      | none => .drop .noPath

/-- The decision on a lookup hit for a frame from an S-port or U-port (R44). -/
def State.decideHit (s : State) (d : Descriptor) (e : FwdEntry) : Decision :=
  if (e.localPort.map sPort) = some d.ingress then .drop .samePort
  else match e.localPort.filter fun p => s.usable (sPort p) with
    | some p => .copies [⟨sPort p, none⟩]
    | none =>
      match pick (s.usableHolders e) d.bucket with
      | some h => s.towardHolder d h
      | none => .drop .noPath

/-- The decision of R50: the local port of a hit, or NO_PATH. -/
def State.decideLocal (s : State) (r : Option FwdEntry) : Decision :=
  match (r.bind (·.localPort)).filter fun p => s.usable (sPort p) with
  | some p => .copies [⟨sPort p, none⟩]
  | none => .drop .noPath

/-! ## Floods (R51 to R55) -/

/-- The bond number of an S-port. -/
def State.bondOf (s : State) (p : Fin 24) : Option Nat := (s.port (sPort p)).bond

/-- The usable member S-ports of a frame's tenant, in port order. -/
def State.members (s : State) (d : Descriptor) : List (Fin 24) :=
  allS.filter fun p => d.members.getLsbD p.val && s.usable (sPort p)

/-- The choice of S-ports from usable candidates (R54): each unbonded one, and one of each bond. -/
def State.chooseS (s : State) (bucket : Nat) (cs : List (Fin 24)) : List (Fin 24) :=
  cs.filter fun p =>
    match s.bondOf p with
    | none => true
    | some b => pick (cs.filter fun q => s.bondOf q == some b) bucket == some p

/-- The candidates of a flood from an S-port: the ingress port and the ports of its bond are left out (R51). -/
def State.awayFrom (s : State) (p : Fin 24) (cs : List (Fin 24)) : List (Fin 24) :=
  cs.filter fun q => q != p && !((s.bondOf p).isSome && s.bondOf q == s.bondOf p)

/-- The bond-up set of the origin of a flood as this station holds it (R55). -/
def State.originBonds (s : State) (st : Station) : BitVec 64 :=
  match s.peer st with
  | some x => if x.state.live then x.bondUp else 0
  | none => 0

/-- An ACTIVE peer with a lower number than this station announces bond `b` (R55 condition 2). -/
def State.lowerAnnounces (s : State) (b : Nat) : Bool :=
  allStations.any fun st =>
    decide (st.toNat < s.loader.station.toNat) && (s.activePeer st).any fun x => x.bondUp.getLsbD b

/-- The bond rule (R55): a bonded candidate stays for a flood from `origin`. -/
def State.bondStays (s : State) (origin : Station) (p : Fin 24) : Bool :=
  match s.bondOf p with
  | none => true
  | some b => !(s.originBonds origin).getLsbD b && !s.lowerAnnounces b

/-- The S-port copies of a flood. -/
def sCopies (ps : List (Fin 24)) : List CopyPlan := ps.map fun p => ⟨sPort p, none⟩

/-- The flood copies to the ACTIVE peers, in ascending station number (R51, R52). -/
def State.peerCopies (s : State) (d : Descriptor) : List CopyPlan :=
  allStations.filterMap fun st =>
    (s.activePeer st).bind fun _ => (s.directX st).map fun x => ⟨xPort x, some (s.floodTag d)⟩

/-- A flood that entered on an S-port (R51). -/
def State.floodS (s : State) (d : Descriptor) (p : Fin 24) : List CopyPlan :=
  sCopies (s.chooseS d.bucket (s.awayFrom p (s.members d))) ++ s.peerCopies d
    ++ ((s.uplinkPort d.bucket).map fun u => (⟨u, none⟩ : CopyPlan)).toList

/-- A flood that entered on a U-port (R52). -/
def State.floodU (s : State) (d : Descriptor) : List CopyPlan :=
  sCopies (s.chooseS d.bucket (s.members d)) ++ s.peerCopies d

/-- A flood that arrived on an X-port (R53). -/
def State.floodX (s : State) (d : Descriptor) (origin : Station) : List CopyPlan :=
  sCopies (s.chooseS d.bucket ((s.members d).filter (s.bondStays origin)))

/-- A flood from an S-port or U-port without any copy is dropped NO_PATH (R58). -/
def floodDecision (l : List CopyPlan) : Decision := if l = [] then .drop .noPath else .copies l

/-! ## The decision (R39) -/

/-- A lookup and the decision on what it returned. -/
def decideBy (d : Descriptor) (s : State) (f : Option FwdEntry → State → Decision) : Decision × Out :=
  let r := lookup d.tenant d.dst s
  (f r.1 r.2.st, r.2)

/-- The decision of a frame that was classified here (Table 3-1). -/
def decideEdge (d : Descriptor) (s : State) : Decision × Out :=
  match asS d.ingress with
  | some p =>
    if groupAddr d.dst then (floodDecision (s.floodS d p), .of s)
    else decideBy d s fun r s1 =>
      match r with
      | some e => s1.decideHit d e
      | none => s1.uplinkPath d
  | none =>
    if groupAddr d.dst then (floodDecision (s.floodU d), .of s)
    else decideBy d s fun r s1 =>
      match r with
      | some e => s1.decideHit d e
      | none => floodDecision (s1.floodU d)

/-- The onward hop of a relayed frame (R49). -/
def State.onward (s : State) (d : Descriptor) (g : GroupTag) : Decision :=
  match s.directX g.target with
  | some x => if xPort x = d.ingress then .drop .noPath else .copies [⟨xPort x, some (onwardTag d g)⟩]
  | none => .drop .noPath

/-- A plain frame or one relayed to this station (R50). A group destination is looked up, so the bucket is tested,
and counts as a miss. -/
def decidePlain (d : Descriptor) (s : State) : Decision × Out :=
  decideBy d s fun r s1 => s1.decideLocal (if groupAddr d.dst then none else r)

/-- The decision of a frame that arrived on an X-port with tag `g` (Table 3-1). -/
def decideCross (d : Descriptor) (g : GroupTag) (s : State) : Decision × Out :=
  if g.diverted then (s.overU d.bucket, .of s)
  else if g.flood then (.copies (s.floodX d g.origin), .of s)
  else if g.relay && g.target != s.loader.station then (s.onward d g, .of s)
  else decidePlain d s

/-- The decision of a frame (R39). -/
def decideFrame (d : Descriptor) (s : State) : Decision × Out :=
  match d.tag with
  | none => decideEdge d s
  | some g => decideCross d g s

end Sys2Proof.Machine
end

