-- ==== Sys2Proof/Machine/PeerUnit.lean ====
section
/-! DEFINITION. The port units and the peer table (chapter 7): link states, X-port discovery, peer slots, LINK notices and
isolation. -/

namespace Sys2Proof.Machine

/-! ## Consequences of a change of ports or slots (R42, R115, R121, R126, R128) -/

/-- Changes one field group of a slot and raises a peer event. -/
def changeSlot (n : SlotNo) (f : PeerSlot → PeerSlot) (src : EventSource) (st : Station) (s : State) : Out :=
  raise src (some st.toNat) (modifySlot n f s)

/-- A slot follows the direct X-port of its station (R121). -/
def followSlot (n : SlotNo) (s : State) : Out :=
  match s.slot n with
  | none => .of s
  | some x =>
    let direct := (s.directX x.station).isSome
    match x.state with
    | .active =>
      if direct then .of s
      else changeSlot n (fun y => { y with state := .severed }) .peerSevered x.station s
    | .joining | .severed =>
      if direct then
        changeSlot n (fun y => { y with state := .active, joinExpiry := none }) .peerActive x.station s
      else .of s
    | .lost => .of s

/-- The relay choices of all slots are recomputed (R42). -/
def recomputeRelays (s : State) : State :=
  eachState (fun n => modifySlot n fun x => { x with relay := s.relayOf x }) allSlots s

/-- The ISOLATED flag changes, with its event and its effect at the load unit (R128, R92). -/
def turnIsolated (on : Bool) (s : State) : Out :=
  (raise (if on then .isolationOn else .isolationOff) none
    { s with peers := { s.peers with isolated := on } }).andThen (isolationTurned on)

/-- ISOLATED after a change of the usable U-port count from `before` (R128). -/
def judgeIsolated (before : Nat) (s : State) : Out :=
  if s.uCount = 0 ∧ before ≠ 0 ∧ s.peers.isolated = false then turnIsolated true s
  else if s.uCount ≠ 0 ∧ s.peers.isolated = true then turnIsolated false s
  else .of s

/-- A LINK notice is composed when what it reports has changed since `old` (R126). -/
def reportView (old s : State) : State := if s.linkContent = old.linkContent then s else composeLink s

/-- The consequences of a change of the ports or of the peer table that led from `old` to the state, in the order of log
entry 30. DESIGN CHOICE (log entry 47): the slots that one change moves are moved in ascending number. -/
def settleView (old s : State) : Out :=
  ((((eachOut followSlot allSlots s).also recomputeRelays).andThen dropLostDiversion).andThen
    (judgeIsolated old.uCount)).also (reportView old)

/-- A change together with its consequences. -/
def withView (f : State → Out) (s : State) : Out := (f s).andThen (settleView s)

/-! ## Link states (R110 to R116) -/

/-- The hold time of a penalty in microseconds (R111, Table 7-3). -/
def holdTime (base penalty : Nat) : Nat := min (base * 2 ^ (penalty - 1)) 64 * second

/-- The penalty after a failure (R111). -/
def raisedPenalty (n : Nat) : Nat := min (n + 1) 6

/-- The decay period in microseconds (R114). -/
def decayUs (s : State) : Nat := s.params.decay * second

/-- A port becomes UP from DOWN or HELD (R110, R114). -/
def portToUp (p : Port) (s : State) : Out :=
  raise .portUp (some p.val)
    (setPort p (fun u => { u with
      link := .up, badFrames := 0, holdExpiry := none, decayExpiry := some (later s.time.now (decayUs s)) }) s)

/-- The hold of a port is started or restarted with its penalty raised (R111, R112). -/
def startHold (p : Port) (s : State) : State :=
  setPort p (fun u => { u with
    penalty := raisedPenalty u.penalty
    holdExpiry := some (later s.time.now (holdTime s.params.holdBase (raisedPenalty u.penalty))) }) s

/-- An X-port loses its far station, its LOOPED mark and its lapse timer (R119 cases 2 and 3). -/
def clearFar (u : PortUnit) : PortUnit := { u with far := none, looped := false, lapseExpiry := none }

/-- A usable port becomes HELD (R110, R111, R115). -/
def portToHeld (p : Port) (s : State) : Out :=
  (raise .portDown (some p.val)
    (setPort p (fun u => clearFar { u with link := .held, badFrames := 0, decayExpiry := none })
      (startHold p s))).also (flushPort p)

/-- CARRIER_UP at a port (R110, R116). -/
def takeCarrierUp (p : Port) (s : State) : Out :=
  let s1 := setPort p (fun u => { u with carrier := true }) s
  if s1.acting ∧ (s1.port p).link = .down then withView (portToUp p) s1 else .of s1

/-- CARRIER_DOWN at a port (R110, R112, R116). -/
def takeCarrierDown (p : Port) (s : State) : Out :=
  let s1 := setPort p (fun u => { u with carrier := false }) s
  if s1.acting then
    match (s1.port p).link with
    | .up | .degraded => withView (portToHeld p) s1
    | .held => .of (startHold p s1)
    | .down => .of s1
  else .of s1

/-- The hold of a HELD port ends (R110). -/
def endHold (p : Port) (s : State) : Out :=
  if (s.port p).link = .held then
    if (s.port p).carrier then portToUp p s
    else .of (setPort p (fun u => { u with link := .down, badFrames := 0 }) s)
  else .of s

/-- HOLD_EXPIRY of a port whose hold timer runs (R111). -/
def expireHold (p : Port) (s : State) : Out :=
  match (s.port p).holdExpiry with
  | none => .of s
  | some t =>
    withView (endHold p) (setPort p (fun u => { u with holdExpiry := none }) (reachTime t s))

/-- DECAY_EXPIRY of a port whose decay timer runs (R114). -/
def expireDecay (p : Port) (s : State) : State :=
  match (s.port p).decayExpiry with
  | none => s
  | some t =>
    setPort p (fun u =>
      if u.link.usable then
        { u with penalty := u.penalty - 1, decayExpiry := some (later t (decayUs s)) }
      else { u with decayExpiry := none }) (reachTime t s)

/-- The comparison of one port at the one-second event (R113). -/
def comparePort (p : Port) (s : State) : Out :=
  let u := s.port p
  if u.link = .up ∧ s.params.degrade ≤ u.badFrames.toNat then
    raise .portDegraded (some p.val) (setPort p (fun v => { v with link := .degraded }) s)
  else if u.link = .degraded ∧ u.badFrames.toNat < s.params.degrade then
    raise .portUp (some p.val) (setPort p (fun v => { v with link := .up }) s)
  else .of s

/-- One port at the one-second event: the comparison while the station acts, then a new second's count (R113). -/
def portSecond (p : Port) (s : State) : Out :=
  (if s.acting then withView (comparePort p) s else .of s).also
    (setPort p fun u => { u with badFrames := 0 })

/-! ## X-port discovery (R118, R119) -/

/-- The station number that a port hello carries. -/
def helloNumber (l : List Byte) : Nat := octetNat l portHelloPayload

/-- The serial that a port hello carries. -/
def helloSerial (l : List Byte) : Serial := BitVec.ofNat 32 (fieldNat l (portHelloPayload + 1) 4)

/-- The X-port after a port hello of number `n` below 15 (R118), its lapse timer apart. -/
def heard (own : Station) (n : Nat) (ser : Serial) (u : PortUnit) : PortUnit :=
  if n = own.toNat then { u with far := none, looped := true }
  else if u.far = some (BitVec.ofNat 4 n) then u
  else { u with far := some (BitVec.ofNat 4 n), farSerial := ser, looped := false }

/-- A port hello taken on an X-port (R118). -/
def takePortHello (x : XIndex) (l : List Byte) (s : State) : Out :=
  if helloNumber l < 15 then
    withView (fun s1 => .of (setPort (xPort x) (fun u =>
      { heard s1.loader.station (helloNumber l) (helloSerial l) u with
        lapseExpiry := some (later s1.time.now (3 * helloUs s1)) }) s1)) s
  else .of s

/-- LAPSE_EXPIRY of an X-port whose lapse timer runs (R119 case 1). -/
def expireLapse (x : XIndex) (s : State) : Out :=
  match (s.port (xPort x)).lapseExpiry with
  | none => .of s
  | some t =>
    withView (fun s1 => .of (setPort (xPort x) (fun u => { u with far := none, lapseExpiry := none }) s1))
      (reachTime t s)

/-! ## Peer slots (R120 to R125) -/

/-- A slot enters JOINING, or returns to it, with generation `gen` (R120, R124). -/
def joinSlot (s : State) (gen : BitVec 16) (running : Bool) (x : PeerSlot) : PeerSlot :=
  { clearView x with
    state := .joining, gen := gen, seenRunning := running, reachMap := none, bondUp := 0, uCount := 0
    joinExpiry := some (later s.time.now (2 * helloUs s))
    silenceExpiry := some (later s.time.now (3 * helloUs s)), lingerExpiry := none }

/-- The next generation of the station's counter (section 7.4). -/
def nextGen (s : State) : State := { s with peers := { s.peers with genCounter := s.peers.genCounter + 1 } }

/-- A slot that a HELLO takes (R120). -/
def newSlot (src : Station) (h : HelloRx) (s : State) : PeerSlot :=
  joinSlot s s.peers.genCounter (h.phase == .running)
    { station := src, serial := h.serial, state := .joining, gen := s.peers.genCounter, seenRunning := false
      lastHeard := s.time.now, silenceExpiry := none, joinExpiry := none }

/-- The lowest-numbered free slot. -/
def State.freePeerSlot (s : State) : Option SlotNo := allSlots.find? fun n => (s.slot n).isNone

/-- A withdrawing HELLO (R120). -/
def HelloRx.withdrawing (h : HelloRx) : Bool := h.phase == .failsafe || h.conflict

/-- A HELLO of a station without a slot (R120). -/
def helloNew (src : Station) (h : HelloRx) (s : State) : Out :=
  if h.switch && !h.withdrawing then
    match s.freePeerSlot with
    | none => .of { s with peers := { s.peers with tableFull := satInc s.peers.tableFull } }
    | some n =>
      withView (fun s1 =>
        let s2 := nextGen s1
        .of (setSlot n (some (newSlot src h s2)) s2)) s
  else .of s

/-- A slot becomes LOST (R122). -/
def slotToLost (n : SlotNo) (x : PeerSlot) (s : State) : Out :=
  changeSlot n (fun y => { y with
    state := .lost, joinExpiry := none, silenceExpiry := none
    lingerExpiry := some (later s.time.now (3 * refreshUs s)) }) .peerLost x.station s

/-- A slot returns to JOINING with a new generation (R124). -/
def slotReturns (n : SlotNo) (running : Bool) (s : State) : Out :=
  let s1 := nextGen s
  .of (modifySlot n (joinSlot s1 s1.peers.genCounter running) s1)

/-- A HELLO taken into a live slot: silence restarted, seen running kept up (R120). -/
def helloHeld (n : SlotNo) (running : Bool) (s : State) : State :=
  modifySlot n (fun x => { x with
    silenceExpiry := some (later s.time.now (3 * helloUs s)), seenRunning := x.seenRunning || running }) s

/-- A HELLO at the slot of its station (R120, R123, R124). -/
def helloKnown (n : SlotNo) (x : PeerSlot) (h : HelloRx) (s : State) : Out :=
  if x.collision then .of s
  else if x.state = .lost then
    if h.serial = x.serial ∧ h.withdrawing = false then
      withView (slotReturns n (h.phase == .running)) s
    else .of s
  else if h.serial ≠ x.serial then
    withView (fun s1 => slotToLost n x (modifySlot n (fun y => { y with collision := true }) s1)) s
  else if h.withdrawing then withView (slotToLost n x) s
  else if h.phase = .joining ∧ x.seenRunning then
    (withView (slotToLost n x) s).andThen (withView (slotReturns n false))
  else .of (helloHeld n (h.phase == .running) s)

/-- A HELLO from another station at the peer table (R120). -/
def takeHello (src : Station) (h : HelloRx) (s : State) : Out :=
  if s.mayNotify then
    match s.slotOf src with
    | none => helloNew src h s
    | some n =>
      match s.slot n with
      | none => .of s
      | some x => helloKnown n x h s
  else .of s

/-- A LINK notice at the peer table (R127). -/
def takeLink (src : Station) (r : LinkRx) (s : State) : Out :=
  if (s.peer src).any fun x => x.state.live && x.serial == r.serial then
    match s.slotOf src with
    | none => .of s
    | some n =>
      withView (fun s1 => .of (modifySlot n (fun x => { x with
        reachMap := some r.reach, bondUp := r.bondUp, uCount := r.uCount, isolated := r.isolated }) s1)) s
  else .of { s with peers := { s.peers with linkIgnored := satInc s.peers.linkIgnored } }

/-- A good message refreshes the last heard time of its source's slot, and the silence timer of a live one (R144,
R122). -/
def refreshHeard (src : Station) (s : State) : State :=
  match s.slotOf src with
  | none => s
  | some n =>
    modifySlot n (fun x => { x with
      lastHeard := s.time.now
      silenceExpiry := if x.state.live then some (later s.time.now (3 * helloUs s))
        else x.silenceExpiry }) s

/-- SILENCE_EXPIRY of a slot whose silence timer runs (R122). -/
def expireSilence (n : SlotNo) (s : State) : Out :=
  match s.slot n with
  | none => .of s
  | some x =>
    match x.silenceExpiry with
    | none => .of s
    | some t =>
      let s1 := modifySlot n (fun y => { y with silenceExpiry := none }) (reachTime t s)
      if x.state.live then withView (slotToLost n x) s1 else .of s1

/-- JOIN_EXPIRY of a slot whose join timer runs (R121). -/
def expireJoin (n : SlotNo) (s : State) : Out :=
  match s.slot n with
  | none => .of s
  | some x =>
    match x.joinExpiry with
    | none => .of s
    | some t =>
      let s1 := modifySlot n (fun y => { y with joinExpiry := none }) (reachTime t s)
      if x.state = .joining then
        withView (changeSlot n (fun y => { y with state := .severed }) .peerSevered x.station) s1
      else .of s1

/-- LINGER_EXPIRY of a slot whose linger timer runs (R124, R125). -/
def expireLinger (n : SlotNo) (s : State) : Out :=
  match s.slot n with
  | none => .of s
  | some x =>
    match x.lingerExpiry with
    | none => .of s
    | some t =>
      let s1 := modifySlot n (fun y => { y with lingerExpiry := none }) (reachTime t s)
      if x.state = .lost then withView (fun s2 => .of (setSlot n none s2)) s1 else .of s1

/-- LOAD_FRESHNESS_EXPIRY of a slot whose announced uplink index is fresh: the station time reaches the expiry, which is gone,
and the index is stale until the next LOAD taken (R85, R183). -/
def expireFreshness (n : SlotNo) (s : State) : State :=
  match (s.slot n).bind (·.freshExpiry) with
  | none => s
  | some t => modifySlot n (fun x => { x with freshExpiry := none }) (reachTime t s)

/-- A slot is freed at the entry to CONFLICT (R125). -/
def freeSlotNow (n : SlotNo) (s : State) : Out :=
  match s.slot n with
  | none => .of s
  | some x =>
    let s1 := setSlot n none s
    if x.state.live then raise .peerLost (some x.station.toNat) s1 else .of s1

end Sys2Proof.Machine
end

