-- ==== Sys2Proof/Machine/FrameUnit.lean ====
section
/-! DEFINITION. FRAME_RECEIVED: ingress checks, classification or tag reading, learning, path selection, admission and the
report to the meter (chapters 1 to 4, 6 and 9). -/

namespace Sys2Proof.Machine

/-! ## Ingress checks (R2) -/

/-- The first reason of R2 that applies to a frame taken on a port. -/
def ingressFault (p : Port) (l : List Byte) : Option DropReason :=
  if frameLength p l < 64 then some .runt
  else if 9216 < frameLength p l then some .giant
  else if !fcsGood l then some .badFcs
  else none

/-- A BAD_FCS drop adds to the port's bad-frame count, which stops at 65,535 (R2, section 7.2). -/
def countBadFrame (p : Port) (s : State) : State :=
  setPort p (fun u => { u with badFrames := (satAdd u.badFrames 1).1 }) s

/-- A frame dropped by the ingress checks (R2). -/
def dropIngress (p : Port) (r : DropReason) (s : State) : State :=
  if r = .badFcs then countBadFrame p (countDrop p r s) else countDrop p r s

/-! ## Classifier (R6, R7) -/

/-- The VLAN field of a rule matches (R6). -/
def VlanMatch.accepts (m : VlanMatch) (v : FrameView) : Bool :=
  match m with
  | .any => true
  | .untagged => v.vid.getD 0 == 0
  | .vid n => v.vid == some n

/-- A rule matches a frame: each of its four fields matches (R6). -/
def Rule.accepts (r : Rule) (p : Port) (v : FrameView) : Bool :=
  r.ports.all (fun set => set.getLsbD p.val) && r.vlan.accepts v
    && r.prio.all (fun n => v.prio == some n) && r.etype.all (fun n => v.etype == n)

/-- The search of the rule slots in ascending number (R7): the first usable rule that matches; a rule that fails its
check is passed over and its refetch requested. -/
def searchRules (p : Port) (v : FrameView) : List (Nat × Rule) → State → Option Rule × Out
  | [], s => (none, .of s)
  | (n, r) :: rs, s =>
    if r.integ = .good then
      if r.checkGood then
        if r.accepts p v then (some r, .of s) else searchRules p v rs s
      else
        let o := configFault ⟨.rule, n⟩ s
        let q := searchRules p v rs o.st
        (q.1, ⟨q.2.st, o.evs ++ q.2.evs⟩)
    else searchRules p v rs s

/-! ## Tenant entries (R9) -/

/-- The outcome of the read of a tenant's entry. -/
inductive TenantRead where
  | entry (e : TenantEntry)
  | dropped (r : DropReason)
  deriving DecidableEq, Repr

/-- The read of a tenant's entry for a frame (R9). -/
def readTenant (t : Tenant) (s : State) : TenantRead × Out :=
  match mapFind s.tenants t.toNat with
  | none => (.dropped .unclassified, .of s)
  | some e =>
    if e.integ = .good then
      if e.checkGood then (.entry e, .of s) else (.dropped .tenantFault, configFault ⟨.tenant, t.toNat⟩ s)
    else (.dropped .tenantFault, .of s)

/-! ## From the descriptor to the report (R10, R63, R67) -/

/-- The descriptor of a frame classified here (Table 1-5). -/
def edgeDescriptor (p : Port) (l : List Byte) (r : Rule) (e : TenantEntry) (deep : Bool) : Descriptor :=
  { ingress := p, length := frameLength p l, tenant := r.tenant, bcls := r.bcls, tcls := r.tcls
    bucket := flowBucket deep r.tenant l, members := e.members, tariffs := e.tariffs, exempt := e.exempt
    tag := none, dst := frameDst l }

/-- The descriptor of a frame from an X-port (Table 1-5). -/
def crossDescriptor (p : Port) (l : List Byte) (g : GroupTag) (e : TenantEntry) : Descriptor :=
  { ingress := p, length := frameLength p l, tenant := g.tenant, bcls := g.bcls, tcls := g.tcls
    bucket := g.bucket, members := e.members, tariffs := e.tariffs, exempt := e.exempt
    tag := some g, dst := frameDst l }

/-- The restraint test of a frame with copies (R63 step 1): S-port ingress alone is tested. -/
def State.restraintTest (s : State) (d : Descriptor) : Option DropReason :=
  if (asS d.ingress).isSome then s.restraintOutcome d.tenant else none

/-- Steps (2) and (3) of R63: the copies are admitted or dropped, and the outcome is reported. -/
def admitFrame (d : Descriptor) (octets : List Byte) (cs : List CopyPlan) (s : State) : Out :=
  let n := admitCopies d octets cs s
  match n.1 with
  | some c => reportAdmitted d c.port c.tag n.2
  | none => reportNone d n.2

/-- A frame dropped by the restraint test (R63, R67, R106). -/
def restrainFrame (d : Descriptor) (r : DropReason) (s : State) : Out :=
  (reportNone d (countDrop d.ingress r s)).andThen (flagRestrained d)

/-- The copy list of a frame at the buffer manager (R63). A flood from an X-port without copies is discarded and not
counted (R53). -/
def offerCopies (d : Descriptor) (octets : List Byte) (cs : List CopyPlan) (s : State) : Out :=
  if cs = [] then .of s
  else match s.restraintTest d with
    | some r => restrainFrame d r s
    | none => admitFrame d octets cs s

/-- A decided frame (R58, R63). -/
def deliver (d : Descriptor) (octets : List Byte) (x : Decision) (s : State) : Out :=
  match x with
  | .drop r => reportNone d (countDrop d.ingress r s)
  | .copies cs => offerCopies d octets cs s

/-- The path decision of a frame and what follows it. -/
def forwardFrame (d : Descriptor) (octets : List Byte) (s : State) : Out :=
  let q := decideFrame d s
  q.2.andThen (deliver d octets q.1)

/-- The learn of a frame that entered on an S-port (R19). -/
def learnFrame (d : Descriptor) (src : Addr) (s : State) : Out :=
  match asS d.ingress with
  | some p => if groupAddr src then .of s else learn p d.tenant src s
  | none => .of s

/-! ## The command -/

/-- A frame from an S-port or U-port that passed the ingress checks (R7, R9). -/
def edgeFrame (p : Port) (l : List Byte) (s : State) : Out :=
  let q := searchRules p (frameView l) s.rules s
  match q.1 with
  | none => q.2.also (countDrop p .unclassified)
  | some r =>
    q.2.andThen fun s1 =>
      let t := readTenant r.tenant s1
      match t.1 with
      | .dropped reason => t.2.also (countDrop p reason)
      | .entry e =>
        let d := edgeDescriptor p l r e s1.params.deepHash
        t.2.andThen fun s2 => (learnFrame d (frameSrc l) s2).andThen (forwardFrame d (plainOctets l))

/-- A frame from an X-port that passed the ingress checks and is no port hello (R4, R11, R12). -/
def crossFrame (p : Port) (l : List Byte) (s : State) : Out :=
  if (s.port p).looped then .of (countDrop p .loop s)
  else if !hasTagMarker l || tagInvalid s.loader.station l then .of (countDrop p .badTag s)
  else if (readTag l).origin = s.loader.station then .of (countDrop p .loop s)
  else
    let g := readTag l
    let t := readTenant g.tenant s
    match t.1 with
    | .dropped reason => t.2.also (countDrop p reason)
    | .entry e => t.2.andThen (forwardFrame (crossDescriptor p l g e) (untaggedOctets l))

/-- FRAME_RECEIVED (R1, R2, R4). -/
def takeFrame (p : Port) (l : List Byte) (s : State) : Out :=
  if !s.portReady p then .of s
  else match ingressFault p l with
    | some r => .of (dropIngress p r s)
    | none =>
      match asX p with
      | some x => if frameDst l = Config.helloAddr then takePortHello x l s else crossFrame p l s
      | none => edgeFrame p l s

end Sys2Proof.Machine
end

