-- ==== Sys2Proof/Machine/EventLinkUnit.lean ====
section
/-! DEFINITION. The event link table (R185 to R187): matching, hold-offs, actions, and the events of a command. -/

namespace Sys2Proof.Machine

/-- A link matches an event (R186). -/
def EventLink.hears (l : EventLink) (e : Event) : Bool :=
  l.source == e.source && (l.qual.isNone || l.qual == e.qual)

/-- A link carries out its action (R187). -/
def act (a : LinkAction) (s : State) : Out :=
  match a with
  | .sendLoad => .of (composeLoad s)
  | .sendLink => .of (composeLink s)
  | .closeInterval => boundary s
  | .exportEvent c => .of (exportEvent c s)
  | .markInterval code => .of (markInterval code s)

/-- Changes the link at a place. -/
def setLink (n : Nat) (f : EventLink → EventLink) (s : State) : State :=
  { s with links := mapModify s.links n f }

/-- The link at place `n` acts, and its hold-off starts (R186). -/
def fireLink (n : Nat) (l : EventLink) (s : State) : Out :=
  (act l.action s).also (setLink n fun x => { x with count := l.holdOff, pend := false })

/-- An event at the link of one place (R186). -/
def hearEvent (e : Event) (n : Nat) (s : State) : Out :=
  match mapFind s.links n with
  | none => .of s
  | some l =>
    if l.hears e then
      if l.count = 0 then fireLink n l s else .of (setLink n (fun x => { x with pend := true }) s)
    else .of s

/-- An event at the table: its links in ascending number, while the table takes events (R186, R187). -/
def takeEvent (e : Event) (s : State) : Out :=
  if s.acting then eachOut (hearEvent e) (s.links.map Prod.fst) s else .of s

/-- Takes events in order; the events that their actions raise are taken after all links of the causing event have
acted (R187). The depth bounds such chains (log entry 11). -/
def settleEvents : (depth : Nat) → List Event → State → State
  | 0, _, s => s
  | n + 1, es, s => eachState (fun e s1 => settleEvents n (takeEvent e s1).evs (takeEvent e s1).st) es s

/-- The state after a command whose own changes are `o`: the events it raised have been taken. -/
def conclude (o : Out) : State := settleEvents 8 o.evs o.st

/-- The hold-off of the link at one place at a SAMPLE (R186). -/
def lowerHoldOff (n : Nat) (s : State) : Out :=
  match mapFind s.links n with
  | none => .of s
  | some l =>
    if l.count = 0 then .of s
    else if l.count = 1 ∧ l.pend then fireLink n l s
    else .of (setLink n (fun x => { x with count := x.count - 1 }) s)

/-- The hold-offs at a SAMPLE, in ascending link number. -/
def lowerHoldOffs (s : State) : Out := eachOut lowerHoldOff (s.links.map Prod.fst) s

end Sys2Proof.Machine
end

