-- ==== Sys2Proof/Machine/LoaderUnit.lean ====
section
/-! DEFINITION. The loader and integrity unit (R188 to R194) with the image layout (section 12.4): structural faults, clamps,
filling of the tables, entry to JOINING or FAILSAFE, refetch, restart and full reset. -/

namespace Sys2Proof.Machine

/-! ## Sections (section 12.4, R189, R197) -/

/-- A directory entry. -/
structure Sect where
  kind : Nat
  count : Nat
  offset : Nat
  len : Nat
  deriving DecidableEq, Repr

/-- The section count of the header. -/
def sectCount (img : List Byte) : Nat := octetNat img 10

/-- The image length of the header. -/
def imageLength (img : List Byte) : Nat := fieldNat img 6 4

/-- Directory entry `i`. -/
def readSect (img : List Byte) (i : Nat) : Sect :=
  let e := slice img (16 + 12 * i) 12
  { kind := fieldNat e 0 2, count := fieldNat e 2 2, offset := fieldNat e 4 4, len := fieldNat e 8 4 }

/-- The directory. DESIGN CHOICE (log entry 21): under fault 4 of R189 its first 8 entries are read for FAILSAFE, those beyond
the length included. -/
def directory (img : List Byte) : List Sect := (List.range (min (sectCount img) 8)).map (readSect img)

/-- The entry size of a section kind (Table 12-6); none for an unknown kind. -/
def entrySize : Nat → Option Nat
  | 1 => some 5
  | 2 => some 2
  | 3 => some 16
  | 4 => some 18
  | 5 => some 13
  | 6 => some 10
  | 7 => some 6
  | 8 => some 1
  | _ => none

/-- The directory entries of known kinds; the others are passed over (R197). -/
def knownSects (img : List Byte) : List Sect := (directory img).filter fun d => (entrySize d.kind).isSome

/-- The section of a kind. DESIGN CHOICE (log entry 21): the first when the directory names the kind twice, which it can in
FAILSAFE alone. -/
def sectOf (img : List Byte) (k : Nat) : Option Sect := (directory img).find? fun d => d.kind == k

/-- The entries of a section of `n`-octet entries. -/
def entriesAt (img : List Byte) (n : Nat) (d : Sect) : List (List Byte) :=
  (List.range d.count).map fun i => slice img (d.offset + n * i) n

/-- The entries of the section of a kind; none when the directory does not name it. -/
def sectionEntries (img : List Byte) (k n : Nat) : List (List Byte) :=
  ((sectOf img k).map (entriesAt img n)).getD []

/-- Two sections share an octet; an empty one shares none. -/
def Sect.overlaps (a b : Sect) : Bool :=
  decide (0 < a.len) && decide (0 < b.len)
    && decide (a.offset < b.offset + b.len) && decide (b.offset < a.offset + a.len)

/-- Some two sections of the list overlap or are of one kind. -/
def clashing : List Sect → Bool
  | [] => false
  | a :: ds => ds.any (fun b => a.overlaps b || a.kind == b.kind) || clashing ds

/-- A section's place and length are faulty (R189 case 6, R197). -/
def Sect.misplaced (total : Nat) (d : Sect) : Bool :=
  decide (total < d.offset + d.len) || some d.len != (entrySize d.kind).map (· * d.count)

/-- The number of entries that a section kind may hold (R189 case 7). -/
def capacity : Nat → Option Nat
  | 3 => some 64
  | 4 => some 256
  | 5 => some 16
  | 6 => some 256
  | 7 => some 16
  | 8 => some 4
  | _ => none

/-- The number of table places for the entry numbers of a section kind (R189 case 7). -/
def places : Nat → Option Nat
  | 3 => some 64
  | 5 => some 16
  | 7 => some 16
  | _ => none

/-- A section holds too many entries or a number beyond its table (R189 case 7). -/
def overfull (img : List Byte) (d : Sect) : Bool :=
  (capacity d.kind).any (fun n => decide (n < d.count))
    || (places d.kind).any fun n =>
      (entriesAt img ((entrySize d.kind).getD 0) d).any fun e => decide (n ≤ octetNat e 0)

/-- The entry check of an entry of `n` octets is right (section 12.4). -/
def entryGood (n : Nat) (e : List Byte) : Bool :=
  e.length == n && fieldNat e (n - 2) 2 == crc16 (e.take (n - 2))

/-- The section kinds whose entries carry an entry check. -/
def checkedKind (k : Nat) : Bool := k == 3 || k == 4 || k == 5 || k == 6

/-- Some entry of a checked section fails its entry check (R189 case 8). -/
def badEntries (img : List Byte) (d : Sect) : Bool :=
  checkedKind d.kind &&
    (entriesAt img ((entrySize d.kind).getD 0) d).any fun e => !entryGood ((entrySize d.kind).getD 0) e

/-- The first structural fault of an image under a strap value (R189). -/
def structuralFault (strap : Station) (img : List Byte) : Option Nat :=
  let total := imageLength img
  if strap = 15#4 then some 1
  else if fieldNat img 0 4 ≠ Config.imageMarker then some 2
  else if fieldNat img 4 2 ≠ 1 then some 3
  else if Config.imageLimit < total ∨ total < 20 ∨ 8 < sectCount img ∨ total < 16 + 12 * sectCount img then some 4
  else if img.length < total ∨ fieldNat img (total - 4) 4 ≠ imageCheck (img.take (total - 4)) then some 5
  else if (knownSects img).any (Sect.misplaced total) || clashing (knownSects img) then some 6
  else if (knownSects img).any (overfull img) then some 7
  else if (knownSects img).any (badEntries img) then some 8
  else none

/-! ## Clamps (R190) -/

/-- A value with the number of clamps that gave it. -/
abbrev Clamped (α : Type) := α × Nat

/-- Clamps to the nearer end of a range. -/
def clampTo (lo hi v : Nat) : Clamped Nat :=
  if v < lo then (lo, 1) else if hi < v then (hi, 1) else (v, 0)

/-- The bit rate (R130). -/
def clampRate (v : Nat) : Clamped Nat :=
  match v with
  | 1 => (1, 0)
  | 2 => (2, 0)
  | 5 => (5, 0)
  | 10 => (10, 0)
  | 0 => (1, 1)
  | 3 => (2, 1)
  | 4 => (5, 1)
  | 6 => (5, 1)
  | 7 => (5, 1)
  | _ => (10, 1)

/-- The sample period (R184). -/
def clampSample (v : Nat) : Clamped Nat :=
  if v < 50 then (50, 1)
  else if 1000 < v then (1000, 1)
  else if v % 50 = 0 then (v, 0)
  else (v / 50 * 50, 1)

/-- Sets the STATION parameter of an identifier (Table 12-7). The off-level is clamped after the on-level (R97). -/
def setParam (p : Params) (id v : Nat) : Clamped Params :=
  match id with
  | 1 => ({ p with serial := BitVec.ofNat 32 v }, 0)
  | 2 => ({ p with bitRate := (clampRate v).1 }, (clampRate v).2)
  | 3 => ({ p with deepHash := v != 0 }, 0)
  | 4 => ({ p with samplePeriod := (clampSample v).1 }, (clampSample v).2)
  | 5 => ({ p with loadShift := (clampTo 0 7 v).1 }, (clampTo 0 7 v).2)
  | 6 => ({ p with loadPeriod := (clampTo 1 100 v).1 }, (clampTo 1 100 v).2)
  | 7 => ({ p with helloPeriod := (clampTo 100 2000 v).1 }, (clampTo 100 2000 v).2)
  | 8 => ({ p with refreshPeriod := (clampTo 10 600 v).1 }, (clampTo 10 600 v).2)
  | 9 => ({ p with basis := (clampTo 64 12288 v).1 }, (clampTo 64 12288 v).2)
  | 10 => ({ p with margin := (clampTo 0 32767 v).1 }, (clampTo 0 32767 v).2)
  | 11 => ({ p with cap := (clampTo 0 512 v).1 }, (clampTo 0 512 v).2)
  | 12 => ({ p with slew := (clampTo 1 256 v).1 }, (clampTo 1 256 v).2)
  | 13 => ({ p with xl := (clampTo 0 32767 v).1 }, (clampTo 0 32767 v).2)
  | 14 => ({ p with tp := (clampTo 0 32767 v).1 }, (clampTo 0 32767 v).2)
  | 15 => ({ p with onLevel := (clampTo 0 12288 v).1 }, (clampTo 0 12288 v).2)
  | 16 => ({ p with offLevel := v }, 0)
  | 17 => ({ p with window := (clampTo 1 32 v).1 }, (clampTo 1 32 v).2)
  | 18 => ({ p with ageLimit := (clampTo 10 4095 v).1 }, (clampTo 10 4095 v).2)
  | 19 => ({ p with billing := (clampTo 1 3600 v).1 }, (clampTo 1 3600 v).2)
  | 20 => ({ p with holdBase := (clampTo 1 8 v).1 }, (clampTo 1 8 v).2)
  | 21 => ({ p with degrade := (clampTo 1 65535 v).1 }, (clampTo 1 65535 v).2)
  | 22 => ({ p with decay := (clampTo 10 600 v).1 }, (clampTo 10 600 v).2)
  | 23 => ({ p with classLimit := (clampTo 16 4096 v).1 }, (clampTo 16 4096 v).2)
  | _ => (p, 1)

/-- The off-level after the on-level (R97). -/
def clampOff (p : Params) : Clamped Params :=
  let c := clampTo (p.onLevel + 256) 12544 p.offLevel
  ({ p with offLevel := c.1 }, c.2)

/-- The value of the last pair of an identifier (R197). -/
def lastPair (pairs : List (List Byte)) (id : Nat) : Option Nat :=
  ((pairs.filter fun e => octetNat e 0 == id).getLast?).map fun e => fieldNat e 1 4

/-- Sets the parameters of some identifiers from the STATION pairs. -/
def takeParams (pairs : List (List Byte)) : List Nat → Clamped Params → Clamped Params
  | [], p => p
  | id :: ids, p =>
    match lastPair pairs id with
    | none => takeParams pairs ids p
    | some v => takeParams pairs ids ((setParam p.1 id v).1, p.2 + (setParam p.1 id v).2)

/-- The identifiers of Table 12-7. -/
def paramIds : List Nat :=
  [1, 2, 3, 4, 5, 6, 7, 8, 9, 10, 11, 12, 13, 14, 15, 16, 17, 18, 19, 20, 21, 22, 23]

/-- The parameters that the STATION pairs give (R188, R197): an unknown identifier counts as one clamp. DESIGN CHOICE (log
entry 24): each pair of an unknown identifier counts, repeated ones too. -/
def readParams (pairs : List (List Byte)) : Clamped Params :=
  let unknown := (pairs.filter fun e => !paramIds.contains (octetNat e 0)).length
  let p := takeParams pairs paramIds ({}, unknown)
  ((clampOff p.1).1, p.2 + (clampOff p.1).2)

/-! ## Entries (Table 12-6) -/

/-- The VLAN field of a rule (R5). -/
def readVlan (v : Nat) : Clamped VlanMatch :=
  if v = 0xFFFF then (.any, 0)
  else if v = 0xFFFE then (.untagged, 0)
  else ((.vid (clampTo 1 4094 v).1), (clampTo 1 4094 v).2)

/-- The priority field of a rule (R5). -/
def readPrio (v : Nat) : Clamped (Option Nat) :=
  if v = 0xFF then (none, 0) else (some (clampTo 0 7 v).1, (clampTo 0 7 v).2)

/-- The port set of a rule (R5): X-ports are removed, and 0 means any. -/
def readPorts (v : Nat) : Clamped (Option (BitVec 28)) :=
  if v = 0 then (none, 0) else (some (BitVec.ofNat 28 v), if v < 2 ^ 28 then 0 else 1)

/-- The check that is stored with an entry of `n` octets before its check (R188 step 4, Table 12-6). -/
def storedCheck (n : Nat) (e : List Byte) : EntryCheck :=
  { octets := e.take n, check := BitVec.ofNat 16 (fieldNat e n 2) }

/-- A classifier rule from its 16 octets (R5). -/
def readRule (e : List Byte) : Clamped Rule :=
  ({ ports := (readPorts (fieldNat e 1 4)).1
     vlan := (readVlan (fieldNat e 5 2)).1
     prio := (readPrio (octetNat e 7)).1
     etype := if octetNat e 8 = 0 then none else some (fieldNat e 9 2)
     tenant := e.getD 11 0, bcls := clsOf (octetNat e 12), tcls := clsOf (octetNat e 13)
     entry := storedCheck 14 e },
   (readPorts (fieldNat e 1 4)).2 + (readVlan (fieldNat e 5 2)).2 + (readPrio (octetNat e 7)).2
     + (clampTo 0 1 (octetNat e 8)).2 + (clampTo 0 3 (octetNat e 12)).2 + (clampTo 0 3 (octetNat e 13)).2)

/-- A tenant entry from its 18 octets (R8). -/
def readTenantEntry (e : List Byte) : Clamped TenantEntry :=
  let tariff (i : Nat) : Clamped Nat := clampTo 0 15 (octetNat e (11 + i))
  ({ account := if octetNat e 1 = 0 then none else some (BitVec.ofNat 32 (fieldNat e 2 4))
     members := BitVec.ofNat 24 (fieldNat e 6 3)
     quota := (clampTo 0 12288 (fieldNat e 9 2)).1
     tariffs := #v[(tariff 0).1, (tariff 1).1, (tariff 2).1, (tariff 3).1]
     exempt := octetNat e 15 != 0
     entry := storedCheck 16 e },
   (clampTo 0 12288 (fieldNat e 9 2)).2 + (tariff 0).2 + (tariff 1).2 + (tariff 2).2 + (tariff 3).2)

/-- A tariff from its 13 octets (R154). -/
def readTariffEntry (e : List Byte) : Tariff :=
  { fee := fieldNat e 1 2, base := fieldNat e 3 2, peak := fieldNat e 5 2, detour := fieldNat e 7 2
    inbound := fieldNat e 9 2, entry := storedCheck 11 e }

/-- The local port of a fixed entry (R22). -/
def readLocalPort (v : Nat) : Clamped (Option (Fin 24)) :=
  if h : v < 24 then (some ⟨v, h⟩, 0) else (none, if v = 255 then 0 else 1)

/-- A fixed entry from its 10 octets (R22). -/
def readFixedEntry (e : List Byte) : Clamped FixedCfg :=
  ({ tenant := e.getD 0 0, addr := BitVec.ofNat 48 (fieldNat e 1 6)
     localPort := (readLocalPort (octetNat e 7)).1, entry := storedCheck 8 e }, (readLocalPort (octetNat e 7)).2)

/-- The source event of a code (Table 12-8). -/
def readSource : Nat → Option EventSource
  | 1 => some .portDown
  | 2 => some .portUp
  | 3 => some .portDegraded
  | 4 => some .peerActive
  | 5 => some .peerSevered
  | 6 => some .peerLost
  | 7 => some .isolationOn
  | 8 => some .isolationOff
  | 9 => some .restraintOn
  | 10 => some .restraintOff
  | 11 => some .tenantDenied
  | 12 => some .diversionStart
  | 13 => some .diversionEnd
  | 14 => some .intervalClosed
  | 15 => some .closeDeferred
  | 16 => some .integrityFault
  | _ => none

/-- The action of a code with its parameter (Table 12-8, R185). -/
def readAction (code param : Nat) : Option (Clamped LinkAction) :=
  match code with
  | 1 => some (.sendLoad, 0)
  | 2 => some (.sendLink, 0)
  | 3 => some (.closeInterval, 0)
  | 4 => some (.exportEvent ⟨min param 1, by omega⟩, (clampTo 0 1 param).2)
  | 5 => some (.markInterval ⟨min param 7, by omega⟩, (clampTo 0 7 param).2)
  | _ => none

/-- The number of qualifier values that a source carries; none for a source without a qualifier (Table 11-2). -/
def qualifierRange : EventSource → Option Nat
  | .portDown | .portUp | .portDegraded => some 33
  | .peerActive | .peerSevered | .peerLost => some 15
  | _ => none

/-- The qualifier of a link (R185): kept or dropped with its clamps, or none when the link is discarded. -/
def readQualifier (src : EventSource) (q : Nat) : Option (Clamped (Option Nat)) :=
  if q = 255 then some (none, 0)
  else match qualifierRange src with
    | none => some (none, 1)
    | some n => if q < n then some (some q, 0) else none

/-- A link that would close or defer without end (R185). -/
def endless (src : EventSource) (a : LinkAction) : Bool :=
  (src == .intervalClosed || src == .closeDeferred) && a == .closeInterval

/-- A link from its 6 octets (R185): the link when it is kept, and the clamps. DESIGN CHOICE (log entry 24): a link discarded
for its source or action counts one clamp alone, and one discarded for another reason those of its fields besides. -/
def readLinkEntry (e : List Byte) : Clamped (Option EventLink) :=
  match readSource (octetNat e 1), readAction (octetNat e 3) (octetNat e 4) with
  | some src, some a =>
    match readQualifier src (octetNat e 2) with
    | none => (none, a.2 + 1)
    | some q =>
      if endless src a.1 then (none, q.2 + a.2 + 1)
      else (some { source := src, qual := q.1, action := a.1, holdOff := octetNat e 5 }, q.2 + a.2)
  | _, _ => (none, 1)

/-! ## Filling the tables (R188) -/

/-- Adds clamps to the clamp count (R190). -/
def addClamps (n : Nat) (s : State) : State :=
  { s with loader := { s.loader with clamps := (satAdd s.loader.clamps n).1 } }

/-- The parameters from the STATION section. -/
def fillParams (pairs : List (List Byte)) (s : State) : State :=
  addClamps (readParams pairs).2 { s with params := (readParams pairs).1 }

/-- A PORTS entry (R109, R197). -/
def fillPort (e : List Byte) (s : State) : State :=
  if h : octetNat e 0 < 24 then
    let b := clampTo 0 63 (octetNat e 1)
    addClamps b.2
      (setPort (sPort ⟨octetNat e 0, h⟩) (fun u => { u with bond := if b.1 = 0 then none else some b.1 }) s)
  else addClamps 1 s

/-- A CLASSIFIER entry (R5). -/
def fillRule (e : List Byte) (s : State) : State :=
  addClamps (readRule e).2 { s with rules := mapInsert s.rules (octetNat e 0) (readRule e).1 }

/-- The restraint settings of a tenant as loaded (R97). -/
def settingOf (n : Nat) (e : TenantEntry) : RestraintSetting :=
  if n = 0 then { quota := 0, exempt := true } else { quota := e.quota, exempt := e.exempt }

/-- A TENANTS entry (R8, R97). -/
def fillTenant (e : List Byte) (s : State) : State :=
  addClamps (readTenantEntry e).2
    { s with
      tenants := mapInsert s.tenants (octetNat e 0) (readTenantEntry e).1
      restraint := { s.restraint with
        settings := mapSet {} s.restraint.settings (octetNat e 0)
          (settingOf (octetNat e 0) (readTenantEntry e).1) } }

/-- A TARIFFS entry (R154). -/
def fillTariff (e : List Byte) (s : State) : State :=
  { s with tariffs := mapSet {} s.tariffs (octetNat e 0) (readTariffEntry e) }

/-- A LINKS entry (R185). -/
def fillLink (e : List Byte) (s : State) : State :=
  match (readLinkEntry e).1 with
  | some l => addClamps (readLinkEntry e).2 { s with links := mapInsert s.links (octetNat e 0) l }
  | none => addClamps (readLinkEntry e).2 s

/-- A COLLECTORS entry (R168). -/
def fillCollector (e : List Byte) (s : State) : State :=
  let n := octetNat e 0
  if 15 ≤ n ∨ n = s.loader.station.toNat then addClamps 1 s
  else if s.orders.collectors.contains (BitVec.ofNat 4 n) then s
  else { s with orders := { s.orders with collectors := s.orders.collectors ++ [BitVec.ofNat 4 n] } }

/-- A FIXED entry, number `n` in image order (R22). -/
def fillFixed (n : Nat) (e : List Byte) (s : State) : State :=
  let f := (readFixedEntry e).1
  let s1 := addClamps (readFixedEntry e).2 s
  if (keyIndex s1.fwd.table f.tenant f.addr).isSome then addClamps 1 s1
  else match freeSlot s1.fwd.table (bucketOf f.tenant f.addr) with
    | none => addClamps 1 s1
    | some i => putEntry i (fixedEntry n f) { s1 with fixed := mapInsert s1.fixed n f }

/-- The FIXED entries in image order. -/
def fillFixedAll : (n : Nat) → List (List Byte) → State → State
  | _, [], s => s
  | n, e :: es, s => fillFixedAll (n + 1) es (fillFixed n e s)

/-- The JOINs of the fixed entries with a local port, in image order (R22). -/
def announceAllFixed (s : State) : State := eachState (fun x => announceFixed x.2) s.fixed s

/-- The unknown directory entries, one clamp each (R197). -/
def unknownSects (img : List Byte) : Nat :=
  ((directory img).filter fun d => (entrySize d.kind).isNone).length

/-- Fills parameters and tables from a sound image, in the order of R188. -/
def fillTables (img : List Byte) (s : State) : State :=
  let s1 := fillParams (sectionEntries img 1 5) (addClamps (unknownSects img) s)
  let s2 := eachState fillPort (sectionEntries img 2 2) s1
  let s3 := eachState fillRule (sectionEntries img 3 16) s2
  let s4 := eachState fillTenant (sectionEntries img 4 18) s3
  let s5 := eachState fillTariff (sectionEntries img 5 13) s4
  let s6 := eachState fillLink (sectionEntries img 7 6) s5
  let s7 := eachState fillCollector (sectionEntries img 8 1) s6
  announceAllFixed (fillFixedAll 0 (sectionEntries img 6 10) s7)

/-! ## The end of LOADING (R183, R189, R191) -/

/-- The generators that restart at the end of LOADING (R183). -/
def restartGenerators (s : State) : State :=
  { s with time := { s.time with
      sampleDue := later s.time.now s.params.samplePeriod
      loadDue := some (later s.time.now (loadUs s))
      helloDue := some (later s.time.now (helloUs s)) } }

/-- Enters a start state. -/
def enterPhase (p : Phase) (s : State) : State :=
  { s with loader := { s.loader with phase := p, enteredAt := s.time.now } }

/-- The generators that start at the entry to JOINING, and the opened time of the first live interval (R191, R159). -/
def openJoining (s : State) : State :=
  { s with
    time := { s.time with
      refreshDue := some (later s.time.now (refreshUs s))
      intervalDue := some (later s.time.now (s.params.billing * second)) }
    meter := { s.meter with
      opened := if s.meter.everOpened then s.meter.opened else s.time.now, everOpened := true } }

/-- A port with carrier becomes UP at the entry to JOINING (R116). -/
def startPort (p : Port) (s : State) : Out :=
  if (s.port p).carrier ∧ (s.port p).link = .down then portToUp p s else .of s

/-- The entry to JOINING, with the tables filled (R191). DESIGN CHOICE (log entry 47): the ports with carrier become UP in
ascending number. -/
def enterJoining (s : State) : Out :=
  let s1 := openJoining (restartGenerators (enterPhase .joining s))
  ((eachOut startPort allPorts s1).andThen fun s2 =>
      if s2.uCount = 0 then turnIsolated true s2 else .of s2).also
    fun s3 => composeReach (composeLink (composeHello s3))

/-- A section of a kind that the directory places within the length and that the flash delivered (R189). -/
def salvageSect (img : List Byte) (k : Nat) : Option Sect :=
  if fieldNat img 0 4 = Config.imageMarker then
    (sectOf img k).filter fun d =>
      decide (d.offset + d.len ≤ imageLength img) && decide (d.offset + d.len ≤ img.length)
  else none

/-- The STATION values that FAILSAFE takes: serial, bit rate and hello period (R189). DESIGN CHOICE (log entry 21): the
pairs are those that the section's length holds, and an unknown identifier counts no clamp here. -/
def salvageParams (img : List Byte) : Clamped Params :=
  match salvageSect img 1 with
  | none => ({}, 0)
  | some d => takeParams (entriesAt img 5 { d with count := d.len / 5 }) [1, 2, 7] ({}, 0)

/-- The collector set that FAILSAFE takes; without one every source counts as a collector (R189, R168). DESIGN CHOICE (log
entry 21): where entry count and length differ, the smaller gives the number of collectors. -/
def salvageCollectors (img : List Byte) (s : State) : State :=
  match (salvageSect img 8).filter fun d => decide (d.count ≤ 4) with
  | none => { s with orders := { s.orders with anySource := true } }
  | some d => eachState fillCollector (entriesAt img 1 { d with count := min d.count d.len }) s

/-- The entry to FAILSAFE with its reason (R189). -/
def enterFailsafe (reason : Nat) (img : List Byte) (s : State) : State :=
  let p := salvageParams img
  let s1 := addClamps (p.2 + if 5 ≤ reason then unknownSects img else 0) { s with params := p.1 }
  let s2 := salvageCollectors img s1
  let s3 := enterPhase .failsafe { s2 with loader := { s2.loader with failReason := some reason } }
  composeHello (restartGenerators s3)

/-- The end of LOADING with the octets that the flash delivered (R188). -/
def endLoading (img : List Byte) (s : State) : Out :=
  match structuralFault s.loader.station img with
  | some reason => .of (enterFailsafe reason img s)
  | none => enterJoining (fillTables img s)

/-- IMAGE_LOAD_COMPLETE (R188): taken in LOADING alone. -/
def completeLoad (img : List Byte) (s : State) : Out :=
  if s.loader.phase = .loading then endLoading img s else .of s

/-! ## Resets (R192) -/

/-- A restart (R182, R192): the meter, the restart count and the waiting commands are kept; the straps are sampled
again, at a level that is free (log entry 5). -/
def restartState (s : State) : State :=
  { State.reset with
    pending := s.pending
    meter := s.meter
    loader := { State.reset.loader with
      station := Config.strapsAtRestart s.loader.strapReads, strapReads := s.loader.strapReads + 1
      restartCount := satInc s.loader.restartCount } }

/-- A full reset with the level of the strap pins (R192). -/
def resetState (straps : BitVec 4) (s : State) : State :=
  { State.reset with
    pending := s.pending
    loader := { State.reset.loader with station := straps, strapReads := s.loader.strapReads } }

/-! ## Refetch (R194) -/

/-- The entry size of a configuration kind. -/
def CfgKind.size : CfgKind → Nat
  | .rule => 16
  | .tenant => 18
  | .tariff => 13
  | .fixed => 10

/-- The entry is restored with the fields read and becomes GOOD (R194). -/
def restoreEntry (i : CfgItem) (e : List Byte) (s : State) : State :=
  match i.kind with
  | .rule => { s with rules := mapInsert s.rules i.number (readRule e).1 }
  | .tenant => { s with tenants := mapInsert s.tenants i.number (readTenantEntry e).1 }
  | .tariff => { s with tariffs := mapSet {} s.tariffs i.number (readTariffEntry e) }
  | .fixed => { s with fixed := mapInsert s.fixed i.number (readFixedEntry e).1 }

/-- A restored FIXED entry is inserted (R23). -/
def reinsertRestored (i : CfgItem) (e : List Byte) (s : State) : Out :=
  match i.kind with
  | .fixed =>
    let f := (readFixedEntry e).1
    (testBucket (bucketOf f.tenant f.addr) s).also (reinsertFixed i.number f)
  | _ => .of s

/-- The number of the first entry of a table in an integrity state. -/
def firstIn {α : Type} (f : α → Integrity) (v : Integrity) (m : List (Nat × α)) : Option Nat :=
  (m.find? fun x => f x.2 == v).map Prod.fst

/-- The WAITING entry that is queued next: rules, tenants, tariffs, fixed entries, each in order (R194). -/
def State.firstWaiting (s : State) : Option CfgItem :=
  ((firstIn Rule.integ .waiting s.rules).map (CfgItem.mk .rule)).or
    (((firstIn TenantEntry.integ .waiting s.tenants).map (CfgItem.mk .tenant)).or
      (((firstIn Tariff.integ .waiting s.tariffs).map (CfgItem.mk .tariff)).or
        ((firstIn FixedCfg.integ .waiting s.fixed).map (CfgItem.mk .fixed))))

/-- An item leaves the refetch queue, and a WAITING entry is queued (R194). -/
def leaveRefetch (s : State) : State :=
  let s1 := { s with loader := { s.loader with refetch := s.loader.refetch.drop 1, failures := 0 } }
  match s1.firstWaiting with
  | none => s1
  | some i => setInteg i .queued { s1 with loader := { s1.loader with refetch := s1.loader.refetch ++ [i] } }

/-- The end of a read of the front item (R194). -/
def endRead (i : CfgItem) (e : List Byte) (s : State) : Out :=
  if entryGood i.kind.size e then reinsertRestored i e (leaveRefetch (restoreEntry i e s))
  else if s.loader.failures < 2 then
    .of { s with loader := { s.loader with failures := s.loader.failures + 1 } }
  else
    .of (leaveRefetch (setInteg i .failed
      { s with loader := { s.loader with refetchFailed := satInc s.loader.refetchFailed } }))

/-- REFETCH_READ_COMPLETE with the octets that the flash delivered (R194). -/
def completeRead (e : List Byte) (s : State) : Out :=
  match s.loader.refetch with
  | [] => .of s
  | i :: _ => if s.acting then endRead i e s else .of s

end Sys2Proof.Machine
end

