-- ==== Sys2Proof/Machine/LineUnit.lean ====
section
/-! DEFINITION. The group line controller's sending side (R134 to R141) and the entry to CONFLICT (R146, R147). -/

namespace Sys2Proof.Machine

/-! ## Offering (R134) -/

/-- The waiting message of the lowest-numbered slot that holds one, and the line without it (R134). -/
def GroupLine.lowest (l : GroupLine) : Option (TxMsg × GroupLine) :=
  match l.wLink with
  | some m => some (m, { l with wLink := none })
  | none =>
  match l.wHello with
  | some m => some (m, { l with wHello := none })
  | none =>
  match l.wLoad with
  | some m => some (m, { l with wLoad := none })
  | none =>
  match l.answers with
  | m :: ms => some (m, { l with answers := ms })
  | [] =>
  match l.wReach with
  | some m => some (m, { l with wReach := none })
  | none =>
  match l.wEnd with
  | some m => some (m, { l with wEnd := none })
  | none =>
  match l.wRecord with
  | some m => some (m, { l with wRecord := none })
  | none => none

/-- MESSAGE_OFFERED: the line is idle (R134, R141). -/
def offerMessage (s : State) : State :=
  if s.lineStarted ∧ s.line.quiet = none ∧ s.line.onLine = none then
    match s.line.lowest with
    | some (m, l) => { s with line := { l with onLine := some m } }
    | none => s
  else s

/-! ## Leaving the line (R135, R136, R140) -/

/-- A newer message of the same slot waits (R135). -/
def GroupLine.newerWaits (l : GroupLine) (m : TxMsg) : Bool :=
  match m.body with
  | .link .. => l.wLink.isSome
  | .hello .. => l.wHello.isSome
  | .load .. => l.wLoad.isSome
  | _ => false

/-- A message is waiting again in its slot (R135). -/
def GroupLine.giveBack (m : TxMsg) (l : GroupLine) : GroupLine :=
  match m.body with
  | .link .. => { l with wLink := some m }
  | .hello .. => { l with wHello := some m }
  | .load .. => { l with wLoad := some m }
  | .answer .. => { l with answers := m :: l.answers }
  | .reach .. => { l with wReach := some m }
  | .endReport _ => { l with wEnd := some m }
  | .record .. => { l with wRecord := some m }

/-- The message on the line has left it. -/
def clearLine (s : State) : State := { s with line := { s.line with onLine := none } }

/-- A message is waiting again, unless a newer one of its slot waits: then it is dropped uncounted (R135). -/
def returnMessage (m : TxMsg) (s : State) : State :=
  if s.line.newerWaits m then s else { s with line := s.line.giveBack m }

/-- A withdrawn message is removed; its owner learns of it (R136). -/
def withdrawnOutcome (m : TxMsg) (s : State) : Out :=
  match m.body with
  | .record c _ _ _ => recordWithdrawn c s
  | _ => .of s

/-- The message is the accepted answer to a RESTART (R182). -/
def TxMsg.restarts (m : TxMsg) : Bool :=
  match m.body with
  | .answer kind _ none _ => kind == 8#8
  | _ => false

/-- What follows when a message has left its slot, completed or discarded: the restart that its answer stands for (R182),
the next REACH (R137), the channel's END (R178). -/
def slotFreed (m : TxMsg) (s : State) : State :=
  match m.body with
  | .answer .. => if m.restarts && s.orders.restartPending then restartState s else s
  | .reach .. => composeReach s
  | .endReport r => endGone r.chan s
  | _ => s

/-- A completed message at its owner (R135, R178). -/
def completedOutcome (m : TxMsg) (s : State) : Out :=
  match m.body with
  | .record c _ _ _ => recordSent c s
  | _ => .of (slotFreed m s)

/-- A discarded message at its owner (R140, R178). -/
def discardedOutcome (m : TxMsg) (s : State) : Out :=
  match m.body with
  | .record c _ _ records => recordLost c records.length s
  | _ => .of (slotFreed m s)

/-- ARBITRATION_LOST (R132, R136). -/
def loseArbitration (s : State) : Out :=
  match s.line.onLine with
  | none => .of s
  | some m =>
    if m.withdrawn then withdrawnOutcome m (clearLine s) else .of (returnMessage m (clearLine s))

/-- MESSAGE_COMPLETED (R135, R140). -/
def completeMessage (s : State) : Out :=
  match s.line.onLine with
  | none => .of s
  | some m => completedOutcome m { s with line := { s.line with onLine := none, discards := 0 } }

/-- LINE_QUIET is entered when the consecutive discards reach 32 (R141). -/
def enterQuiet (s : State) : State :=
  if s.line.discards = 32 then
    { s with line := { s.line with
        quiet := some (later s.time.now second), quietCount := satInc s.line.quietCount } }
  else s

/-- The counts of a discard after the ninth transmit error (R140, R141). -/
def countDiscard (s : State) : State :=
  enterQuiet { s with line := { s.line with
    txFailed := satInc s.line.txFailed, discards := s.line.discards + 1 } }

/-- TRANSMIT_ERROR (R140, R136). -/
def transmitErrorAt (s : State) : Out :=
  match s.line.onLine with
  | none => .of s
  | some m =>
    let s1 := clearLine { s with line := { s.line with txError := satInc s.line.txError } }
    if m.withdrawn then withdrawnOutcome m s1
    else if s1.line.newerWaits m then .of s1
    else if m.errors + 1 < 9 then .of (returnMessage { m with errors := m.errors + 1 } s1)
    else discardedOutcome m (countDiscard s1)

/-- LINE_QUIET_END while LINE_QUIET stands (R141). -/
def endQuiet (s : State) : State :=
  match s.line.quiet with
  | none => s
  | some t =>
    let s1 := reachTime t s
    { s1 with line := { s1.line with quiet := none, discards := 0 } }

/-! ## Number conflict (R146, R147) -/

/-- The message classes that CONFLICT silences. -/
def Body.silenced : Body → Bool
  | .hello .. => false
  | .answer .. => false
  | _ => true

/-- The line at the entry to CONFLICT: the flag is set and the silenced slots are empty (R147 cases 1 and 2). -/
def GroupLine.silence (l : GroupLine) : GroupLine :=
  { l with
    conflict := true, wLink := none, wLoad := none, wReach := none, wEnd := none, wRecord := none
    onLine := l.onLine.filter fun m => !m.body.silenced }

/-- An X-port is taken out of service (R147 case 5). -/
def retireX (x : XIndex) (s : State) : State := setPort (xPort x) clearFar (flushPort (xPort x) s)

/-- The export channels at the entry to CONFLICT (R178). -/
def conflictChannels (s : State) : State :=
  let s1 := eachState conflictChannel bothChans s
  { s1 with chans := { s1.chans with readyEnds := [] } }

/-- The entry to CONFLICT (R147). -/
def enterConflict (s : State) : Out :=
  let s1 := composeHello (conflictChannels { s with line := s.line.silence })
  ((eachOut freeSlotNow allSlots s1).also fun s2 => eachState retireX allX s2).andThen dropLostDiversion

/-- A HELLO under this station's own number that it did not send (R146). -/
def ownHello (s : State) : Out := if s.line.conflict then .of s else enterConflict s

end Sys2Proof.Machine
end

