-- ==== Sys2Proof/WellFormed.lean ====
section
/-! DEFINITION. Which commands the outside can give: the bounds that the receive checks (R142) and the formats
(Tables 12-2 and 12-4) put on a message before its command arises. Every meaning is total; an ill-formed command
is handled as the message it spells. -/

namespace Sys2Proof

/-- A message that passed the receive checks has a source other than 15 and at most 120 payload octets (R142). -/
def goodMessage (src : Station) (payload : List Byte) : Bool :=
  src != 15#4 && decide (payload.length ≤ 120)

/-- An order's payload holds its kind and tag, 3 octets, before the parameters. -/
def goodOrder (src : Station) (params : List Byte) : Bool :=
  src != 15#4 && decide (params.length ≤ 117)

/-- The kinds of order that the station knows, 1 to 8 (Table 12-4). -/
def knownKind (k : Byte) : Bool :=
  decide (1 ≤ k.toNat) && decide (k.toNat ≤ 8)

/-- The bounds of each command. -/
def Instr.wf : Instr → Bool
  | .frameReceived _ octets => !octets.isEmpty
  | .transmissionEnd _ | .carrierUp _ | .carrierDown _ | .holdExpiry _ | .decayExpiry _ => true
  | .oneSecondEvent | .agingVisit | .sample | .loadDue | .helloDue | .refreshEnd | .sweepVisit => true
  | .intervalEnd | .shareWindow | .lapseExpiry _ | .silenceExpiry _ | .joinExpiry _ => true
  | .lingerExpiry _ | .loadFreshnessExpiry _ | .lineQuietEnd | .messageOffered => true
  | .arbitrationLost | .transmitError | .messageCompleted => true
  | .messageDiscardedRx octets _ _ => !octets.isEmpty
  | .helloReceived src _ payload | .linkReceived src _ payload => goodMessage src payload
  | .loadReceived src _ payload | .reachReceived src _ payload => goodMessage src payload
  | .startExport src _ _ ps | .haltExport src _ _ ps | .holdExport src _ _ ps => goodOrder src ps
  | .resumeExport src _ _ ps | .discardInterval src _ _ ps | .closeInterval src _ _ ps => goodOrder src ps
  | .status src _ _ ps | .restart src _ _ ps => goodOrder src ps
  | .unknownOrder src _ payload =>
      goodMessage src payload && (payload.length < 3 || !knownKind (payload.headD 0))
  | .refetchReadComplete octets => decide (octets.length ≤ 18)
  | .fullReset _ | .imageLoadComplete _ => true
  | .messageNotHandedOn cls src _ => src != 15#4 && (cls == 4#4 || cls == 6#4 || cls == 7#4)

end Sys2Proof
end

