-- ==== Sys2Proof/Machine/OrderUnit.lean ====
section
/-! DEFINITION. The order handler (chapter 10): authority, intake, the eight orders, and the STATUS parts. -/

namespace Sys2Proof.Machine

/-! ## Intake and answers (R168, R169) -/

/-- The decision on an order: a refusal or acceptance with data. -/
structure Verdict where
  refusal : Option Reason
  data : AnswerData

/-- An order is refused; nothing else changes. -/
def refuse (r : Reason) (s : State) : Verdict × Out := (⟨some r, .none⟩, .of s)

/-- An order is accepted with its data. -/
def accept (d : AnswerData) (o : Out) : Verdict × Out := (⟨none, d⟩, o)

/-- Appends an answer at the back of the answer queue (R138, R169). -/
def appendAnswer (dst : Station) (kind : Byte) (tag : BitVec 16) (v : Verdict) (s : State) : State :=
  { s with line := { s.line with
      answers := s.line.answers ++ [{ dst := dst, body := .answer kind tag v.refusal v.data }] } }

/-- The source may give orders (R168). -/
def State.mayOrder (s : State) (src : Station) : Bool :=
  s.orders.collectors.contains src || s.orders.anySource

/-- The kinds taken with destination 15: CLOSE_INTERVAL and STATUS (R168). -/
def broadcastKind (k : Byte) : Bool := k == 6 || k == 7

/-- The kinds accepted in FAILSAFE and CONFLICT: STATUS and RESTART (R169 case 4). -/
def failsafeKind (k : Byte) : Bool := k == 7 || k == 8

/-- The verdict of cases (3) to (5) of R169. -/
def judgeOrder (kind : Byte) (f : State → Verdict × Out) (s : State) : Verdict × Out :=
  if !knownKind kind then refuse .badParameter s
  else if (s.loader.phase == .failsafe || s.line.conflict) && !failsafeKind kind then refuse .notReady s
  else f s

/-- An order handed on (R168, R169); `f` is the rule of its kind. -/
def takeOrder (src dst : Station) (kind : Byte) (tag : BitVec 16) (f : State → Verdict × Out) (s : State) : Out :=
  if !s.mayOrder src then .of { s with orders := { s.orders with ignored := satInc s.orders.ignored } }
  else if dst = 15#4 ∧ broadcastKind kind = false then .of s
  else if s.orders.restartPending ∨ Config.answerLimit ≤ s.answerLength then
    .of { s with orders := { s.orders with dropped := satInc s.orders.dropped } }
  else
    let v := judgeOrder kind f s
    v.2.also (appendAnswer src kind tag v.1)

/-! ## START_EXPORT (R171) -/

/-- The source interval that an order names: its number, or the oldest for 0. -/
def State.named (s : State) (n : Nat) : Option Interval :=
  if n = 0 then s.meter.queue.head? else s.interval (BitVec.ofNat 32 n)

/-- The parameters that R171 refuses last. -/
def StartParams.bad (own : Station) (p : StartParams) : Bool :=
  decide (p.high.toNat < p.low.toNat) || p.stop.any (fun r => decide (r.2.toNat < r.1.toNat))
    || decide (15 ≤ p.dst) || decide (p.dst = own.toNat) || decide (1 < p.priority) || decide (1024 < p.limit)

/-- The share limit in force (R171). -/
def shareInForce (n : Nat) : Nat := if n = 0 then 1 else min n 50

/-- The context of a started channel (R171). -/
def startedChannel (p : StartParams) (n : Count) (old : Channel) : Channel :=
  { state := .running, source := n, filterLow := p.low, filterHigh := p.high, stop := p.stop, limit := p.limit
    single := p.single, event := p.event, translate := p.translate, dst := BitVec.ofNat 4 p.dst
    priority := p.priority, shareLimit := shareInForce p.share, shareUsed := old.shareUsed }

/-- START_EXPORT on channel `c` (R171). -/
def startOn (c : Fin 2) (p : StartParams) (s : State) : Verdict × Out :=
  if (s.chan c).state ≠ .idle ∨ (s.chan c).settling then refuse .busy s
  else match s.named p.interval with
    | none => refuse .noInterval s
    | some i =>
      if p.bad s.loader.station then refuse .badParameter s
      else accept (.started i.number i.records.length (shareInForce p.share))
        (produce false c (setChan c (startedChannel p i.number) s))

/-- START_EXPORT (R171, R196). -/
def orderStart (ps : List Byte) (s : State) : Verdict × Out :=
  match readStart ps, readChan ps with
  | some p, some c => startOn c p s
  | _, _ => refuse .badParameter s

/-! ## Channel orders (R175 to R177) -/

/-- HALT_EXPORT (R176). -/
def orderHalt (ps : List Byte) (s : State) : Verdict × Out :=
  match readChan ps with
  | none => refuse .badParameter s
  | some c =>
    if (s.chan c).settling then refuse .busy s
    else if (s.chan c).state = .idle then refuse .wrongState s
    else accept .none (.of (haltChannel c s))

/-- HOLD_EXPORT (R175). -/
def orderHold (ps : List Byte) (s : State) : Verdict × Out :=
  match readChan ps with
  | none => refuse .badParameter s
  | some c =>
    if (s.chan c).state = .running then accept (.chanState .held) (.of (holdChannel c s))
    else refuse .wrongState s

/-- RESUME_EXPORT (R177). -/
def orderResume (ps : List Byte) (s : State) : Verdict × Out :=
  match readChan ps with
  | none => refuse .badParameter s
  | some c =>
    if (s.chan c).settling then refuse .busy s
    else if (s.chan c).state = .idle ∨ (s.chan c).state = .running then refuse .wrongState s
    else accept .none (produce true c (setChan c (fun x => { x with state := .running, sent := 0 }) s))

/-! ## Interval orders and RESTART (R164, R181, R182) -/

/-- DISCARD_INTERVAL of interval `n` (R164, R181). -/
def discardOf (n : Count) (s : State) : Verdict × Out :=
  match s.discardRefusal n with
  | some r => refuse r s
  | none =>
    accept (.discarded
      (if s.meter.deferral && s.meter.number != BitVec.allOnes 32 then some s.meter.number else none))
      (removeInterval n s)

/-- DISCARD_INTERVAL (R181, R196). -/
def orderDiscard (ps : List Byte) (s : State) : Verdict × Out :=
  if ps.length < 4 then refuse .badParameter s else discardOf (BitVec.ofNat 32 (fieldNat ps 0 4)) s

/-- CLOSE_INTERVAL (R181). -/
def orderClose (s : State) : Verdict × Out :=
  accept (if s.closes then .closed s.meter.number else .deferred (s.meter.span + 1)) (boundary s)

/-- RESTART (R182). -/
def orderRestart (s : State) : Verdict × Out :=
  accept .none (.of { s with orders := { s.orders with restartPending := true } })

/-! ## STATUS (R181, Table 12-4) -/

/-- The number of configuration entries in an integrity state. -/
def State.integCount (s : State) (v : Integrity) : Nat :=
  (s.rules.filter fun x => x.2.integ == v).length + (s.tenants.filter fun x => x.2.integ == v).length
    + (s.tariffs.filter fun x => x.2.integ == v).length + (s.fixed.filter fun x => x.2.integ == v).length

/-- STATION part 0 (R195). -/
def State.identityPart (s : State) : StationIdentity where
  station := s.loader.station
  serial := s.params.serial
  phase := s.loader.phase
  now := s.time.now
  inPhase := s.time.now - s.loader.enteredAt
  failReason := s.loader.failReason
  clamps := s.loader.clamps
  integrityFaults := s.loader.integrityFaults
  refetchFailed := s.loader.refetchFailed
  restartCount := s.loader.restartCount
  refetchLength := s.loader.refetch.length
  waiting := s.integCount .waiting
  failed := s.integCount .failed

/-- STATION part 1 (R73, R96, R108, R167). -/
def State.loadPart (s : State) : StationLoad where
  free := s.buffer.free
  cellsHeld := s.cellsHeld
  classLimit := s.params.classLimit
  uplink := s.load.uplink
  divPeer := s.load.divPeer
  share := s.load.share
  loadIgnored := s.load.loadIgnored
  restraintOn := s.restraint.on
  slot := s.restraint.slot
  nextStart := s.restraint.nextStart
  listed := s.restraint.list.length
  denied := s.restraint.denied.length
  onLevel := s.params.onLevel
  offLevel := s.params.offLevel
  window := s.params.window
  pendingIntervals := s.meter.queue.length
  deferral := s.meter.deferral

/-- For slots 0 to 7: whether one is on the line and whether one waits (R150). Slot 4 holds the front of the answer queue
alone, so none waits in it while an answer is on the line (R138). -/
def GroupLine.slotsHeld (l : GroupLine) : List (Bool × Bool) :=
  [(l.sending 0, l.wLink.isSome), (l.sending 1, l.wHello.isSome), (false, false), (l.sending 3, l.wLoad.isSome),
   (l.sending 4, !l.sending 4 && !l.answers.isEmpty), (l.sending 5, l.wReach.isSome), (l.sending 6, l.wEnd.isSome),
   (l.sending 7, l.wRecord.isSome)]

/-- STATION part 2 (R37, R129, R150, R169, R196). -/
def State.noticesPart (s : State) : StationNotices where
  learnRefused := s.fwd.learnRefused
  reachRefused := s.fwd.reachRefused
  reachIgnored := s.fwd.reachIgnored
  sweepOverrun := s.fwd.sweepOverrun
  occupied := s.fwd.table.length
  fixedEntries := (s.fwd.table.filter fun x => x.2.origin != .learned).length
  reachLength := s.fwd.queue.length
  resweep := s.fwd.resweep
  sweep := s.fwd.sweep
  sweepDue := s.fwd.sweepDue
  isolated := s.peers.isolated
  uCount := s.uCount
  bondUp := s.bondUp
  genCounter := s.peers.genCounter
  tableFull := s.peers.tableFull
  linkIgnored := s.peers.linkIgnored
  rxError := s.line.rxError
  txError := s.line.txError
  txFailed := s.line.txFailed
  quietCount := s.line.quietCount
  numberClash := s.line.numberClash
  conflict := s.line.conflict
  quietLeft := s.line.quiet.map fun t => t - s.time.now
  discards := s.line.discards
  answerLength := s.answerLength
  bitRate := s.params.bitRate
  slotsHeld := s.line.slotsHeld
  formatError := s.line.formatError
  ordersIgnored := s.orders.ignored
  ordersDropped := s.orders.dropped

/-- STATION part 3 (R195). -/
def State.linksPart (s : State) : StationLinks where
  links := (List.range 16).map fun n => (mapFind s.links n).map fun l => (l.count, l.pend)
  rules := (List.range 64).map fun n => (mapFind s.rules n).map fun r => r.integ
  tariffs := (List.range 16).map fun n => (s.tariff n).integ

/-- PORT n part 0 (R129, R96). DESIGN CHOICE (log entry 20): the load index and the peak state stand in this part. -/
def State.portLinkPart (s : State) (p : Port) : PortLink where
  link := (s.port p).link
  penalty := (s.port p).penalty
  holdLeft := (s.port p).holdExpiry.map fun t => t - s.time.now
  carrier := (s.port p).carrier
  badFrames := (s.port p).badFrames
  far := (s.port p).far.map fun st => (st, (s.port p).farSerial)
  looped := (s.port p).looped
  loadIndex := match asU p, asX p with
    | some u, _ => some (s.uLoad u)
    | none, some x => some (s.xLoad x)
    | none, none => none
  peak := (asU p).map fun u => s.load.peak[u.val]

/-- PORT n part 1 (R73, R3). -/
def State.portCountsPart (s : State) (p : Port) : PortCounts where
  queues := allCls.map fun c => (((s.buffer.ports[p]).classes[c]).occ, ((s.buffer.ports[p]).classes[c]).num)
  txCopies := (s.buffer.ports[p]).txCopies
  txOctets := (s.buffer.ports[p]).txOctets
  drops := (s.port p).drops

/-- A PEERS part: one slot (R129, R96, R42). -/
def State.peerPart (s : State) (x : PeerSlot) : PeerReport where
  station := x.station
  serial := x.serial
  state := x.state
  gen := x.gen
  seenRunning := x.seenRunning
  collision := x.collision
  sinceHeard := s.time.now - x.lastHeard
  direct := s.directX x.station
  reachMap := x.reachMap
  bondUp := x.bondUp
  uCount := x.uCount
  isolated := x.isolated
  uplink := x.uplink.map Prod.fst
  freshness := s.freshness x
  xIdx := x.xIdx
  dPeer := x.dPeer
  dShare := x.dShare
  rCount := x.rCount
  relay := x.relay

/-- TENANT t part 0 (R73, R108, R195). -/
def State.tenantPart (s : State) (t : Tenant) : TenantReport where
  occupancy := s.tenantCells t
  listed := (s.listedStart t).map fun start => (start, s.windowOpen start)
  denied := s.restraint.denied.contains t
  quota := (s.setting t).quota
  exempt := (s.setting t).exempt
  integ := (mapFind s.tenants t.toNat).map fun e => e.integ

/-- The header of a pending interval with the channels that read it (R167). -/
def State.headerOf (s : State) (i : Interval) : IntervalHeader where
  number := i.number
  span := i.span
  opened := i.opened
  closed := i.closed
  marks := i.marks
  records := i.records.length
  readers := s.readers i.number

/-- INTERVALS part 0 (R167). -/
def State.intervalsPart (s : State) : IntervalsReport where
  number := s.meter.number
  span := s.meter.span
  opened := s.meter.opened
  marks := s.meter.marks
  deferral := s.meter.deferral
  pending := s.meter.queue.map s.headerOf

/-- An accepted STATUS without side effects. -/
def statusOf (part count : Nat) (items : StatusPart) (s : State) : Verdict × Out :=
  accept (.status part count items) (.of s)

/-- STATUS of STATION: four parts. -/
def statusStation (part : Nat) (s : State) : Verdict × Out :=
  match part with
  | 0 => statusOf 0 4 (.stationIdentity s.identityPart) s
  | 1 => statusOf 1 4 (.stationLoad s.loadPart) s
  | 2 => statusOf 2 4 (.stationNotices s.noticesPart) s
  | 3 => statusOf 3 4 (.stationLinks s.linksPart) s
  | _ => refuse .badParameter s

/-- STATUS of PORT n: two parts. -/
def statusPort (n part : Nat) (s : State) : Verdict × Out :=
  if h : n < 33 then
    match part with
    | 0 => statusOf 0 2 (.portLink (s.portLinkPart ⟨n, h⟩)) s
    | 1 => statusOf 1 2 (.portCounts (s.portCountsPart ⟨n, h⟩)) s
    | _ => refuse .badParameter s
  else refuse .badParameter s

/-- STATUS of PEERS: one part per slot. -/
def statusPeers (part : Nat) (s : State) : Verdict × Out :=
  if h : part < 5 then statusOf part 5 (.peer ((s.slot ⟨part, h⟩).map s.peerPart)) s
  else refuse .badParameter s

/-- The four accumulators of a tenant, by number. -/
def tenantAccs (t : Tenant) : List Nat := allCls.map (accKey t)

/-- STATUS of TENANT t: two parts; the second reads the accumulators (R157, R167). -/
def statusTenant (t : Tenant) (part : Nat) (s : State) : Verdict × Out :=
  match part with
  | 0 => statusOf 0 2 (.tenant (s.tenantPart t)) s
  | 1 =>
    let o := eachOut testAcc (tenantAccs t) s
    accept (.status 1 2 (.accumulators ((tenantAccs t).map o.st.acc))) o
  | _ => refuse .badParameter s

/-- STATUS of INTERVALS: three parts. -/
def statusIntervals (part : Nat) (s : State) : Verdict × Out :=
  match part with
  | 0 => statusOf 0 3 (.intervals s.intervalsPart) s
  | 1 => statusOf 1 3 (.channel (s.chan 0) (s.chan 0).settling) s
  | 2 => statusOf 2 3 (.channel (s.chan 1) (s.chan 1).settling) s
  | _ => refuse .badParameter s

/-- STATUS (R181, R196). -/
def orderStatus (ps : List Byte) (s : State) : Verdict × Out :=
  if ps.length < 3 then refuse .badParameter s
  else
    let index := octetNat ps 1
    let part := octetNat ps 2
    match octetNat ps 0 with
    | 1 => statusStation part s
    | 2 => statusPort index part s
    | 3 => statusPeers part s
    | 4 => statusTenant (ps.getD 1 0) part s
    | 5 => statusIntervals part s
    | _ => refuse .badParameter s

/-- The rule of a known kind on its parameters (R171 to R182). -/
def orderRule (kind : Byte) (ps : List Byte) : State → Verdict × Out :=
  match kind.toNat with
  | 1 => orderStart ps
  | 2 => orderHalt ps
  | 3 => orderHold ps
  | 4 => orderResume ps
  | 5 => orderDiscard ps
  | 6 => orderClose
  | 7 => orderStatus ps
  | 8 => orderRestart
  | _ => refuse .badParameter

/-- Octet `i` of an ORDER payload, a free value when the payload is too short to hold it. -/
def orderOctet (l : List Byte) (i : Nat) : Byte := l.getD i (Config.missingOrderOctet l.length i)

/-- The tag of an ORDER payload. -/
def orderTag (l : List Byte) : BitVec 16 := orderOctet l 1 ++ orderOctet l 2

/-- An ORDER by its whole payload (R169, R196); one too short to hold its kind and tag is refused when it is decided. -/
def takeOrderPayload (src dst : Station) (l : List Byte) (s : State) : Out :=
  takeOrder src dst (orderOctet l 0) (orderTag l)
    (if l.length < 3 then refuse .badParameter else orderRule (orderOctet l 0) (l.drop 3)) s

end Sys2Proof.Machine
end

