-- ==== Sys2Proof/Machine/ReceiveUnit.lean ====
section
/-! DEFINITION. Reception on the group line (R142 to R144, R196): receive checks, own number, last heard time, dispatch. -/

namespace Sys2Proof.Machine

/-- RX_ERROR increases (R142). -/
def countRxError (s : State) : State :=
  { s with line := { s.line with rxError := satInc s.line.rxError } }

/-- A good message of this station's number that it did not send (R143). -/
def ownNumber (cls : Nat) (s : State) : Out :=
  if cls = 1 then ownHello s
  else .of { s with line := { s.line with numberClash := satInc s.line.numberClash } }

/-- A message of class `cls` that the station did not send, at its reception (R142 to R144); `f` is its dispatch. -/
def receive (cls : Nat) (src dst : Station) (payload : List Byte) (f : State → Out) (s : State) : Out :=
  if !s.lineStarted then .of s
  else if src = 15#4 ∨ 8 ≤ cls ∨ 120 < payload.length then .of (countRxError s)
  else if src = s.loader.station then ownNumber cls s
  else if dst = s.loader.station ∨ dst = 15#4 then f (refreshHeard src s)
  else .of (refreshHeard src s)

/-- A payload that fails its checks is discarded and counted; any other is taken (R196). -/
def withPayload {α : Type} (r : Option α) (f : α → State → Out) (s : State) : Out :=
  match r with
  | none => .of { s with line := { s.line with formatError := satInc s.line.formatError } }
  | some x => f x s

/-- The dispatch of a message by its class (Table 8-3). -/
def dispatch (cls : Nat) (src dst : Station) (payload : List Byte) : State → Out :=
  match cls with
  | 0 => withPayload (readLink payload) (takeLink src)
  | 1 => withPayload (readHello payload) (takeHello src)
  | 2 => takeOrderPayload src dst payload
  | 3 => withPayload (readLoad payload) fun r s => .of (takeLoad src r s)
  | 5 => withPayload (readReach payload) (takeReach src)
  | _ => Out.of

/-- A message as received, in octets (R142); one that passes every check is handled as the message it is. -/
def receiveOctets (m : List Byte) (ranOn own : Bool) (s : State) : Out :=
  if !s.lineStarted then .of s
  else if rxFails m ranOn then .of (countRxError s)
  else if own then .of s
  else
    let h := rxHeader m
    receive h.cls h.src h.dst (rxPayload m) (dispatch h.cls h.src h.dst (rxPayload m)) s

/-- An ORDER whose kind its command names (R169). -/
def receiveOrder (kind : Byte) (src dst : Station) (tag : BitVec 16) (ps : List Byte) (s : State) : Out :=
  receive 2 src dst (kind :: beOctets 2 tag.toNat ++ ps) (takeOrder src dst kind tag (orderRule kind ps)) s

end Sys2Proof.Machine
end

