-- ==== Sys2Proof/Machine/PeriodUnit.lean ====
section
/-! DEFINITION. The periodic events of the time base (Table 11-1). Each takes the station time to its due time; the next one is
due one period later (R183, log entry 2). -/

namespace Sys2Proof.Machine

/-- SAMPLE is raised: the time and the next due time. -/
def raiseSample (s : State) : State :=
  let s1 := reachTime s.time.sampleDue s
  { s1 with time := { s1.time with sampleDue := later s.time.sampleDue s.params.samplePeriod } }

/-- SAMPLE (R77, R99, R186): the load unit, the restraint unit, then the hold-offs, in JOINING and RUNNING. -/
def takeSample (s : State) : Out :=
  let s1 := raiseSample s
  if s1.acting then ((sampleLoad s1).andThen sampleRestraint).andThen lowerHoldOffs else .of s1

/-- LOAD_DUE (R82), once its generator runs. -/
def takeLoadDue (s : State) : State :=
  match s.time.loadDue with
  | none => s
  | some t =>
    let s1 := reachTime t s
    composeLoad { s1 with time := { s1.time with loadDue := some (later t (loadUs s)) } }

/-- The HELLO_DUE count since the entry to JOINING increases; the third one leads to RUNNING (R191). -/
def countHello (s : State) : State :=
  let s1 := { s with loader := { s.loader with helloCount := s.loader.helloCount + 1 } }
  if s1.loader.phase = .joining ∧ s1.loader.helloCount = 3 then enterPhase .running s1 else s1

/-- Every fourth HELLO_DUE since the entry to JOINING composes a LINK (R126). -/
def periodicLink (s : State) : State := if s.loader.helloCount % 4 = 0 then composeLink s else s

/-- What a HELLO_DUE does in JOINING and RUNNING: the count, the port hellos and the periodic LINK (R117, R126, R191).
DESIGN CHOICE (log entry 47): the X-ports take cells for their hellos in the order X0 to X4. -/
def actHello (s : State) : State :=
  if s.acting then periodicLink (eachState makePortHello allX (countHello s)) else s

/-- HELLO_DUE (R145), once its generator runs. -/
def takeHelloDue (s : State) : State :=
  match s.time.helloDue with
  | none => s
  | some t =>
    let s1 := reachTime t s
    composeHello (actHello { s1 with time := { s1.time with helloDue := some (later t (helloUs s)) } })

/-- REFRESH_END (R30, R32), once its generator runs. -/
def takeRefreshEnd (s : State) : State :=
  match s.time.refreshDue with
  | none => s
  | some t =>
    let s1 := reachTime t s
    endRefresh { s1 with time := { s1.time with refreshDue := some (later t (refreshUs s)) } }

/-- INTERVAL_END (R160), once its generator runs. -/
def takeIntervalEnd (s : State) : Out :=
  match s.time.intervalDue with
  | none => .of s
  | some t =>
    let s1 := reachTime t s
    boundary { s1 with time := { s1.time with intervalDue := some (later t (s.params.billing * second)) } }

/-- The one-second event is raised: the time and the next due time. -/
def raiseSecond (s : State) : State :=
  let s1 := reachTime s.time.secondDue s
  { s1 with time := { s1.time with secondDue := later s.time.secondDue second } }

/-- An aging pass starts at bucket 0 (R33). -/
def startAging (s : State) : State := { s with fwd := { s.fwd with agingPos := 0, agingOn := true } }

/-- ONE_SECOND_EVENT (R113, R33): nothing acts on it in LOADING. DESIGN CHOICE (log entry 47): the ports are compared in
ascending number. -/
def takeSecond (s : State) : Out :=
  let s1 := raiseSecond s
  if s1.loader.phase = .loading then .of s1 else (eachOut portSecond allPorts s1).also startAging

/-- SHARE_WINDOW (R179): the share used of both channels is 0 again. -/
def takeShareWindow (s : State) : State :=
  let s1 := reachTime s.time.shareDue s
  let s2 := { s1 with time := { s1.time with shareDue := later s.time.shareDue 1000 } }
  fillRecord (eachState (fun c => setChan c fun x => { x with shareUsed := 0 }) bothChans s2)

end Sys2Proof.Machine
end

