-- ==== Sys2Proof/Machine/Ending.lean ====
section
/-! DEFINITION. How a command ends: with its changes, and the events they raised taken by the event link table. -/

namespace Sys2Proof.Machine

/-- A command completes: its changes are made, and the events it raised are taken (R186). -/
def done (o : Out) : Host.Outcome State Fault Refusal := .next (conclude o)

end Sys2Proof.Machine
end

