-- ==== Sys2Proof/Machine/DataPath.lean ====
section
/-! DEFINITION. FRAME_RECEIVED and TRANSMISSION_END. -/

namespace Sys2Proof.Machine

/-- FRAME_RECEIVED (R1 to R72). -/
def execFrameReceived (port : Port) (octets : List Byte) (s : State) : Host.Outcome State Fault Refusal :=
  done (takeFrame port octets s)

/-- TRANSMISSION_END (R69). -/
def execTransmissionEnd (port : Port) (s : State) : Host.Outcome State Fault Refusal :=
  done (.of (endTransmission port s))

end Sys2Proof.Machine
end

