-- ==== Sys2Proof/Machine/OrderCommands.lean ====
section
/-! DEFINITION. The orders. -/

namespace Sys2Proof.Machine

/-- START_EXPORT (R171). -/
def execStartExport (src dst : Station) (tag : BitVec 16) (params : List Byte)
    (s : State) : Host.Outcome State Fault Refusal :=
  done (receiveOrder 1 src dst tag params s)

/-- HALT_EXPORT (R176). -/
def execHaltExport (src dst : Station) (tag : BitVec 16) (params : List Byte)
    (s : State) : Host.Outcome State Fault Refusal :=
  done (receiveOrder 2 src dst tag params s)

/-- HOLD_EXPORT (R175). -/
def execHoldExport (src dst : Station) (tag : BitVec 16) (params : List Byte)
    (s : State) : Host.Outcome State Fault Refusal :=
  done (receiveOrder 3 src dst tag params s)

/-- RESUME_EXPORT (R177). -/
def execResumeExport (src dst : Station) (tag : BitVec 16) (params : List Byte)
    (s : State) : Host.Outcome State Fault Refusal :=
  done (receiveOrder 4 src dst tag params s)

/-- DISCARD_INTERVAL (R164, R181). -/
def execDiscardInterval (src dst : Station) (tag : BitVec 16) (params : List Byte)
    (s : State) : Host.Outcome State Fault Refusal :=
  done (receiveOrder 5 src dst tag params s)

/-- CLOSE_INTERVAL (R181). -/
def execCloseInterval (src dst : Station) (tag : BitVec 16) (params : List Byte)
    (s : State) : Host.Outcome State Fault Refusal :=
  done (receiveOrder 6 src dst tag params s)

/-- STATUS (R181). -/
def execStatus (src dst : Station) (tag : BitVec 16) (params : List Byte)
    (s : State) : Host.Outcome State Fault Refusal :=
  done (receiveOrder 7 src dst tag params s)

/-- RESTART (R182). -/
def execRestart (src dst : Station) (tag : BitVec 16) (params : List Byte)
    (s : State) : Host.Outcome State Fault Refusal :=
  done (receiveOrder 8 src dst tag params s)

/-- UNKNOWN_ORDER (R169). -/
def execUnknownOrder (src dst : Station) (payload : List Byte) (s : State) : Host.Outcome State Fault Refusal :=
  done (receive 2 src dst payload (takeOrderPayload src dst payload) s)

end Sys2Proof.Machine
end

