-- ==== Sys2Proof/Machine/PeerCommands.lean ====
section
/-! DEFINITION. The expiries of the peer slots. -/

namespace Sys2Proof.Machine

/-- SILENCE_EXPIRY (R122). -/
def execSilenceExpiry (slot : SlotNo) (s : State) : Host.Outcome State Fault Refusal :=
  done (expireSilence slot s)

/-- JOIN_EXPIRY (R121). -/
def execJoinExpiry (slot : SlotNo) (s : State) : Host.Outcome State Fault Refusal :=
  done (expireJoin slot s)

/-- LINGER_EXPIRY (R124). -/
def execLingerExpiry (slot : SlotNo) (s : State) : Host.Outcome State Fault Refusal :=
  done (expireLinger slot s)

/-- LOAD_FRESHNESS_EXPIRY (R85). -/
def execLoadFreshnessExpiry (slot : SlotNo) (s : State) : Host.Outcome State Fault Refusal :=
  done (.of (expireFreshness slot s))

end Sys2Proof.Machine
end

