-- ==== Sys2Proof/Machine/PeriodicCommands.lean ====
section
/-! DEFINITION. SAMPLE, LOAD_DUE, HELLO_DUE, INTERVAL_END and SHARE_WINDOW. -/

namespace Sys2Proof.Machine

/-- SAMPLE (R77, R99, R186). -/
def execSample (s : State) : Host.Outcome State Fault Refusal :=
  done (takeSample s)

/-- LOAD_DUE (R82). -/
def execLoadDue (s : State) : Host.Outcome State Fault Refusal :=
  done (.of (takeLoadDue s))

/-- HELLO_DUE (R145). -/
def execHelloDue (s : State) : Host.Outcome State Fault Refusal :=
  done (.of (takeHelloDue s))

/-- INTERVAL_END (R160). -/
def execIntervalEnd (s : State) : Host.Outcome State Fault Refusal :=
  done (takeIntervalEnd s)

/-- SHARE_WINDOW (R179). -/
def execShareWindow (s : State) : Host.Outcome State Fault Refusal :=
  done (.of (takeShareWindow s))

end Sys2Proof.Machine
end

