-- ==== Sys2Proof/Machine/PortCommands.lean ====
section
/-! DEFINITION. Carrier reports, hold, decay and lapse expiries, the one-second event. -/

namespace Sys2Proof.Machine

/-- CARRIER_UP (R110). -/
def execCarrierUp (port : Port) (s : State) : Host.Outcome State Fault Refusal :=
  done (takeCarrierUp port s)

/-- CARRIER_DOWN (R110, R112). -/
def execCarrierDown (port : Port) (s : State) : Host.Outcome State Fault Refusal :=
  done (takeCarrierDown port s)

/-- HOLD_EXPIRY (R111). -/
def execHoldExpiry (port : Port) (s : State) : Host.Outcome State Fault Refusal :=
  done (expireHold port s)

/-- DECAY_EXPIRY (R114). -/
def execDecayExpiry (port : Port) (s : State) : Host.Outcome State Fault Refusal :=
  done (.of (expireDecay port s))

/-- ONE_SECOND_EVENT (R113, R33). -/
def execOneSecondEvent (s : State) : Host.Outcome State Fault Refusal :=
  done (takeSecond s)

/-- LAPSE_EXPIRY (R119). -/
def execLapseExpiry (x : XIndex) (s : State) : Host.Outcome State Fault Refusal :=
  done (expireLapse x s)

end Sys2Proof.Machine
end

