-- ==== Sys2Proof/Machine/ReceiveCommands.lean ====
section
/-! DEFINITION. The receiving side of the group line, orders apart. -/

namespace Sys2Proof.Machine

/-- MESSAGE_DISCARDED_RX (R142). -/
def execMessageDiscardedRx (octets : List Byte) (ranOn own : Bool) (s : State) : Host.Outcome State Fault Refusal :=
  done (receiveOctets octets ranOn own s)

/-- HELLO_RECEIVED (R120, R146). -/
def execHelloReceived (src dst : Station) (payload : List Byte) (s : State) : Host.Outcome State Fault Refusal :=
  done (receive 1 src dst payload (withPayload (readHello payload) (takeHello src)) s)

/-- LINK_RECEIVED (R127). -/
def execLinkReceived (src dst : Station) (payload : List Byte) (s : State) : Host.Outcome State Fault Refusal :=
  done (receive 0 src dst payload (withPayload (readLink payload) (takeLink src)) s)

/-- LOAD_RECEIVED (R84). -/
def execLoadReceived (src dst : Station) (payload : List Byte) (s : State) : Host.Outcome State Fault Refusal :=
  done (receive 3 src dst payload (withPayload (readLoad payload) fun r s1 => .of (takeLoad src r s1)) s)

/-- REACH_RECEIVED (R27). -/
def execReachReceived (src dst : Station) (payload : List Byte) (s : State) : Host.Outcome State Fault Refusal :=
  done (receive 5 src dst payload (withPayload (readReach payload) (takeReach src)) s)

/-- MESSAGE_NOT_HANDED_ON (R144). -/
def execMessageNotHandedOn (cls : BitVec 4) (src dst : Station) (s : State) : Host.Outcome State Fault Refusal :=
  done (receive cls.toNat src dst [] Out.of s)

end Sys2Proof.Machine
end

