-- ==== Sys2Proof/Machine/SendCommands.lean ====
section
/-! DEFINITION. The sending side of the group line. -/

namespace Sys2Proof.Machine

/-- LINE_QUIET_END (R141). -/
def execLineQuietEnd (s : State) : Host.Outcome State Fault Refusal :=
  done (.of (endQuiet s))

/-- MESSAGE_OFFERED (R134). -/
def execMessageOffered (s : State) : Host.Outcome State Fault Refusal :=
  done (.of (offerMessage s))

/-- ARBITRATION_LOST (R132, R136). -/
def execArbitrationLost (s : State) : Host.Outcome State Fault Refusal :=
  done (loseArbitration s)

/-- TRANSMIT_ERROR (R140). -/
def execTransmitError (s : State) : Host.Outcome State Fault Refusal :=
  done (transmitErrorAt s)

/-- MESSAGE_COMPLETED (R135). -/
def execMessageCompleted (s : State) : Host.Outcome State Fault Refusal :=
  done (completeMessage s)

end Sys2Proof.Machine
end

