-- ==== Sys2Proof/Machine/StartCommands.lean ====
section
/-! DEFINITION. The end of the load, refetch reads and full resets. -/

namespace Sys2Proof.Machine

/-- REFETCH_READ_COMPLETE (R194). -/
def execRefetchReadComplete (octets : List Byte) (s : State) : Host.Outcome State Fault Refusal :=
  done (completeRead octets s)

/-- FULL_RESET (R192). -/
def execFullReset (straps : BitVec 4) (s : State) : Host.Outcome State Fault Refusal :=
  .next (resetState straps s)

/-- IMAGE_LOAD_COMPLETE (R188). -/
def execImageLoadComplete (image : List Byte) (s : State) : Host.Outcome State Fault Refusal :=
  done (completeLoad image s)

end Sys2Proof.Machine
end

