-- ==== Sys2Proof/Machine/TableCommands.lean ====
section
/-! DEFINITION. AGING_VISIT, REFRESH_END and SWEEP_VISIT. -/

namespace Sys2Proof.Machine

/-- AGING_VISIT (R33). -/
def execAgingVisit (s : State) : Host.Outcome State Fault Refusal :=
  done (visitAging s)

/-- REFRESH_END (R30, R32). -/
def execRefreshEnd (s : State) : Host.Outcome State Fault Refusal :=
  done (.of (takeRefreshEnd s))

/-- SWEEP_VISIT (R31). -/
def execSweepVisit (s : State) : Host.Outcome State Fault Refusal :=
  done (visitSweep s)

end Sys2Proof.Machine
end

