-- ==== Sys2Proof/Machine/Dispatch.lean ====
section
/-! DEFINITION. The meaning of each command: one arm per constructor of Instr. -/

namespace Sys2Proof.Machine

/-- The effect of a command on the state, the queue of waiting commands apart. -/
def exec (i : Instr) (s : State) : Host.Outcome State Fault Refusal :=
  match i with
  | .frameReceived p o => Sys2Proof.Machine.execFrameReceived p o s
  | .transmissionEnd p => Sys2Proof.Machine.execTransmissionEnd p s
  | .carrierUp p => Sys2Proof.Machine.execCarrierUp p s
  | .carrierDown p => Sys2Proof.Machine.execCarrierDown p s
  | .holdExpiry p => Sys2Proof.Machine.execHoldExpiry p s
  | .decayExpiry p => Sys2Proof.Machine.execDecayExpiry p s
  | .oneSecondEvent => Sys2Proof.Machine.execOneSecondEvent s
  | .agingVisit => Sys2Proof.Machine.execAgingVisit s
  | .sample => Sys2Proof.Machine.execSample s
  | .loadDue => Sys2Proof.Machine.execLoadDue s
  | .helloDue => Sys2Proof.Machine.execHelloDue s
  | .refreshEnd => Sys2Proof.Machine.execRefreshEnd s
  | .sweepVisit => Sys2Proof.Machine.execSweepVisit s
  | .intervalEnd => Sys2Proof.Machine.execIntervalEnd s
  | .shareWindow => Sys2Proof.Machine.execShareWindow s
  | .lapseExpiry x => Sys2Proof.Machine.execLapseExpiry x s
  | .silenceExpiry n => Sys2Proof.Machine.execSilenceExpiry n s
  | .joinExpiry n => Sys2Proof.Machine.execJoinExpiry n s
  | .lingerExpiry n => Sys2Proof.Machine.execLingerExpiry n s
  | .loadFreshnessExpiry n => Sys2Proof.Machine.execLoadFreshnessExpiry n s
  | .lineQuietEnd => Sys2Proof.Machine.execLineQuietEnd s
  | .messageOffered => Sys2Proof.Machine.execMessageOffered s
  | .arbitrationLost => Sys2Proof.Machine.execArbitrationLost s
  | .transmitError => Sys2Proof.Machine.execTransmitError s
  | .messageCompleted => Sys2Proof.Machine.execMessageCompleted s
  | .messageDiscardedRx m r o => Sys2Proof.Machine.execMessageDiscardedRx m r o s
  | .helloReceived a b p => Sys2Proof.Machine.execHelloReceived a b p s
  | .linkReceived a b p => Sys2Proof.Machine.execLinkReceived a b p s
  | .loadReceived a b p => Sys2Proof.Machine.execLoadReceived a b p s
  | .reachReceived a b p => Sys2Proof.Machine.execReachReceived a b p s
  | .startExport a b t p => Sys2Proof.Machine.execStartExport a b t p s
  | .haltExport a b t p => Sys2Proof.Machine.execHaltExport a b t p s
  | .holdExport a b t p => Sys2Proof.Machine.execHoldExport a b t p s
  | .resumeExport a b t p => Sys2Proof.Machine.execResumeExport a b t p s
  | .discardInterval a b t p => Sys2Proof.Machine.execDiscardInterval a b t p s
  | .closeInterval a b t p => Sys2Proof.Machine.execCloseInterval a b t p s
  | .status a b t p => Sys2Proof.Machine.execStatus a b t p s
  | .restart a b t p => Sys2Proof.Machine.execRestart a b t p s
  | .unknownOrder a b p => Sys2Proof.Machine.execUnknownOrder a b p s
  | .refetchReadComplete o => Sys2Proof.Machine.execRefetchReadComplete o s
  | .fullReset v => Sys2Proof.Machine.execFullReset v s
  | .imageLoadComplete img => Sys2Proof.Machine.execImageLoadComplete img s
  | .messageNotHandedOn c a b => Sys2Proof.Machine.execMessageNotHandedOn c a b s

end Sys2Proof.Machine
end

