-- ==== Sys2Proof/Machine/TimeUnit.lean ====
section
/-! DEFINITION. The time base on an empty queue: the first timed event that is due, or the passing of a microsecond (R183,
log entry 1). -/

namespace Sys2Proof.Machine

/-- A timed event that is due when its time has been reached. -/
def dueAt (now : Time) (t : Option Time) (i : Instr) : Option Instr :=
  match t with
  | none => none
  | some u => if reached now u then some i else none

/-- The first of several. -/
def firstOf (l : List (Option Instr)) : Option Instr := l.findSome? id

/-- The generators of Table 11-1, in its order. -/
def State.generatorsDue (s : State) : List (Option Instr) :=
  [dueAt s.time.now (some s.time.sampleDue) .sample, dueAt s.time.now s.time.loadDue .loadDue,
   dueAt s.time.now s.time.helloDue .helloDue, dueAt s.time.now (some s.time.secondDue) .oneSecondEvent,
   dueAt s.time.now s.time.refreshDue .refreshEnd, dueAt s.time.now s.time.intervalDue .intervalEnd,
   dueAt s.time.now (some s.time.shareDue) .shareWindow]

/-- The timers of the ports. -/
def State.portTimersDue (s : State) : List (Option Instr) :=
  (allPorts.flatMap fun p =>
      [dueAt s.time.now (s.port p).holdExpiry (.holdExpiry p), dueAt s.time.now (s.port p).decayExpiry (.decayExpiry p)])
    ++ allX.map fun x => dueAt s.time.now (s.port (xPort x)).lapseExpiry (.lapseExpiry x)

/-- The timers of the peer slots. -/
def State.slotTimersDue (s : State) : List (Option Instr) :=
  allSlots.flatMap fun n =>
    [dueAt s.time.now ((s.slot n).bind (·.silenceExpiry)) (.silenceExpiry n),
     dueAt s.time.now ((s.slot n).bind (·.joinExpiry)) (.joinExpiry n),
     dueAt s.time.now ((s.slot n).bind (·.lingerExpiry)) (.lingerExpiry n),
     dueAt s.time.now ((s.slot n).bind (·.freshExpiry)) (.loadFreshnessExpiry n)]

/-- The timed event that is due first in the order of generators, ports, slots and LINE_QUIET. -/
def State.dueCommand (s : State) : Option Instr :=
  firstOf (s.generatorsDue ++ s.portTimersDue ++ s.slotTimersDue
    ++ [dueAt s.time.now s.line.quiet .lineQuietEnd])

/-- A microsecond passes. -/
def passMicrosecond (s : State) : State := { s with time := { s.time with now := s.time.now + 1 } }

/-- The time base with no command waiting: a due event is raised, or a microsecond passes. -/
def idle (s : State) : Host.Outcome State Fault Refusal :=
  match s.dueCommand with
  | some i => exec i s
  | none => .next (passMicrosecond s)

/-- The command at the front of the queue on the state with the queue's rest; with none the time base runs. -/
def takeNext (s : State) : Host.Outcome State Fault Refusal :=
  match s.pending with
  | [] => idle s
  | c :: rest => exec c { s with pending := rest }

end Sys2Proof.Machine
end

