-- ==== Sys2Proof/Machine/Step.lean ====
section
/-! DEFINITION. One step of the station, and the placing of a table word at the front of its queue. -/

namespace Sys2Proof.Machine

/-- One step: the command at the front of the queue, or the time base on an empty queue. -/
def step (s : State) : Host.Outcome State Fault Refusal := takeNext s

/-- The state with the command that a table word spells at the front of its queue; the table gives no row bits, so no
word spells one and the state is unchanged. -/
def State.withFetchWord (s : State) (nbits w : Nat) : State :=
  match decodeTableWord nbits w with
  | some c => { s with pending := c :: s.pending }
  | none => s

end Sys2Proof.Machine
end

