-- ==== Sys2Proof/Safety.lean ====
section
/-! DEFINITION. What counts as a safe run: frames, and the laws that the manual states for every state of the station. -/

namespace Sys2Proof.Machine

/-- The blocks of the state. -/
inductive Block where
  | pending | ports | buffer | rules | tenants | tariffs | fixed | fwd | peers | load | restraint | line | meter
  | chans | orders | links | params | time | loader
  deriving DecidableEq, Repr

/-- Two states agree on a block. -/
def Block.same (b : Block) (s t : State) : Prop :=
  match b with
  | .pending => t.pending = s.pending
  | .ports => t.ports = s.ports
  | .buffer => t.buffer = s.buffer
  | .rules => t.rules = s.rules
  | .tenants => t.tenants = s.tenants
  | .tariffs => t.tariffs = s.tariffs
  | .fixed => t.fixed = s.fixed
  | .fwd => t.fwd = s.fwd
  | .peers => t.peers = s.peers
  | .load => t.load = s.load
  | .restraint => t.restraint = s.restraint
  | .line => t.line = s.line
  | .meter => t.meter = s.meter
  | .chans => t.chans = s.chans
  | .orders => t.orders = s.orders
  | .links => t.links = s.links
  | .params => t.params = s.params
  | .time => t.time = s.time
  | .loader => t.loader = s.loader

/-- At most the listed blocks differ. -/
def Frame (l : List Block) (s t : State) : Prop := ∀ b : Block, b ∉ l → b.same s t

/-- At most one port unit differs. -/
def OnlyPort (p : Port) (s t : State) : Prop := ∀ q : Port, q ≠ p → t.port q = s.port q

/-- The queues of at most one port differ. -/
def OnlyQueues (p : Port) (s t : State) : Prop := ∀ q : Port, q ≠ p → t.buffer.ports[q] = s.buffer.ports[q]

/-- At most one peer slot differs. -/
def OnlySlot (n : SlotNo) (s t : State) : Prop := ∀ m : SlotNo, m ≠ n → t.slot m = s.slot m

/-- The context of at most one channel differs. -/
def OnlyChan (c : Fin 2) (s t : State) : Prop := ∀ d : Fin 2, d ≠ c → t.chan d = s.chan d

/-- The table's entry of a key. -/
def State.entryAt (s : State) (t : Tenant) (a : Addr) : Option FwdEntry :=
  (keyIndex s.fwd.table t a).bind (mapFind s.fwd.table)

/-! ## Laws of the blocks -/

/-- R104: the restraint list; in LOADING it is empty, as the resets leave it. -/
def State.restraintLaw (s : State) : Prop :=
  s.restraint.list.length ≤ 16
    ∧ (s.restraint.list.map Prod.fst).Nodup
    ∧ (∀ t ∈ s.restraint.list.map Prod.fst, t ≠ 0 ∧ (s.setting t).exempt = false)
    ∧ (s.restraint.on = false → s.restraint.list = [])
    ∧ (∀ t ∈ s.restraint.list.map Prod.fst, t ∉ s.restraint.denied)
    ∧ (s.loader.phase = .loading → s.restraint.list = [])

/-- R95: the diversion share; in LOADING it is 0, as the resets leave it. -/
def State.shareLaw (s : State) : Prop :=
  (s.load.share ≠ 0 → s.load.divPeer.isSome = true)
    ∧ s.params.cap ≤ 512
    ∧ (s.peers.isolated = false → s.load.share ≤ s.params.cap)
    ∧ (s.peers.isolated = true → s.load.share = 1024 ∨ s.load.share = 0)
    ∧ (s.loader.phase = .loading → s.load.share = 0)

/-- R79: the load indices. -/
def State.indexLaw (s : State) : Prop :=
  (∀ i : Fin 9, s.load.idx[i] ≤ 32767) ∧ s.load.uplink ≤ 32767

/-- R85 and R183: the freshness of an announced uplink index expires four load periods after its arrival; in LOADING there is
no peer. -/
def State.viewLaw (s : State) : Prop :=
  (∀ n x t, s.slot n = some x → x.freshExpiry = some t →
      ∃ v at_, x.uplink = some (v, at_) ∧ t = at_ + BitVec.ofNat 48 (4 * (s.params.loadPeriod * 1000)))
    ∧ (s.loader.phase = .loading → ∀ n, s.slot n = none)

/-- R16 and R17: one entry per key, each in its own bucket and with something to hold; up to 5 holders, no station
twice and never this station. -/
def State.tableLaw (s : State) : Prop :=
  mapWf s.fwd.table = true
    ∧ (s.fwd.table.map fun x => (x.2.tenant, x.2.addr)).Nodup
    ∧ ∀ x ∈ s.fwd.table,
        x.1 / 4 = bucketOf x.2.tenant x.2.addr
          ∧ (x.2.localPort.isSome = true ∨ x.2.origin ≠ .learned ∨ x.2.holders ≠ [])
          ∧ x.2.holders.length ≤ 5 ∧ (x.2.holders.map Holder.station).Nodup
          ∧ s.loader.station ∉ x.2.holders.map Holder.station

/-- R24: the reach queue holds at most 512 items and at most one per key. -/
def State.reachLaw (s : State) : Prop :=
  s.fwd.queue.length ≤ 512 ∧ (s.fwd.queue.map fun i => (i.tenant, i.addr)).Nodup

/-- R180: the cursor of a channel that is not IDLE, and the place it may go back to, lie within its source. -/
def State.cursorLaw (s : State) : Prop :=
  ∀ c : Fin 2, (s.chan c).state ≠ .idle →
    (s.chan c).cursor ≤ (s.sourceRecords (s.chan c)).length
      ∧ (s.chan c).mark.cursor ≤ (s.sourceRecords (s.chan c)).length

/-- R163: the pending interval queue and the sources of the channels; the live number is above every pending one. -/
def State.intervalLaw (s : State) : Prop :=
  s.meter.queue.length ≤ 2
    ∧ (s.meter.queue.map fun i => i.number.toNat).Pairwise (· < ·)
    ∧ (∀ i ∈ s.meter.queue, i.number.toNat < s.meter.number.toNat)
    ∧ (∀ c : Fin 2, (s.chan c).state ≠ .idle → ∃ i ∈ s.meter.queue, i.number = (s.chan c).source)

/-- All copies in the buffer, port by port. -/
def State.allCopies (s : State) : List Copy := allPorts.flatMap fun p => (s.buffer.ports[p]).allCopies

/-- The cells of some copies. -/
def cellsOf (l : List Copy) : Nat := (l.map Copy.cells).sum

/-- R72: conservation of cells, with each count at what it counts. -/
def State.cellLaw (s : State) : Prop :=
  (∀ (p : Port) (c : Cls), ((s.buffer.ports[p]).classes[c]).occ = cellsOf ((s.buffer.ports[p]).classes[c]).copies
      ∧ ((s.buffer.ports[p]).classes[c]).num = ((s.buffer.ports[p]).classes[c]).copies.length)
    ∧ (∀ t : Tenant, s.tenantCells t = cellsOf (s.allCopies.filter fun x => x.tenant == t))
    ∧ mapWf s.buffer.tenantOcc = true
    ∧ s.buffer.free + cellsOf s.allCopies = Config.poolCells

/-- No message of the silenced classes stands in a slot or on the line. -/
def GroupLine.silent (l : GroupLine) : Prop :=
  l.wLink = none ∧ l.wLoad = none ∧ l.wReach = none ∧ l.wEnd = none ∧ l.wRecord = none
    ∧ ∀ m, l.onLine = some m → m.body.silenced = false

/-- No copy waits at a port or is in transmission there. -/
def PortQueues.quiet (q : PortQueues) : Prop := q.sending = none ∧ ∀ c : Cls, (q.classes[c]).copies = []

/-- R149: what a station that may not notify keeps silent, and the X-ports out of service. -/
def State.silenceLaw (s : State) : Prop :=
  (s.mayNotify = false → s.line.silent)
    ∧ ∀ x : XIndex, s.inService (xPort x) = false → (s.buffer.ports[xPort x]).quiet

/-- The laws of every reachable state. -/
def State.laws (s : State) : Prop :=
  s.restraintLaw ∧ s.shareLaw ∧ s.indexLaw ∧ s.viewLaw ∧ s.tableLaw ∧ s.reachLaw ∧ s.intervalLaw ∧ s.cursorLaw ∧ s.cellLaw
    ∧ s.silenceLaw

end Sys2Proof.Machine
end

