-- ==== Sys2Proof/Certificates/Slice0/Obligations.lean ====
section
/-! DEFINITION. The statements about the 4812, for the provers. Each docstring names the rules it formalises. -/

namespace Sys2Proof.Machine

/-- The timers and generators that run on an empty queue, each with its command. -/
def State.timerOf (s : State) : Instr → Option Time
  | .sample => some s.time.sampleDue
  | .loadDue => s.time.loadDue
  | .helloDue => s.time.helloDue
  | .oneSecondEvent => some s.time.secondDue
  | .refreshEnd => s.time.refreshDue
  | .intervalEnd => s.time.intervalDue
  | .shareWindow => some s.time.shareDue
  | .holdExpiry p => (s.port p).holdExpiry
  | .decayExpiry p => (s.port p).decayExpiry
  | .lapseExpiry x => (s.port (xPort x)).lapseExpiry
  | .silenceExpiry n => (s.slot n).bind (·.silenceExpiry)
  | .joinExpiry n => (s.slot n).bind (·.joinExpiry)
  | .lingerExpiry n => (s.slot n).bind (·.lingerExpiry)
  | .loadFreshnessExpiry n => (s.slot n).bind (·.freshExpiry)
  | .lineQuietEnd => s.line.quiet
  | _ => none

/-- The port is in service and usable, spelt out (R1). -/
def State.takesFrames (s : State) (p : Port) : Prop :=
  (s.loader.phase = .joining ∨ s.loader.phase = .running) ∧ (28 ≤ p.val → s.line.conflict = false)
    ∧ ((s.port p).link = .up ∨ (s.port p).link = .degraded)

/-- A frame passes the ingress checks (R2). -/
def passesChecks (p : Port) (l : List Byte) : Prop :=
  64 ≤ frameLength p l ∧ frameLength p l ≤ 9216
    ∧ beNat (l.drop (l.length - 4)).reverse = frameCheck (l.take (l.length - 4))

/-- The FIXED entry of a key awaits its refetch, or its refetch has failed: the lookups for the key miss (R23). -/
def State.refetching (s : State) (t : Tenant) (a : Addr) : Prop :=
  ∃ x ∈ s.fixed, x.2.tenant = t ∧ x.2.addr = a ∧ x.2.integ ≠ .good

/-- A frame from an S-port or U-port that is classified by rule `r`, the first usable one that matches, with every rule
before it read good, and whose tenant has the good entry `e` (R6, R7, R9). -/
def State.classifies (s : State) (p : Port) (l : List Byte) (r : Rule) (e : TenantEntry) : Prop :=
  s.takesFrames p ∧ passesChecks p l ∧ p.val < 28
    ∧ (∃ before n after, s.rules = before ++ (n, r) :: after
        ∧ ∀ x ∈ before, x.2.integ ≠ .good ∨ (x.2.checkGood = true ∧ x.2.accepts p (frameView l) = false))
    ∧ r.integ = .good ∧ r.checkGood = true ∧ r.accepts p (frameView l) = true
    ∧ mapFind s.tenants r.tenant.toNat = some e ∧ e.integ = .good ∧ e.checkGood = true

/-- Every entry of the forwarding table passes its check. -/
def State.tableGood (s : State) : Prop := ∀ x ∈ s.fwd.table, x.2.checkGood = true

/-- The class queues of a port after its front copies left or joined: the copy in transmission is the front one of the
highest class that holds any (R68). -/
def PortQueues.sendsHighest (q : PortQueues) : Prop :=
  ∀ d : Cls, q.sending = some d ↔ (q.classes[d].copies ≠ [] ∧ ∀ e : Cls, d < e → q.classes[e].copies = [])

/-- Copy `x` was admitted to class `c` of port `p` (R64), and begins transmission when the port was idle (R68). -/
def Enqueued (p : Port) (c : Cls) (x : Copy) (s t : State) : Prop :=
  t.buffer.free + x.cells = s.buffer.free
    ∧ (t.buffer.ports[p]).classes[c] =
        { copies := ((s.buffer.ports[p]).classes[c]).copies ++ [x]
          occ := ((s.buffer.ports[p]).classes[c]).occ + x.cells
          num := ((s.buffer.ports[p]).classes[c]).num + 1 }
    ∧ (∀ d : Cls, d ≠ c → (t.buffer.ports[p]).classes[d] = (s.buffer.ports[p]).classes[d])
    ∧ (∀ d : Cls, (s.buffer.ports[p]).sending = some d → (t.buffer.ports[p]).sending = some d)
    ∧ ((s.buffer.ports[p]).sending = none → (t.buffer.ports[p]).sendsHighest)
    ∧ (t.buffer.ports[p]).txCopies = (s.buffer.ports[p]).txCopies
    ∧ (t.buffer.ports[p]).txOctets = (s.buffer.ports[p]).txOctets
    ∧ OnlyQueues p s t
    ∧ ∀ y : Tenant, t.tenantCells y = s.tenantCells y + if y = x.tenant then x.cells else 0

/-- The pool and the queue of class `c` of port `p` have room for `n` cells (R64). -/
def State.hasRoom (s : State) (p : Port) (c : Cls) (n : Nat) : Prop :=
  ((s.buffer.ports[p]).classes[c]).occ + n ≤ s.params.classLimit ∧ n ≤ s.buffer.free

/-- The accumulator of a classified frame and its tariff are read good, unless its tenant is 0 (R154, R157). -/
def State.ratesGood (s : State) (r : Rule) (e : TenantEntry) : Prop :=
  r.tenant = 0 ∨ ((s.acc (accKey r.tenant r.bcls)).checkGood = true
    ∧ (s.tariff e.tariffs[r.bcls.val]).integ = .good ∧ (s.tariff e.tariffs[r.bcls.val]).checkGood = true)

/-- The accumulator `k` became `a` and no other changed. -/
def OnlyAcc (k : Nat) (a : Accumulator) (s t : State) : Prop :=
  t.acc k = a ∧ ∀ j, j ≠ k → t.acc j = s.acc j

/-- The tag without flags that this station writes (Table 3-3, R56). -/
def ownTag (own : Station) (d : Descriptor) : GroupTag :=
  { flood := false, diverted := false, relay := false, origin := own, target := 0, hop := 1, tenant := d.tenant
    bcls := d.bcls, tcls := d.tcls, bucket := d.bucket }

/-- The peers that a flood goes to, each with its direct X-port, in ascending station number (R51). -/
def State.floodPeers (s : State) (ys : List (Station × XIndex)) : Prop :=
  (∀ st x, (st, x) ∈ ys ↔ st ≠ 15#4 ∧ (s.activePeer st).isSome = true ∧ s.directX st = some x)
    ∧ ys.Pairwise (fun a b => a.1.toNat < b.1.toNat)

/-- The X-port copies of a flood (R51, R56). -/
def State.floodedTo (s : State) (d : Descriptor) (ys : List (Station × XIndex)) : List CopyPlan :=
  ys.map fun y => ⟨xPort y.2, some { ownTag s.loader.station d with flood := true }⟩

/-- A holder record is usable (R43). -/
def State.canUse (s : State) (h : Holder) : Prop :=
  ∃ x, s.peer h.station = some x ∧ x.gen = h.gen
    ∧ (x.state = .active ∨ (x.state = .severed ∧ x.relay ≠ none))

/-- The link state of a port is UP or DEGRADED. -/
def State.isUsable (s : State) (p : Port) : Prop := (s.port p).link = .up ∨ (s.port p).link = .degraded

/-- The choice of R54 among candidate S-ports: an unbonded candidate, or the candidate of its bond at index
(flow bucket mod m) in port order. -/
def State.chosen (s : State) (bucket : Nat) (cand : Fin 24 → Bool) (q : Fin 24) : Prop :=
  cand q = true
    ∧ ∀ b, (s.port (sPort q)).bond = some b →
        let cs := (List.finRange 24).filter fun v => cand v && (s.port (sPort v)).bond == some b
        cs[bucket % cs.length]? = some q

/-- The station time after the moment `t` has come: never earlier than it was (log entry 2). -/
def State.timeAt (s : State) (t : Time) : Time := if reached s.time.now t then s.time.now else t

/-- The cells of tenant `y` among some copies. -/
def tenantCellsOf (y : Tenant) (l : List Copy) : Nat := cellsOf (l.filter fun x => x.tenant == y)

/-- A port's queues were flushed (R70): its cells are back in the pool and its four queues are empty. -/
def Flushed (p : Port) (s t : State) : Prop :=
  t.buffer.free = s.buffer.free + cellsOf (s.buffer.ports[p]).allCopies
    ∧ (∀ c : Cls, (t.buffer.ports[p]).classes[c] = { copies := [], occ := 0, num := 0 })
    ∧ (t.buffer.ports[p]).sending = none
    ∧ (t.buffer.ports[p]).txCopies = (s.buffer.ports[p]).txCopies
    ∧ (t.buffer.ports[p]).txOctets = (s.buffer.ports[p]).txOctets
    ∧ OnlyQueues p s t
    ∧ (mapWf s.buffer.tenantOcc = true →
        ∀ y : Tenant, t.tenantCells y = s.tenantCells y - tenantCellsOf y (s.buffer.ports[p]).allCopies)

/-- The LINK notice that the station composes now (R126). -/
def State.linkNow (s : State) : TxMsg :=
  { dst := 15, body := .link s.params.serial s.reachMap s.uCount s.bondUp s.peers.isolated }

/-- The hold time of R111: the hold base times 2^(penalty - 1) seconds, at most 64 s. -/
def holdSeconds (base penalty : Nat) : Nat := if 64 < base * 2 ^ (penalty - 1) then 64 else base * 2 ^ (penalty - 1)

/-- The reach queue after an operation on a key (R24): replaced in place, appended, or dropped. -/
def reachAfter (op : ReachOp) (t : Tenant) (a : Addr) (q : List ReachItem) : List ReachItem :=
  if (q.any fun i => i.tenant == t && i.addr == a) then
    q.map fun i => if i.tenant = t ∧ i.addr = a then ⟨t, a, op⟩ else i
  else if q.length < 512 then q ++ [⟨t, a, op⟩] else q

/-- A REACH can be composed: slot 5 is empty and the station may notify (R137). -/
def State.reachFree (s : State) : Prop :=
  (s.loader.phase = .joining ∨ s.loader.phase = .running) ∧ s.line.conflict = false ∧ s.line.wReach = none
    ∧ ∀ m, s.line.onLine = some m → m.body.cls ≠ 5

/-- A LEARNED entry loses its local port at an aging visit (R34). -/
def State.losesPort (s : State) (e : FwdEntry) : Prop :=
  e.origin = .learned ∧ ∃ p, e.localPort = some p
    ∧ (s.params.ageLimit ≤ min (e.age + 1) 4095 ∨ ¬ s.isUsable (sPort p))

/-- The holders that an aging visit keeps (R35). -/
def State.keepsHolder (s : State) (h : Holder) : Bool :=
  (s.peer h.station).any (fun x => x.gen == h.gen) && decide ((s.fwd.period - h.period).toNat < 3)

/-- A division truncated toward zero. -/
def truncDiv (d : Int) (n : Nat) : Int := if 0 ≤ d then d / n else -(-d / n)

/-- The load index after a SAMPLE (R78), from the index before it and the port's occupancy. -/
def indexAfter (k basis occ l : Nat) : Int :=
  let o : Int := if 32767 < occ * 32768 / basis then 32767 else (occ * 32768 / basis : Nat)
  let d : Int := o - l
  let q := truncDiv d (2 ^ k)
  l + if q ≠ 0 then q else if 0 < d then 1 else if d < 0 then -1 else 0

/-- The port occupancy: the sum of the occupancies of its four queues (R62). -/
def State.portCells (s : State) (p : Port) : Nat :=
  ((s.buffer.ports[p]).classes[(0 : Cls)]).occ + ((s.buffer.ports[p]).classes[(1 : Cls)]).occ
    + ((s.buffer.ports[p]).classes[(2 : Cls)]).occ + ((s.buffer.ports[p]).classes[(3 : Cls)]).occ

/-- The freshness of a slot's announced uplink index has an expiry, which the station time has not reached (R85, R183). -/
def State.isFresh (s : State) (x : PeerSlot) : Bool :=
  x.freshExpiry.any fun t => decide (2 ^ 47 ≤ (s.time.now - t).toNat)

/-- The announced uplink index as read (R85). -/
def State.announced (s : State) (x : PeerSlot) : Nat :=
  match x.uplink with
  | none => 32767
  | some (v, _) => if s.loader.phase ≠ .joining ∧ s.isFresh x = true then v else 32767

/-- A peer is eligible for diversion, with its gap (R87). -/
def State.eligibleGap (s : State) (st : Station) (gap : Int) : Prop :=
  st ≠ 15#4 ∧ ∃ x y, s.peer st = some x ∧ x.state = .active ∧ s.directX st = some y
    ∧ s.load.idx[4 + y.val] < s.params.xl ∧ x.uplink.isSome = true ∧ s.isFresh x = true
    ∧ gap = (s.load.uplink : Int) - s.announced x - s.params.margin ∧ 0 < gap ∧ x.isolated = false

/-- The best peer with its gap: the largest gap, the lowest station number between equals (R88). -/
def State.isBest (s : State) (st : Station) (gap : Int) : Prop :=
  s.eligibleGap st gap
    ∧ ∀ o g, s.eligibleGap o g → g < gap ∨ (g = gap ∧ st.toNat ≤ o.toNat)

/-- A candidate of the isolation rule, with its announced uplink index (R91). -/
def State.isolationIndex (s : State) (st : Station) (v : Nat) : Prop :=
  st ≠ 15#4 ∧ ∃ x, s.peer st = some x ∧ x.state = .active ∧ x.isolated = false ∧ (s.directX st).isSome = true
    ∧ v = s.announced x ∧ v < 32767

/-- A candidate of R102 against a list and a set of denied tenants. -/
def State.overQuota (s : State) (list : List (Tenant × Nat)) (denied : List Tenant) (t : Tenant) : Bool :=
  t != 0 && !(s.setting t).exempt && (s.setting t).quota != 0 && decide ((s.setting t).quota < s.tenantCells t)
    && !(list.map Prod.fst).contains t && !denied.contains t

/-- Step (4) of R99 for one tenant (R102, R103): list, denied tenants and next-start pointer. -/
def State.enter (s : State) (r : List (Tenant × Nat) × List Tenant × Nat) (t : Tenant) :
    List (Tenant × Nat) × List Tenant × Nat :=
  if s.overQuota r.1 r.2.1 t then
    if r.1.length < 16 then (r.1 ++ [(t, r.2.2)], r.2.1, (r.2.2 + s.params.window) % 64)
    else (r.1, r.2.1 ++ [t], r.2.2)
  else r

/-- The 256 tenants in ascending index. -/
def everyTenant : List Tenant := (List.range 256).map (BitVec.ofNat 8)

/-- The records of a close by R161 step 1: one for each of the 1,024 accumulators with any count or flag. -/
def State.recordsNow (s : State) : List Record :=
  ((List.range 1024).filter fun k => (s.acc k).recorded).map fun k => recordOf k (s.acc k)

/-- Every accumulator passes its check, and the numbers are those of the 1,024 accumulators. -/
def State.accsGood (s : State) : Prop :=
  mapWf s.meter.accs = true ∧ (∀ x ∈ s.meter.accs, x.1 < 1024) ∧ ∀ k, (s.acc k).checkGood = true

/-- The LOAD notice that the station composes now (R83). -/
def State.loadNow (s : State) : TxMsg :=
  { dst := 15
    body := .load s.params.serial s.load.uplink
      [s.load.idx[4], s.load.idx[5], s.load.idx[6], s.load.idx[7], s.load.idx[8]] s.load.divPeer s.load.share
      s.restraint.list.length s.peers.isolated }

/-- The HELLO that the station composes now (R145). -/
def State.helloNow (s : State) : TxMsg :=
  { dst := 15, body := .hello s.params.serial s.loader.phase s.peers.isolated s.line.conflict }

/-- A channel's outstanding message may enter slot 7 (R179). -/
def Channel.mayEnter (x : Channel) (o : Outstanding) : Prop :=
  x.outstanding = some o ∧ o.inSlot = false ∧ x.shareUsed < x.shareLimit

/-- The hello period in microseconds. -/
def State.hello (s : State) : Nat := s.params.helloPeriod * 1000

/-- A moment some microseconds from now. -/
def State.after (s : State) (us : Nat) : Time := s.time.now + BitVec.ofNat 48 us

/-- A group line message from `src` to `dst` is taken (R130, R142 to R144). -/
def State.hearsFrom (s : State) (src dst : Station) : Prop :=
  s.loader.phase ≠ .loading ∧ s.loader.station ≠ 15#4 ∧ src ≠ 15#4 ∧ src ≠ s.loader.station
    ∧ (dst = s.loader.station ∨ dst = 15#4)

/-- No U-port is usable. -/
def State.noUplink (s : State) : Prop := ∀ u : Fin 4, ¬ s.isUsable (uPort u)

/-- The diversion peer of `s` is not ACTIVE, or has no direct X-port, in `t` (R90). -/
def State.losesDiversion (s t : State) : Prop :=
  ∃ st, s.load.divPeer = some st ∧ ¬ ∃ x y, t.peer st = some x ∧ x.state = .active ∧ t.directX st = some y

/-- A slot as it follows the direct X-port of its station (R121), with its relay chosen again (R41, R42). -/
def State.followed (t : State) (x : PeerSlot) : PeerSlot :=
  let y : PeerSlot :=
    if x.state = .lost then x
    else if (t.directX x.station).isSome = true then
      { x with state := .active, joinExpiry := if x.state = .active then x.joinExpiry else none }
    else if x.state = .active then { x with state := .severed }
    else x
  { y with relay := t.relayOf y }

/-- A change of the ports led from `s` to `o`, with all that follows from it before the event links act: the slots follow their
direct X-ports with PEER_ACTIVE and PEER_SEVERED (R121), relays are chosen again (R42), a lost diversion peer is dropped (R90),
ISOLATED is judged with its effect on the diversion (R128, R91, R92), the share's events are raised (R94), and a LINK is composed
when what it reports has changed (R126). -/
def PeersFollow (s : State) (o : Out) : Prop :=
  let t := o.st
  let lost := s.losesDiversion t
  (∀ n, t.slot n = (s.slot n).map t.followed)
    ∧ t.peers = { s.peers with slots := t.peers.slots, isolated := t.peers.isolated }
    ∧ (∀ st : Station,
        ((⟨.peerActive, some st.toNat⟩ : Event) ∈ o.evs ↔ ∃ n x, s.slot n = some x ∧ x.station = st
          ∧ (x.state = .joining ∨ x.state = .severed) ∧ (t.directX st).isSome = true)
        ∧ ((⟨.peerSevered, some st.toNat⟩ : Event) ∈ o.evs ↔ ∃ n x, s.slot n = some x ∧ x.station = st
          ∧ x.state = .active ∧ t.directX st = none))
    ∧ (¬ t.noUplink → t.peers.isolated = false)
    ∧ (t.noUplink → ¬ s.noUplink → t.peers.isolated = true)
    ∧ (t.noUplink → s.noUplink → t.peers.isolated = s.peers.isolated)
    ∧ ((⟨.isolationOn, none⟩ : Event) ∈ o.evs ↔ s.peers.isolated = false ∧ t.peers.isolated = true)
    ∧ ((⟨.isolationOff, none⟩ : Event) ∈ o.evs ↔ s.peers.isolated = true ∧ t.peers.isolated = false)
    ∧ (t.peers.isolated = s.peers.isolated →
        (lost → t.load = { s.load with divPeer := none, share := 0 }) ∧ (¬ lost → t.load = s.load))
    ∧ (s.peers.isolated = true → t.peers.isolated = false → t.load = { s.load with divPeer := none, share := 0 })
    ∧ (s.peers.isolated = false → t.peers.isolated = true →
        ((∀ st v, ¬ t.isolationIndex st v) → t.load = { s.load with divPeer := none, share := 0 })
        ∧ ∀ st v, t.isolationIndex st v →
            (∀ q w, t.isolationIndex q w → v < w ∨ (v = w ∧ st.toNat ≤ q.toNat)) →
            t.load = { s.load with divPeer := some st, share := 1024 })
    ∧ ((⟨.diversionStart, none⟩ : Event) ∈ o.evs ↔ 0 < t.load.share ∧ (s.load.share = 0 ∨ lost))
    ∧ ((⟨.diversionEnd, none⟩ : Event) ∈ o.evs ↔ 0 < s.load.share ∧ (t.load.share = 0 ∨ lost))
    ∧ (t.mayNotify = true → t.linkContent ≠ s.linkContent → t.line = { s.line with wLink := some t.linkNow })
    ∧ ((t.mayNotify = false ∨ t.linkContent = s.linkContent) → t.line = s.line)
    ∧ Frame [.line, .links, .meter, .chans, .loader] t (conclude o)

/-- The relays are those of R41, and the diversion peer, if any, is ACTIVE with a direct X-port (R42, R90). -/
def State.peersKept (t : State) : Prop :=
  (∀ n x, t.slot n = some x → x.relay = t.relayOf x) ∧ ¬ t.losesDiversion t

/-- A SAMPLE that is acted on: its load and restraint units lead to `u` with their events `d` and `r`; then the hold-off of each
filled link place is lowered in ascending number; and the events are taken in that order (R77, R99, R186, log entry 12). -/
def SampleRuns (s u : State) (d r : List Event) : Prop :=
  Frame [.time, .load, .restraint] s u
    ∧ ∃ ns : List Nat, (mapWf s.links = true → ns.Pairwise (· < ·))
      ∧ (∀ n, n ∈ ns ↔ (mapFind s.links n).isSome = true)
      ∧ let h := eachOut lowerHoldOff ns u
        exec .sample s = .next (conclude ⟨h.st, d ++ r ++ h.evs⟩)

/-- A slot after a good message of its station (R144, R122). -/
def State.heardSlot (s : State) (x : PeerSlot) : PeerSlot :=
  { x with
    lastHeard := s.time.now
    silenceExpiry := if x.state = .lost then x.silenceExpiry else some (s.after (3 * s.hello)) }

/-- A slot that a HELLO takes, or returns to service, under a new generation (R120, R124, R86, R121). -/
def State.slotAnew (s : State) (src : Station) (serial : Serial) (running : Bool) : PeerSlot :=
  { station := src, serial := serial, state := if (s.directX src).isSome then .active else .joining
    gen := s.peers.genCounter + 1, seenRunning := running, collision := false, lastHeard := s.time.now
    silenceExpiry := some (s.after (3 * s.hello))
    joinExpiry := if (s.directX src).isSome then none else some (s.after (2 * s.hello))
    lingerExpiry := none, reachMap := none, bondUp := 0, uCount := 0, isolated := false, uplink := none
    freshExpiry := none, xIdx := [0, 0, 0, 0, 0], dPeer := none, dShare := 0, rCount := 0, relay := none }

/-- The slot's state agrees with its station's direct X-port (R121). -/
def State.settled (s : State) (x : PeerSlot) : Prop :=
  (x.state = .active → (s.directX x.station).isSome = true)
    ∧ ((x.state = .joining ∨ x.state = .severed) → s.directX x.station = none)

/-- An order of a kind is carried out (R168, R169 case 5): it is heard from a collector, for this station or, where the kind
allows it, for all, no restart is pending, the answer queue has room, and no FAILSAFE or CONFLICT stands in the way. -/
def State.carriesOut (s : State) (kind : Byte) (src dst : Station) (ps : List Byte) : Prop :=
  s.loader.phase ≠ .loading ∧ s.loader.station ≠ 15#4 ∧ src ≠ 15#4 ∧ src ≠ s.loader.station
    ∧ (dst = s.loader.station ∨ (dst = 15#4 ∧ (kind = 6 ∨ kind = 7)))
    ∧ ps.length ≤ 117
    ∧ (src ∈ s.orders.collectors ∨ s.orders.anySource = true)
    ∧ s.orders.restartPending = false ∧ s.answerLength < 4
    ∧ (kind = 7 ∨ kind = 8 ∨ (s.loader.phase ≠ .failsafe ∧ s.line.conflict = false))

/-- The answer to an order (R169). -/
def answerTo (src : Station) (kind : Byte) (tag : BitVec 16) (refusal : Option Reason) (data : AnswerData) : TxMsg :=
  { dst := src, body := .answer kind tag refusal data }

/-- The state with an answer at the back of the answer queue. -/
def State.answered (s : State) (m : TxMsg) : State :=
  { s with line := { s.line with answers := s.line.answers ++ [m] } }

/-- Going back to a channel's mark (R175, Table 10-2). -/
def Channel.back (x : Channel) : Channel :=
  { x with
    cursor := x.mark.cursor, sent := x.mark.sent, skipF := x.mark.skipF, skipU := x.mark.skipU, seq := x.mark.seq
    building := [], outstanding := none }

/-- The pending interval `n` is the only one of its number and no channel that is not IDLE has it as its source. -/
def State.mayDiscard (s : State) (n : Count) : Prop :=
  (∃ i ∈ s.meter.queue, i.number = n) ∧ ∀ c : Fin 2, (s.chan c).state ≠ .idle → (s.chan c).source ≠ n

/-- The bits of an octet, most significant first. -/
def bitsUp (b : Byte) : List Bool := (List.range 8).map fun i => b.getLsbD (7 - i)

/-- One bit through a check register of `w` bits whose top bit leaves first. -/
def stepUp {w : Nat} (poly : BitVec w) (r : BitVec w) (b : Bool) : BitVec w :=
  if r.msb != b then (r <<< 1) ^^^ poly else r <<< 1

/-- The integrity state of a configuration entry after a read that failed its check: QUEUED while the refetch queue has a
place, else WAITING (R193, R194). -/
def State.faultInteg (s : State) : Integrity := if s.loader.refetch.length < 8 then .queued else .waiting

/-- The loader after a read of entry `i` that failed its check: the fault is counted and a refetch requested (R193). -/
def State.faultLoader (s : State) (i : CfgItem) : Loader :=
  { s.loader with
    integrityFaults := satInc s.loader.integrityFaults
    refetch := if s.loader.refetch.length < 8 then s.loader.refetch ++ [i] else s.loader.refetch }

/-- Entry `f` at place `i` is the victim of R21 in bucket `b`: a holder-only LEARNED entry whose newest holder `h` is the
oldest of all such entries of the bucket, the lowest slot between equals. -/
def State.isVictim (s : State) (b i : Nat) (f : FwdEntry) : Prop :=
  let age (h : Holder) : Nat := (s.fwd.period - h.period).toNat
  let newest (g : FwdEntry) (h : Holder) : Prop := h ∈ g.holders ∧ ∀ h' ∈ g.holders, age h ≤ age h'
  i ∈ bucketSlots b ∧ mapFind s.fwd.table i = some f ∧ f.origin = .learned ∧ f.localPort = none
    ∧ ∃ h, newest f h
      ∧ ∀ j ∈ bucketSlots b, ∀ g, mapFind s.fwd.table j = some g → g.origin = .learned → g.localPort = none →
          ∃ h', newest g h' ∧ (age h' < age h ∨ (age h' = age h ∧ i ≤ j))

/-- The table without the announced flags, which change with each REACH that is composed (R26). -/
def State.unannounced (s : State) (i : Nat) : Option FwdEntry :=
  (mapFind s.fwd.table i).map fun e => { e with announced := false }

/-- The U-ports that may carry an uplink frame: those that are UP, or DEGRADED when none is UP (R46). -/
def State.carriers (s : State) : List (Fin 4) :=
  let up := allU.filter fun v => (s.port (uPort v)).link == .up
  if up = [] then allU.filter fun v => (s.port (uPort v)).link == .degraded else up

/-- An accumulator as a read leaves it: one that fails its check is cleared and marked SUSPECT (R157). -/
def State.readAcc (s : State) (k : Nat) : Accumulator :=
  if (s.acc k).checkGood = true then s.acc k else { suspect := true }

/-- The records of a close by R161 step 1, each accumulator read first (R157). -/
def State.recordsRead (s : State) : List Record :=
  ((List.range 1024).filter fun k => (s.readAcc k).recorded).map fun k => recordOf k (s.readAcc k)

/-- The line after the ninth transmit error of its message: discarded and counted, with LINE_QUIET at the 32nd discard in a
row (R140, R141). -/
def State.lineFailed (s : State) : GroupLine :=
  { s.line with
    onLine := none, txError := satInc s.line.txError, txFailed := satInc s.line.txFailed
    discards := s.line.discards + 1
    quiet := if s.line.discards + 1 = 32 then some (s.after 1000000) else s.line.quiet
    quietCount := if s.line.discards + 1 = 32 then satInc s.line.quietCount else s.line.quietCount }

/-- The station after a restart (R192): the meter and the increased restart count are kept, and the straps are sampled anew,
at a free level (log entry 5). The queue of waiting commands is the model's own (log entry 3). -/
def State.restarted (s : State) : State :=
  { State.reset with
    pending := s.pending, meter := s.meter
    loader := { State.reset.loader with
      station := Config.strapsAtRestart s.loader.strapReads, strapReads := s.loader.strapReads + 1
      restartCount := satInc s.loader.restartCount } }

/-- The record's tenant lies in the channel's filter range (R172 step 1). -/
def Channel.wants (x : Channel) (r : Record) : Bool :=
  decide (x.filterLow.toNat ≤ r.tenant.toNat) && decide (r.tenant.toNat ≤ x.filterHigh.toNat)

/-- The record's tenant lies in the channel's stop range (R172 step 2). -/
def Channel.stopsAt (x : Channel) (r : Record) : Prop :=
  ∃ lo hi, x.stop = some (lo, hi) ∧ lo.toNat ≤ r.tenant.toNat ∧ r.tenant.toNat ≤ hi.toNat

/-- The account number that a usable tenant entry gives (R172 step 3). -/
def State.accountOf (s : State) (t : Tenant) : Option (BitVec 32) :=
  (mapFind s.tenants t.toNat).bind fun e => if e.integ = .good then e.account else none

/-- What a record adds to a message: itself, with its account number under translation, or nothing when it is skipped
(R172). -/
def State.outRecord (s : State) (x : Channel) (r : Record) : Option OutRecord :=
  if x.wants r = false then none
  else if x.translate = true then (s.accountOf r.tenant).map fun a => ⟨some a, r⟩
  else some ⟨none, r⟩

/-- The message that the first `n` records from the cursor give (R172). -/
def State.messageAfter (s : State) (x : Channel) (records : List Record) (n : Nat) : List OutRecord :=
  ((records.drop x.cursor).take n).filterMap (s.outRecord x)

/-- The causes EXHAUSTED, COUNT and SINGLE that hold once `n` records from the cursor are examined (R173). -/
def State.causesAfter (s : State) (x : Channel) (records : List Record) (n : Nat) : Causes :=
  let sent := x.sent + (s.messageAfter x records n).length
  { exhausted := decide (x.cursor + n = records.length), count := decide (x.limit ≠ 0 ∧ sent = x.limit)
    single := x.single && decide (sent = 1) }

/-- The events `es` are taken in order at a state and lead to another: after each come the events that the actions of its
links raised (R187). -/
inductive Settles : List Event → State → State → Prop
  | done (s : State) : Settles [] s s
  | take (e : Event) (es : List Event) (s t u : State) :
      Settles (takeEvent e s).evs (takeEvent e s).st t → Settles es t u → Settles (e :: es) s u

/-- No link closes or defers on the event of a close or a deferral (R185). -/
def State.linksEnd (s : State) : Prop :=
  ∀ x ∈ s.links, x.2.source = .intervalClosed ∨ x.2.source = .closeDeferred → x.2.action ≠ .closeInterval

/-- Octets in a section entry of each kind (Table 12-6). -/
def entryOctets (kind : Nat) : Nat := [0, 5, 2, 16, 18, 13, 10, 6, 1].getD kind 0

/-- The directory entries of an image (section 12.4). -/
def sectionsOf (img : List Byte) : List Sect :=
  (List.range (octetNat img 10)).map fun i =>
    { kind := fieldNat img (16 + 12 * i) 2, count := fieldNat img (18 + 12 * i) 2
      offset := fieldNat img (20 + 12 * i) 4, len := fieldNat img (24 + 12 * i) 4 }

/-- The entries of a section, as the directory places them. -/
def entriesOf (img : List Byte) (d : Sect) : List (List Byte) :=
  (List.range d.count).map fun i => slice img (d.offset + entryOctets d.kind * i) (entryOctets d.kind)

/-- Structural fault 6 (R189, R197): a section of a known kind lies beyond the length or has another length than its entries,
or two share an octet or a kind. -/
def sectionsMisplaced (img : List Byte) (ds : List Sect) : Prop :=
  (∃ d ∈ ds, fieldNat img 6 4 < d.offset + d.len ∨ d.len ≠ d.count * entryOctets d.kind)
    ∨ ¬ ds.Pairwise fun a b => a.kind ≠ b.kind
        ∧ ∀ o, ¬ (a.offset ≤ o ∧ o < a.offset + a.len ∧ b.offset ≤ o ∧ o < b.offset + b.len)

/-- Structural fault 7 (R189): more entries than the capacity, or a number beyond the table. -/
def sectionOverfull (img : List Byte) (d : Sect) : Prop :=
  (d.kind = 3 ∧ 64 < d.count) ∨ (d.kind = 4 ∧ 256 < d.count) ∨ (d.kind = 5 ∧ 16 < d.count)
    ∨ (d.kind = 6 ∧ 256 < d.count) ∨ (d.kind = 7 ∧ 16 < d.count) ∨ (d.kind = 8 ∧ 4 < d.count)
    ∨ ∃ e ∈ entriesOf img d, (d.kind = 3 ∧ 63 < octetNat e 0) ∨ (d.kind = 5 ∧ 15 < octetNat e 0)
        ∨ (d.kind = 7 ∧ 15 < octetNat e 0)

/-- Structural fault 8 (R189): an entry of a checked section fails its entry check. -/
def sectionCorrupt (img : List Byte) (d : Sect) : Prop :=
  (d.kind = 3 ∨ d.kind = 4 ∨ d.kind = 5 ∨ d.kind = 6)
    ∧ ∃ e ∈ entriesOf img d,
        ¬ (e.length = entryOctets d.kind
          ∧ fieldNat e (entryOctets d.kind - 2) 2 = crc16 (e.take (entryOctets d.kind - 2)))

/-- A number brought to the nearer end of a range (R190). -/
def nearest (lo hi v : Nat) : Nat := if v < lo then lo else if hi < v then hi else v

/-- The entries of the section of a kind, in image order; none when the directory does not name it. -/
def entriesOfKind (img : List Byte) (kind : Nat) : List (List Byte) :=
  (((sectionsOf img).find? fun d => d.kind == kind).map (entriesOf img)).getD []

/-- The last entry of a list whose first octet is a number. -/
def lastOf (es : List (List Byte)) (n : Nat) : Option (List Byte) := (es.filter fun e => octetNat e 0 == n).getLast?

/-- The fixed entries that the loader keeps, with their numbers: a key that is kept already, and one whose bucket holds four,
is discarded (R22). -/
def keptFixed (fs : List (Nat × FixedCfg)) : List (Nat × FixedCfg) :=
  fs.foldl (fun kept x =>
    let b := bucketOf x.2.tenant x.2.addr
    if (kept.any fun y => y.2.tenant == x.2.tenant && y.2.addr == x.2.addr)
        || decide (4 ≤ (kept.filter fun y => bucketOf y.2.tenant y.2.addr == b).length) then kept
    else kept ++ [x]) []

/-- The fixed entries of an image as read, with their numbers in image order. -/
def fixedOf (img : List Byte) : List (Nat × FixedCfg) :=
  (entriesOfKind img 6).zipIdx.map fun x => (x.2, (readFixedEntry x.1).1)

/-- The stations that the collector set takes from its entries (R168). -/
def State.collectorsOf (s : State) (es : List (List Byte)) (st : Station) : Prop :=
  st ≠ 15#4 ∧ st ≠ s.loader.station ∧ ∃ e ∈ es, octetNat e 0 = st.toNat

/-- The clamps of the collector entries: number 15 or above, and this station's own number (R168). -/
def State.collectorClamps (s : State) (es : List (List Byte)) : Nat :=
  (es.filter fun e => decide (15 ≤ octetNat e 0) || octetNat e 0 == s.loader.station.toNat).length

/-- The tables are as a reset leaves them; time, carriers and the meter may have moved on. -/
def State.fresh (s : State) : Prop :=
  Frame [.pending, .loader, .time, .meter, .ports] State.reset s ∧ s.loader.phase = .loading
    ∧ s.loader.clamps = 0 ∧ ∀ p, (s.port p).bond = none

/-- The integrity state of a configuration entry (R193). -/
def State.integOf (s : State) (i : CfgItem) : Option Integrity :=
  match i.kind with
  | .rule => (mapFind s.rules i.number).map fun r => r.integ
  | .tenant => (mapFind s.tenants i.number).map fun e => e.integ
  | .tariff => some (s.tariff i.number).integ
  | .fixed => (mapFind s.fixed i.number).map fun f => f.integ

/-- The place of a kind in the order of R194. -/
def kindRank : CfgKind → Nat
  | .rule => 0
  | .tenant => 1
  | .tariff => 2
  | .fixed => 3

/-- Entry `i` is the first WAITING one, by kind and then by number (R194). -/
def State.isFirstWaiting (s : State) (i : CfgItem) : Prop :=
  s.integOf i = some .waiting
    ∧ ∀ j, s.integOf j = some .waiting →
        kindRank i.kind < kindRank j.kind ∨ (i.kind = j.kind ∧ i.number ≤ j.number)

/-- The configuration tables are in their canonical form. -/
def State.tablesWf (s : State) : Prop :=
  mapWf s.rules = true ∧ mapWf s.tenants = true ∧ mapWf s.tariffs = true ∧ mapWf s.fixed = true

/-- The octets of a configuration entry by its kind (Table 12-6). -/
def cfgOctets : CfgKind → Nat
  | .rule => 16
  | .tenant => 18
  | .tariff => 13
  | .fixed => 10

/-- The item `i` left the front of the refetch queue, whose rest is `is`: the first WAITING entry, if any, is QUEUED behind
the rest (R194). -/
def Promoted (i : CfgItem) (is : List CfgItem) (s t : State) : Prop :=
  ((∀ j, s.integOf j ≠ some .waiting) → t.loader.refetch = is
      ∧ ∀ k, k ≠ i → t.integOf k = s.integOf k)
    ∧ ∀ j, s.isFirstWaiting j → t.loader.refetch = is ++ [j] ∧ t.integOf j = some .queued
        ∧ ∀ k, k ≠ i → k ≠ j → t.integOf k = s.integOf k

/-- What a list of reach operations, queued in order, leaves of queue and slot 5 (R24, R26, R137). -/
def QueuesReach (ops : List (ReachOp × Tenant × Addr)) (s t : State) : Prop :=
  let after (q : List ReachItem) (o : ReachOp × Tenant × Addr) : List ReachItem := reachAfter o.1 o.2.1 o.2.2 q
  (¬ s.reachFree → t.fwd.queue = ops.foldl after s.fwd.queue ∧ t.line = s.line)
    ∧ (ops = [] → t.fwd.queue = s.fwd.queue ∧ t.line = s.line)
    ∧ ∀ o os, ops = o :: os → s.reachFree →
        t.fwd.queue = os.foldl after ((after s.fwd.queue o).drop 14)
        ∧ t.line = { s.line with
            wReach := some { dst := 15, body := .reach s.params.serial ((after s.fwd.queue o).take 14) } }

/-- A count of live accumulators with the like of records: frames, octets and drops, and the charge with the residue (R165). -/
def meterCounts : List ((Accumulator → Nat) × (Record → Nat)) :=
  [(fun a => a.outF.toNat, fun r => r.outF.toNat), (fun a => a.outO.toNat, fun r => r.outO.toNat),
   (fun a => a.inF.toNat, fun r => r.inF.toNat), (fun a => a.inO.toNat, fun r => r.inO.toNat),
   (fun a => a.drops.toNat, fun r => r.drops.toNat),
   (fun a => a.charge.toNat * 1024 + a.residue.toNat, fun r => r.charge.toNat * 1024)]

/-- The sum of a count over the live accumulator of a tenant and class and the records of the pending intervals (R165). -/
def State.meterSum (s : State) (f : (Accumulator → Nat) × (Record → Nat)) (t : Tenant) (b : Cls) : Nat :=
  f.1 (s.acc (accKey t b))
    + (((s.meter.queue.flatMap Interval.records).filter fun r => r.tenant == t && r.bcls == b).map f.2).sum

/-- The live accumulators are those of the 1,024 tenants and classes, each listed once (R156). -/
def State.accLaw (s : State) : Prop := mapWf s.meter.accs = true ∧ ∀ x ∈ s.meter.accs, x.1 < 1024

end Sys2Proof.Machine

section

open Sys2Proof Sys2Proof.Machine

/-! ## The queue of commands and time -/

/-- A step takes the command at the front of the queue, on the state with the queue's rest. -/
def Obligations.StepTakesTheFrontCommand : Prop :=
  ∀ (c : Instr) (rest : List Instr) (s : State), s.pending = c :: rest →
    step s = exec c { s with pending := rest }

/-- The model's choice (log entry 1) on an empty queue: a timed event that is due is taken, and when none is due one
microsecond passes; nothing else changes. -/
def Obligations.EmptyQueueRunsTheTimeBase : Prop :=
  ∀ s : State, s.pending = [] →
    (∃ i u, s.timerOf i = some u ∧ reached s.time.now u = true ∧ step s = exec i s)
      ∨ ((∀ i u, s.timerOf i = some u → reached s.time.now u = false)
          ∧ step s = .next { s with time := { s.time with now := s.time.now + 1 } })

/-- Every command completes with a next state, whatever the state. That it leaves the queue of waiting commands alone, also at
a restart or a full reset, is the model's choice (log entry 3). -/
def Obligations.EveryCommandCompletes : Prop :=
  ∀ (c : Instr) (s : State), ∃ t, exec c s = .next t ∧ t.pending = s.pending

/-! ## Frames: ingress -/

/-- R1: a frame at a port that is not in service or not usable changes nothing; the length of a frame. R2: RUNT, GIANT and
BAD_FCS, the first that applies, each counted once at the ingress port; a BAD_FCS drop adds to the bad-frame count, which
stops at 65,535. Nothing else changes. -/
def Obligations.IngressChecksDropFrames : Prop :=
  (∀ (p : Port) (l : List Byte) (s : State), ¬ s.takesFrames p → exec (.frameReceived p l) s = .next s)
    ∧ (∀ (p : Port) (l : List Byte),
        (p.val < 28 → frameLength p l = l.length) ∧ (28 ≤ p.val → frameLength p l = l.length - 8))
    ∧ ∀ (p : Port) (l : List Byte) (s : State), s.takesFrames p →
      (frameLength p l < 64 → exec (.frameReceived p l) s =
          .next (setPort p (fun u => { u with drops := { u.drops with runt := satInc u.drops.runt } }) s))
        ∧ (9216 < frameLength p l → exec (.frameReceived p l) s =
          .next (setPort p (fun u => { u with drops := { u.drops with giant := satInc u.drops.giant } }) s))
        ∧ (64 ≤ frameLength p l → frameLength p l ≤ 9216 →
            beNat (l.drop (l.length - 4)).reverse ≠ frameCheck (l.take (l.length - 4)) →
            exec (.frameReceived p l) s = .next (setPort p (fun u => { u with
              drops := { u.drops with badFcs := satInc u.drops.badFcs }
              badFrames := if u.badFrames = BitVec.allOnes 16 then u.badFrames else u.badFrames + 1 }) s))

/-- R6, R7 and R9: a frame that no usable rule matches, or whose tenant is absent, is dropped UNCLASSIFIED; one whose tenant
entry is unusable is dropped TENANT_FAULT. R4, R11 and R12: on an X-port, a frame that is no port hello is dropped LOOP when
the port is LOOPED, BAD_TAG when the tag marker is missing or one of the eight cases holds, and LOOP when its origin is this
station; then its tenant entry is read as on the other ports. Each drop is counted at the ingress port and nothing else
changes. R7 and R193: a rule that fails its check at the read becomes unusable, INTEGRITY_FAULT is raised, a refetch is
requested, and the frame goes on as if the rule were absent. R9 case 4: a tenant entry that fails its check likewise, and the
frame is dropped TENANT_FAULT. -/
def Obligations.ReadingFailuresDropFrames : Prop :=
  (∀ (p : Port) (l : List Byte) (s : State), s.takesFrames p → passesChecks p l → p.val < 28 →
      let tenantDrop (t : State) : State :=
        setPort p (fun u => { u with drops := { u.drops with tenantFault := satInc u.drops.tenantFault } }) t
      ((∀ x ∈ s.rules, x.2.integ ≠ .good ∨ (x.2.checkGood = true ∧ x.2.accepts p (frameView l) = false)) →
          exec (.frameReceived p l) s = .next (setPort p (fun u => { u with
            drops := { u.drops with unclassified := satInc u.drops.unclassified } }) s))
        ∧ ∀ before n r after, s.rules = before ++ (n, r) :: after →
            (∀ x ∈ before, x.2.integ ≠ .good ∨ (x.2.checkGood = true ∧ x.2.accepts p (frameView l) = false)) →
            r.integ = .good →
            (r.checkGood = false → mapWf s.rules = true →
              let u : State := { s with
                rules := mapInsert s.rules n { r with integ := s.faultInteg }, loader := s.faultLoader ⟨.rule, n⟩ }
              exec (.frameReceived p l) u = .next (conclude (takeFrame p l u))
                ∧ exec (.frameReceived p l) s =
                  .next (conclude ⟨(takeFrame p l u).st, ⟨.integrityFault, none⟩ :: (takeFrame p l u).evs⟩))
            ∧ (r.checkGood = true → r.accepts p (frameView l) = true →
                (mapFind s.tenants r.tenant.toNat = none →
                    exec (.frameReceived p l) s = .next (setPort p (fun u => { u with
                      drops := { u.drops with unclassified := satInc u.drops.unclassified } }) s))
                  ∧ ∀ e, mapFind s.tenants r.tenant.toNat = some e →
                      (e.integ ≠ .good → exec (.frameReceived p l) s = .next (tenantDrop s))
                      ∧ (e.integ = .good → e.checkGood = false → exec (.frameReceived p l) s =
                          .next (conclude ⟨tenantDrop { s with
                              tenants := mapInsert s.tenants r.tenant.toNat { e with integ := s.faultInteg }
                              loader := s.faultLoader ⟨.tenant, r.tenant.toNat⟩ }, [⟨.integrityFault, none⟩]⟩))))
    ∧ ∀ (p : Port) (l : List Byte) (s : State), s.takesFrames p → passesChecks p l → 28 ≤ p.val →
      frameDst l ≠ Config.helloAddr →
      let loopDrop := setPort p (fun u => { u with drops := { u.drops with loop := satInc u.drops.loop } }) s
      let tagDrop := setPort p (fun u => { u with drops := { u.drops with badTag := satInc u.drops.badTag } }) s
      let tenantDrop (t : State) : State :=
        setPort p (fun u => { u with drops := { u.drops with tenantFault := satInc u.drops.tenantFault } }) t
      let g := readTag l
      ((s.port p).looped = true → exec (.frameReceived p l) s = .next loopDrop)
        ∧ ((s.port p).looped = false →
            (fieldNat l 12 2 ≠ Config.tagMarker ∨ tagVersion l ≠ 1 ∨ g.origin = 15#4 ∨ g.target = 15#4
              ∨ (g.hop ≠ 1 ∧ g.hop ≠ 2) ∨ (g.hop = 2 ∧ g.relay = false) ∨ (g.relay = true ∧ g.target = g.origin)
              ∨ (g.hop = 2 ∧ g.relay = true ∧ g.target ≠ s.loader.station)
              ∨ (g.flood = true ∧ g.diverted = true) ∨ (g.flood = true ∧ g.relay = true)
              ∨ (g.diverted = true ∧ g.relay = true) ∨ 1023 < g.bucket) →
            exec (.frameReceived p l) s = .next tagDrop)
        ∧ ((s.port p).looped = false → fieldNat l 12 2 = Config.tagMarker → tagInvalid s.loader.station l = false →
            (g.origin = s.loader.station → exec (.frameReceived p l) s = .next loopDrop)
            ∧ (g.origin ≠ s.loader.station →
                (mapFind s.tenants g.tenant.toNat = none →
                    exec (.frameReceived p l) s = .next (setPort p (fun u => { u with
                      drops := { u.drops with unclassified := satInc u.drops.unclassified } }) s))
                  ∧ ∀ e, mapFind s.tenants g.tenant.toNat = some e →
                      (e.integ ≠ .good → exec (.frameReceived p l) s = .next (tenantDrop s))
                      ∧ (e.integ = .good → e.checkGood = false → exec (.frameReceived p l) s =
                          .next (conclude ⟨tenantDrop { s with
                              tenants := mapInsert s.tenants g.tenant.toNat { e with integ := s.faultInteg }
                              loader := s.faultLoader ⟨.tenant, g.tenant.toNat⟩ }, [⟨.integrityFault, none⟩]⟩))))

/-- R9, R44, R63, R64, R67, R151 to R155: a unicast frame from a U-port whose destination has a usable local port becomes
one copy there, without restraint test; it is metered inbound unless its tenant is 0. Nothing else changes. A key whose FIXED
entry is under refetch has no hit (R23). -/
def Obligations.SpineFrameReachesTheServerPort : Prop :=
  ∀ (s : State) (p : Port) (l : List Byte) (r : Rule) (e : TenantEntry) (f : FwdEntry) (q : Fin 24),
    s.classifies p l r e → 24 ≤ p.val → groupAddr (frameDst l) = false →
    bucketFaulty (bucketOf r.tenant (frameDst l)) s = false → ¬ s.refetching r.tenant (frameDst l) →
    s.entryAt r.tenant (frameDst l) = some f → f.localPort = some q →
    ((s.port (sPort q)).link = .up ∨ (s.port (sPort q)).link = .degraded) →
    let n := frameLength p l
    let x : Copy :=
      { desc := some (edgeDescriptor p l r e s.params.deepHash), tag := none, cells := (n + 255) / 256, length := n
        octets := l.take (l.length - 4) }
    s.hasRoom (sPort q) r.tcls x.cells → s.ratesGood r e →
    ∃ t, exec (.frameReceived p l) s = .next t ∧ Enqueued (sPort q) r.tcls x s t
      ∧ Frame [.buffer, .meter] s t
      ∧ (r.tenant = 0 → t.meter = s.meter)
      ∧ (r.tenant ≠ 0 →
          let tf := s.tariff e.tariffs[r.bcls.val]
          let k := accKey r.tenant r.bcls
          OnlyAcc k (((s.acc k).inbound n).rate tf.fee tf.inbound n) s t)

/-- R45, R46, R63, R64, R67, R151 to R155: a unicast frame from an S-port that misses the table, is not diverted and is not
restrained becomes one copy to the U-port at index (flow bucket mod m) of the m U-ports that are UP, or DEGRADED when none
is UP. It is metered outbound at the peak rate when that port is in peak, otherwise at the base rate. -/
def Obligations.ServerFrameTakesItsUplink : Prop :=
  ∀ (s : State) (p : Fin 24) (l : List Byte) (r : Rule) (e : TenantEntry) (us : List (Fin 4)) (u : Fin 4),
    s.classifies (sPort p) l r e → groupAddr (frameDst l) = false → s.tableGood →
    (s.entryAt r.tenant (frameDst l) = none ∨ s.refetching r.tenant (frameDst l)) → frameSrc l ≠ frameDst l →
    s.restraintOutcome r.tenant = none →
    s.load.share ≤ flowBucket s.params.deepHash r.tenant l →
    (us = allU.filter (fun v => (s.port (uPort v)).link == .up)
      ∨ (allU.filter (fun v => (s.port (uPort v)).link == .up) = []
          ∧ us = allU.filter fun v => (s.port (uPort v)).link == .degraded)) →
    us[flowBucket s.params.deepHash r.tenant l % us.length]? = some u →
    let x : Copy :=
      { desc := some (edgeDescriptor (sPort p) l r e s.params.deepHash), tag := none, cells := (l.length + 255) / 256
        length := l.length, octets := l.take (l.length - 4) }
    s.hasRoom (uPort u) r.tcls x.cells → s.ratesGood r e →
    ∃ t, exec (.frameReceived (sPort p) l) s = .next t ∧ Enqueued (uPort u) r.tcls x s t
      ∧ Frame [.buffer, .meter, .fwd, .line] s t
      ∧ (r.tenant = 0 → t.meter = s.meter)
      ∧ (r.tenant ≠ 0 →
          let tf := s.tariff e.tariffs[r.bcls.val]
          let k := accKey r.tenant r.bcls
          OnlyAcc k (((s.acc k).outbound l.length).rate tf.fee (if s.load.peak[u.val] then tf.peak else tf.base)
            l.length) s t)

/-- Table 2-2 with R19, R21 and R24: what a frame from S-port `p` teaches the table, whatever becomes of the frame: the
entry, the victim of a full bucket, and the JOIN that is queued for a key that gains a local port. The announced flag of an
entry may change with a REACH composed at once (R26, R137). -/
def Obligations.SourceAddressIsLearned : Prop :=
  ∀ (s : State) (p : Fin 24) (l : List Byte) (r : Rule) (e : TenantEntry),
    s.classifies (sPort p) l r e → s.tableGood → groupAddr (frameSrc l) = false →
    let b := bucketOf r.tenant (frameSrc l)
    let joined := reachAfter .join r.tenant (frameSrc l) s.fwd.queue
    let gains : Prop :=
      (∃ f, s.entryAt r.tenant (frameSrc l) = some f ∧ f.origin = .learned ∧ f.localPort = none)
        ∨ (s.entryAt r.tenant (frameSrc l) = none
          ∧ ∃ i ∈ bucketSlots b, ∀ f, mapFind s.fwd.table i = some f → f.origin = .learned ∧ f.localPort = none)
    ∃ t, exec (.frameReceived (sPort p) l) s = .next t
      ∧ (∀ f, s.entryAt r.tenant (frameSrc l) = some f → f.origin = .learned →
          ∃ a, t.entryAt r.tenant (frameSrc l) = some { f with localPort := some p, age := 0, announced := a })
      ∧ (∀ f, s.entryAt r.tenant (frameSrc l) = some f → f.origin ≠ .learned → t.fwd = s.fwd)
      ∧ (s.entryAt r.tenant (frameSrc l) = none →
          (∀ i ∈ bucketSlots b,
            ((mapFind s.fwd.table i = none ∧ ∀ j ∈ bucketSlots b, j < i → (mapFind s.fwd.table j).isSome = true)
              ∨ ((∀ j ∈ bucketSlots b, (mapFind s.fwd.table j).isSome = true) ∧ ∃ f, s.isVictim b i f)) →
            t.unannounced i = some
                { tenant := r.tenant, addr := frameSrc l, origin := .learned, localPort := some p, age := 0
                  announced := false, holders := [] }
              ∧ ∀ j, j ≠ i → t.unannounced j = s.unannounced j)
          ∧ ((∀ i ∈ bucketSlots b,
              ∃ f, mapFind s.fwd.table i = some f ∧ (f.origin ≠ .learned ∨ f.localPort ≠ none)) →
            t.fwd = { s.fwd with learnRefused := satInc s.fwd.learnRefused }))
      ∧ (¬ gains → t.fwd.queue = s.fwd.queue)
      ∧ (gains → ¬ s.reachFree → t.fwd.queue = joined)
      ∧ (gains → s.reachFree → t.fwd.queue = joined.drop 14
          ∧ t.line.wReach = some { dst := 15, body := .reach s.params.serial (joined.take 14) })

/-! ## Frames: path, buffer, meter -/

/-- R43, R44 (Table 3-2) and R56: the decision on a lookup hit of a frame classified here. R18 and R23: an entry of the key is
a hit when no entry of the bucket is faulty and no FIXED entry of the key is under refetch; a lookup that finds a faulty entry
deals with it, and any other changes nothing. -/
def Obligations.HitIsDecidedByTheEntry : Prop :=
  (∀ (s : State) (t : Tenant) (a : Addr),
      (bucketFaulty (bucketOf t a) s = true → lookup t a s = (none, testBucket (bucketOf t a) s))
      ∧ (bucketFaulty (bucketOf t a) s = false → s.refetching t a → lookup t a s = (none, ⟨s, []⟩))
      ∧ (bucketFaulty (bucketOf t a) s = false → ¬ s.refetching t a → lookup t a s = (s.entryAt t a, ⟨s, []⟩)))
    ∧ ∀ (s : State) (d : Descriptor) (e : FwdEntry), d.tag = none → groupAddr d.dst = false →
    bucketFaulty (bucketOf d.tenant d.dst) s = false → ¬ s.refetching d.tenant d.dst →
    s.entryAt d.tenant d.dst = some e →
    (decideFrame d s).2.st = s ∧ (decideFrame d s).2.evs = []
      ∧ (e.localPort.map sPort = some d.ingress → (decideFrame d s).1 = .drop .samePort)
      ∧ (∀ q, e.localPort = some q → sPort q ≠ d.ingress → s.isUsable (sPort q) →
          (decideFrame d s).1 = .copies [⟨sPort q, none⟩])
      ∧ (e.localPort.map sPort ≠ some d.ingress → (∀ q, e.localPort = some q → ¬ s.isUsable (sPort q)) →
          ((∀ h ∈ e.holders, ¬ s.canUse h) → (decideFrame d s).1 = .drop .noPath)
          ∧ ((e.holders.map Holder.station).Nodup → (∀ h ∈ e.holders, h.station ≠ 15#4) →
              ∀ (hs : List Holder) (h : Holder) (x : PeerSlot),
                hs.Pairwise (fun a b => a.station.toNat < b.station.toNat) →
                (∀ a, a ∈ hs ↔ a ∈ e.holders ∧ s.canUse a) →
                hs[d.bucket % hs.length]? = some h → s.peer h.station = some x →
                (x.state = .active → ∀ y, s.directX h.station = some y →
                    (decideFrame d s).1 = .copies [⟨xPort y, some (ownTag s.loader.station d)⟩])
                ∧ (x.state = .severed → ∀ q y, x.relay = some q → s.directX q = some y →
                    (decideFrame d s).1 =
                      .copies [⟨xPort y, some { ownTag s.loader.station d with relay := true, target := h.station }⟩])))

/-- R46 and R47: the uplink path of a unicast frame from an S-port that misses the table, which has no entry of the key, a faulty
entry in its bucket (R18) or a FIXED entry of the key under refetch (R23): over the diversion peer's direct
X-port for a bucket below the share, else to the U-port at index (flow bucket mod m), else NO_PATH. -/
def Obligations.MissTakesTheUplinkPath : Prop :=
  ∀ (s : State) (d : Descriptor) (p : Fin 24), d.tag = none → d.ingress = sPort p → groupAddr d.dst = false →
    (bucketFaulty (bucketOf d.tenant d.dst) s = true ∨ s.refetching d.tenant d.dst ∨ s.entryAt d.tenant d.dst = none) →
    let up := allU.filter fun v => (s.port (uPort v)).link == .up
    let degraded := allU.filter fun v => (s.port (uPort v)).link == .degraded
    let us := if up = [] then degraded else up
    (d.bucket < s.load.share →
        (∀ st x, s.load.divPeer = some st → s.directX st = some x →
          (decideFrame d s).1 = .copies [⟨xPort x, some { ownTag s.loader.station d with diverted := true }⟩])
        ∧ ((s.load.divPeer.bind s.directX) = none → (decideFrame d s).1 = .drop .noPath))
      ∧ (s.load.share ≤ d.bucket →
          (∀ u, us[d.bucket % us.length]? = some u → (decideFrame d s).1 = .copies [⟨uPort u, none⟩])
          ∧ (us = [] → (decideFrame d s).1 = .drop .noPath))

/-- R57, with the tags of R56: the law of two X-port crossings. -/
def Obligations.FramesCrossAtMostTwoXPorts : Prop :=
  (∀ (s : State) (d : Descriptor) (cs : List CopyPlan), (decideFrame d s).1 = .copies cs →
    ∀ c ∈ cs,
      (c.port.val < 28 → c.tag = none)
      ∧ (28 ≤ c.port.val → d.tag = none →
          ∃ g, c.tag = some g ∧ g.hop = 1 ∧ g.origin = s.loader.station ∧ g.manyFlags = false)
      ∧ (∀ g, d.tag = some g →
          (28 ≤ c.port.val →
            g.relay = true ∧ g.target ≠ s.loader.station ∧ cs = [c] ∧ c.port ≠ d.ingress
              ∧ (∃ x, s.directX g.target = some x ∧ c.port = xPort x)
              ∧ c.tag = some { g with hop := 2, tenant := d.tenant, bcls := d.bcls, tcls := d.tcls, bucket := d.bucket })
          ∧ (g.diverted = true → 24 ≤ c.port.val ∧ c.port.val < 28)
          ∧ (g.diverted = false → g.flood = true → c.port.val < 24)
          ∧ (g.diverted = false → g.flood = false → (g.relay = false ∨ g.target = s.loader.station) →
              c.port.val < 24)))
    ∧ ∀ (own : Station) (l : List Byte), tagInvalid own l = false → (readTag l).hop = 2 →
        (readTag l).relay = true ∧ (readTag l).target = own

/-- R51, R54 and R38: the copies of a flood that entered on an S-port, in their order: S-ports in port order, then the ACTIVE
peers in station order, then the U-port. R45 and R52: the same of a flood, or a unicast frame that misses the table, from a
U-port, which goes back to no U-port. R53, R54 and R55: a flood from an X-port goes to S-ports only, in port order; a bond gets it
only when the origin's bond-up set lacks the bond and no ACTIVE peer of a lower number announces it. -/
def Obligations.FloodsFollowTheirRules : Prop :=
  (∀ (s : State) (d : Descriptor) (p : Fin 24), d.tag = none → d.ingress = sPort p → groupAddr d.dst = true →
      let cand (q : Fin 24) : Bool := d.members.getLsbD q.val && s.usable (sPort q) && q != p
        && !((s.port (sPort p)).bond.isSome && (s.port (sPort q)).bond == (s.port (sPort p)).bond)
      ∃ ss ys us, let xs := s.floodedTo d ys
        (decideFrame d s).1 = (if ss ++ xs ++ us = [] then .drop .noPath else .copies (ss ++ xs ++ us))
        ∧ (∀ c, c ∈ ss ↔ ∃ q, c = ⟨sPort q, none⟩ ∧ s.chosen d.bucket cand q)
        ∧ ss.Pairwise (fun a b => a.port < b.port)
        ∧ s.floodPeers ys
        ∧ us = ((s.uplinkPort d.bucket).map fun u => (⟨u, none⟩ : CopyPlan)).toList)
    ∧ (∀ (s : State) (d : Descriptor), d.tag = none → 24 ≤ d.ingress.val → d.ingress.val < 28 →
      (groupAddr d.dst = true
        ∨ bucketFaulty (bucketOf d.tenant d.dst) s = true ∨ s.refetching d.tenant d.dst
        ∨ s.entryAt d.tenant d.dst = none) →
      ∃ ss ys, let xs := s.floodedTo d ys
        (decideFrame d s).1 = (if ss ++ xs = [] then .drop .noPath else .copies (ss ++ xs))
        ∧ ((groupAddr d.dst = true ∨ bucketFaulty (bucketOf d.tenant d.dst) s = false) → (decideFrame d s).2 = ⟨s, []⟩)
        ∧ (∀ c, c ∈ ss ↔ ∃ q, c = ⟨sPort q, none⟩
            ∧ s.chosen d.bucket (fun v => d.members.getLsbD v.val && s.usable (sPort v)) q)
        ∧ ss.Pairwise (fun a b => a.port < b.port)
        ∧ s.floodPeers ys)
    ∧ ∀ (s : State) (d : Descriptor) (g : GroupTag), d.tag = some g → g.diverted = false → g.flood = true →
      ∃ ss, (decideFrame d s).1 = .copies ss
        ∧ ss.Pairwise (fun a b => a.port < b.port)
        ∧ ∀ c, c ∈ ss ↔ ∃ q, c = ⟨sPort q, none⟩
            ∧ s.chosen d.bucket (fun v => d.members.getLsbD v.val && s.usable (sPort v)) q
            ∧ ∀ b, (s.port (sPort q)).bond = some b →
                (∀ x, s.peer g.origin = some x → x.state ≠ .lost → x.bondUp.getLsbD b = false)
                ∧ ∀ st x, st ≠ 15#4 → st.toNat < s.loader.station.toNat → s.activePeer st = some x →
                    x.bondUp.getLsbD b = false

/-- R46 to R50 and R56: the decision of a frame from an X-port: DIVERTED leaves on the U-port of its bucket, RELAY for another
station goes on to that station's direct X-port, a plain frame or one relayed here goes to a usable local port, else NO_PATH.
A faulty entry in the bucket and a FIXED entry of the key under refetch make it a miss (R18, R23). That a plain frame to a
group address counts as a miss is the model's choice (log entry 26). R12, R58, R63 and R151: such a frame, its tag valid and
its tenant's entry good, is dropped or admitted as decided, with neither restraint test nor metering; a flood without copies
is discarded uncounted (R53). -/
def Obligations.CrossFramesFollowTheirTag : Prop :=
  (∀ (s : State) (d : Descriptor) (g : GroupTag), d.tag = some g →
      (g.diverted = true →
          (∀ u, s.carriers[d.bucket % s.carriers.length]? = some u →
            (decideFrame d s).1 = .copies [⟨uPort u, none⟩])
          ∧ (s.carriers = [] → (decideFrame d s).1 = .drop .noPath))
      ∧ (g.diverted = false → g.flood = false → g.relay = true → g.target ≠ s.loader.station →
          (∀ x, s.directX g.target = some x → xPort x ≠ d.ingress → (decideFrame d s).1 =
            .copies [⟨xPort x, some { g with
              hop := 2, tenant := d.tenant, bcls := d.bcls, tcls := d.tcls, bucket := d.bucket }⟩])
          ∧ ((∀ x, s.directX g.target = some x → xPort x = d.ingress) → (decideFrame d s).1 = .drop .noPath))
      ∧ (g.diverted = false → g.flood = false → (g.relay = false ∨ g.target = s.loader.station) →
          (∀ f q, bucketFaulty (bucketOf d.tenant d.dst) s = false → ¬ s.refetching d.tenant d.dst →
              groupAddr d.dst = false → s.entryAt d.tenant d.dst = some f → f.localPort = some q →
              s.isUsable (sPort q) → (decideFrame d s).1 = .copies [⟨sPort q, none⟩])
          ∧ ((groupAddr d.dst = true ∨ bucketFaulty (bucketOf d.tenant d.dst) s = true ∨ s.refetching d.tenant d.dst
              ∨ ∀ f q, s.entryAt d.tenant d.dst = some f → f.localPort = some q → ¬ s.isUsable (sPort q)) →
              (decideFrame d s).1 = .drop .noPath)))
    ∧ ∀ (s : State) (p : Port) (l : List Byte) (e : TenantEntry), s.takesFrames p → passesChecks p l → 28 ≤ p.val →
      frameDst l ≠ Config.helloAddr → (s.port p).looped = false → fieldNat l 12 2 = Config.tagMarker →
      tagInvalid s.loader.station l = false → (readTag l).origin ≠ s.loader.station →
      mapFind s.tenants (readTag l).tenant.toNat = some e → e.integ = .good → e.checkGood = true →
      bucketFaulty (bucketOf (readTag l).tenant (frameDst l)) s = false →
      let d := crossDescriptor p l (readTag l) e
      let octets := l.take 12 ++ (l.take (l.length - 4)).drop 20
      (∀ r, (decideFrame d s).1 = .drop r → exec (.frameReceived p l) s =
          .next (setPort p (fun u => { u with drops := u.drops.bump r }) s))
        ∧ (∀ cs, (decideFrame d s).1 = .copies cs → exec (.frameReceived p l) s = .next (admitCopies d octets cs s).2)
        ∧ ∀ c, (decideFrame d s).1 = .copies [c] → s.takesFrames c.port →
            let n := if 28 ≤ c.port.val then d.length + 8 else d.length
            let x : Copy := { desc := some d, tag := c.tag, cells := (n + 255) / 256, length := n, octets := octets }
            s.hasRoom c.port d.tcls x.cells →
            ∃ t, exec (.frameReceived p l) s = .next t ∧ Enqueued c.port d.tcls x s t ∧ Frame [.buffer] s t

/-- R64: the tests of a copy in their order, and R63 step 2: the copies of a list in turn; a dropped copy is counted at its
egress port and the first admitted one is reported. -/
def Obligations.CopiesAreAdmittedInOrder : Prop :=
  (∀ (s : State) (p : Port) (c : Cls) (n : Nat),
    (¬ s.takesFrames p → s.admission p c n = some .flushed)
      ∧ (s.takesFrames p → s.params.classLimit < ((s.buffer.ports[p]).classes[c]).occ + n →
          s.admission p c n = some .queueFull)
      ∧ (s.takesFrames p → ((s.buffer.ports[p]).classes[c]).occ + n ≤ s.params.classLimit → s.buffer.free < n →
          s.admission p c n = some .poolEmpty)
      ∧ (s.takesFrames p → s.hasRoom p c n → s.admission p c n = none))
    ∧ ∀ (d : Descriptor) (octets : List Byte) (c : CopyPlan) (cs : List CopyPlan) (s : State),
        let n := if 28 ≤ c.port.val then d.length + 8 else d.length
        let x : Copy := { desc := some d, tag := c.tag, cells := (n + 255) / 256, length := n, octets := octets }
        (∀ r, s.admission c.port d.tcls x.cells = some r →
            admitCopies d octets (c :: cs) s =
              admitCopies d octets cs (setPort c.port (fun u => { u with drops := u.drops.bump r }) s))
          ∧ (s.takesFrames c.port → s.hasRoom c.port d.tcls x.cells → 1 ≤ x.cells →
              ∃ t, Enqueued c.port d.tcls x s t ∧ Frame [.buffer] s t
                ∧ admitCopies d octets (c :: cs) s = (some c, (admitCopies d octets cs t).2))

/-- R63 step 1, R105 and R106: an S-port frame with a copy whose tenant is denied, or listed with its window closed, is
dropped under that reason at its ingress port, after its source address was learned (R19); its accumulator counts a drop and
is marked RESTRAINED. -/
def Obligations.RestrainedFrameIsRefused : Prop :=
  ∀ (s : State) (p : Fin 24) (l : List Byte) (r : Rule) (e : TenantEntry) (cs : List CopyPlan),
    s.classifies (sPort p) l r e → s.tableGood →
    let d := edgeDescriptor (sPort p) l r e s.params.deepHash
    let u := (learnFrame d (frameSrc l) s).st
    (decideFrame d u).1 = .copies cs →
    (r.tenant = 0 ∨ (s.acc (accKey r.tenant r.bcls)).checkGood = true) →
    let k := accKey r.tenant r.bcls
    let a := { (s.acc k).drop with restrained := true }
    Frame [.fwd, .line] s u ∧ (groupAddr (frameSrc l) = true → u = s)
      ∧ ∃ t, exec (.frameReceived (sPort p) l) s = .next t
      ∧ (s.restraint.denied.contains r.tenant = true →
          Frame [.ports, .meter] u t ∧ OnlyPort (sPort p) s t
            ∧ t.port (sPort p) =
              { s.port (sPort p) with
                drops := { (s.port (sPort p)).drops with denied := satInc (s.port (sPort p)).drops.denied } }
            ∧ (r.tenant = 0 → t.meter = s.meter) ∧ (r.tenant ≠ 0 → OnlyAcc k a s t))
      ∧ (∀ start, s.restraint.denied.contains r.tenant = false → s.listedStart r.tenant = some start →
          ¬ (((s.restraint.slot : Int) - start) % 64 < s.params.window) →
          Frame [.ports, .meter] u t ∧ OnlyPort (sPort p) s t
            ∧ t.port (sPort p) =
              { s.port (sPort p) with
                drops := { (s.port (sPort p)).drops with restrained := satInc (s.port (sPort p)).drops.restrained } }
            ∧ (r.tenant = 0 → t.meter = s.meter) ∧ (r.tenant ≠ 0 → OnlyAcc k a s t))

/-- R151 to R154 and R157: how the meter counts and rates a frame whose first admitted copy goes to `egress` with tag `tag`,
and one without an admitted copy: the column of R153, an unusable tariff, a tariff that fails its check at the read, and an
accumulator that fails its own. A frame of tenant 0, or one classified elsewhere, changes nothing. R19, R58, R63 and R67: what
a classified frame that is not restrained brings to the meter. -/
def Obligations.MeteringFollowsColumnsAndFaults : Prop :=
  (∀ (s : State) (d : Descriptor) (egress : Port) (tag : Option GroupTag), d.tag = none → d.tenant ≠ 0 →
      let k := accKey d.tenant d.bcls
      let n := d.tariffs[d.bcls.val]
      let tf := s.tariff n
      let rate :=
        if 24 ≤ d.ingress.val ∧ d.ingress.val < 28 then tf.inbound
        else if groupAddr d.dst = true then tf.base
        else if ∃ u : Fin 4, egress = uPort u ∧ s.load.peak[u.val] = true then tf.peak
        else if (tag.any fun g => g.diverted) = true then tf.detour
        else tf.base
      let counted : Accumulator :=
        if 24 ≤ d.ingress.val ∧ d.ingress.val < 28 then (s.readAcc k).inbound d.length
        else (s.readAcc k).outbound d.length
      let faults : List Event := if (s.acc k).checkGood = true then [] else [⟨.integrityFault, none⟩]
      let faulted (c : Count) : Count := if (s.acc k).checkGood = true then c else satInc c
      let o := reportAdmitted d egress tag s
      let v := reportNone d s
      (tf.integ = .good → tf.checkGood = true →
          OnlyAcc k (counted.rate tf.fee rate d.length) s o.st ∧ o.evs = faults ∧ Frame [.meter, .loader] s o.st
            ∧ o.st.loader = { s.loader with integrityFaults := faulted s.loader.integrityFaults })
        ∧ (tf.integ ≠ .good →
          OnlyAcc k { counted with tariffFault := true } s o.st ∧ o.evs = faults ∧ Frame [.meter, .loader] s o.st
            ∧ o.st.loader = { s.loader with integrityFaults := faulted s.loader.integrityFaults })
        ∧ (tf.integ = .good → tf.checkGood = false →
          OnlyAcc k { counted with tariffFault := true } s o.st ∧ o.evs = faults ++ [⟨.integrityFault, none⟩]
            ∧ Frame [.meter, .tariffs, .loader] s o.st
            ∧ o.st.tariff n = { tf with integ := s.faultInteg } ∧ (∀ m, m ≠ n → o.st.tariff m = s.tariff m)
            ∧ o.st.loader = { s.faultLoader ⟨.tariff, n⟩ with
                integrityFaults := satInc (faulted s.loader.integrityFaults) })
        ∧ OnlyAcc k (s.readAcc k).drop s v.st ∧ v.evs = faults ∧ Frame [.meter, .loader] s v.st
        ∧ v.st.loader = { s.loader with integrityFaults := faulted s.loader.integrityFaults })
    ∧ (∀ (s : State) (d : Descriptor) (egress : Port) (tag : Option GroupTag), (d.tag ≠ none ∨ d.tenant = 0) →
        reportAdmitted d egress tag s = ⟨s, []⟩ ∧ reportNone d s = ⟨s, []⟩)
    ∧ ∀ (s : State) (p : Port) (l : List Byte) (r : Rule) (e : TenantEntry), s.classifies p l r e → s.tableGood →
      let d := edgeDescriptor p l r e s.params.deepHash
      let u := (learnFrame d (frameSrc l) s).st
      (∀ reason, (decideFrame d u).1 = .drop reason → exec (.frameReceived p l) s =
          .next (conclude (reportNone d (setPort p (fun v => { v with drops := v.drops.bump reason }) u))))
        ∧ ∀ cs, (decideFrame d u).1 = .copies cs → (24 ≤ p.val ∨ s.restraintOutcome r.tenant = none) →
            let q := admitCopies d (l.take (l.length - 4)) cs u
            (∀ c, q.1 = some c →
                exec (.frameReceived p l) s = .next (conclude (reportAdmitted d c.port c.tag q.2)))
              ∧ (q.1 = none → exec (.frameReceived p l) s = .next (conclude (reportNone d q.2)))

/-- R68 and R69: a transmission ends: the cells return, the counts change, and the port chooses the front copy of its highest
class that holds any. That at a port that sends nothing the command changes nothing is the model's choice (log entry 44). -/
def Obligations.TransmissionEndReturnsCells : Prop :=
  ∀ (s : State) (p : Port),
    ((s.buffer.ports[p]).sending = none → exec (.transmissionEnd p) s = .next s)
      ∧ ∀ (c : Cls) (x : Copy) (xs : List Copy), (s.buffer.ports[p]).sending = some c →
          ((s.buffer.ports[p]).classes[c]).copies = x :: xs → mapWf s.buffer.tenantOcc = true →
          ∃ t, exec (.transmissionEnd p) s = .next t ∧ Frame [.buffer] s t ∧ OnlyQueues p s t
            ∧ t.buffer.free = s.buffer.free + x.cells
            ∧ (t.buffer.ports[p]).classes[c] =
                { copies := xs, occ := ((s.buffer.ports[p]).classes[c]).occ - x.cells
                  num := ((s.buffer.ports[p]).classes[c]).num - 1 }
            ∧ (∀ d : Cls, d ≠ c → (t.buffer.ports[p]).classes[d] = (s.buffer.ports[p]).classes[d])
            ∧ (t.buffer.ports[p]).txCopies = (s.buffer.ports[p]).txCopies + 1
            ∧ (t.buffer.ports[p]).txOctets = (s.buffer.ports[p]).txOctets + BitVec.ofNat 48 x.length
            ∧ (s.takesFrames p → (t.buffer.ports[p]).sendsHighest)
            ∧ (¬ s.takesFrames p → (t.buffer.ports[p]).sending = none)
            ∧ ∀ y : Tenant, t.tenantCells y = s.tenantCells y - if y = x.tenant then x.cells else 0

/-! ## Ports -/

/-- R110, R114, R115 and R126: carrier up takes a DOWN port to UP in JOINING and RUNNING, with its decay timer started, and
raises PORT_UP; a U-port ends isolation, and a U-port or X-port has a LINK composed. R110, R111, R112, R115, R70 and R126:
carrier down takes a usable port to HELD with its penalty raised, its hold started and its queues flushed, each copy counted
FLUSHED, and raises PORT_DOWN; it restarts the hold of a HELD port. In every other state only carrier present changes. R128
and R92: the loss of the last usable U-port sets ISOLATED at once, and the load unit then diverts every bucket to the
isolation peer or none. R121, R42, R90 and R94: what follows at the slots, the relays and the diversion (PeersFollow); the order
of these consequences is the model's choice (log entry 30). -/
def Obligations.CarrierMovesThePort : Prop :=
  (∀ (s : State) (p : Port),
    ((s.acting = false ∨ (s.port p).link ≠ .down) →
        exec (.carrierUp p) s = .next (setPort p (fun u => { u with carrier := true }) s))
      ∧ (s.acting = true → (s.port p).link = .down →
          ∃ o t, exec (.carrierUp p) s = .next t ∧ t = conclude o ∧ (⟨.portUp, some p.val⟩ : Event) ∈ o.evs
            ∧ PeersFollow s o ∧ OnlyPort p s t
            ∧ Frame [.ports, .peers, .load, .line, .links, .meter, .chans, .loader] s t
            ∧ t.port p = { s.port p with
                carrier := true, link := .up, badFrames := 0, holdExpiry := none
                decayExpiry := some (s.time.now + BitVec.ofNat 48 (s.params.decay * 1000000)) }
            ∧ (24 ≤ p.val → p.val < 28 → t.peers.isolated = false)
            ∧ (24 ≤ p.val → s.line.conflict = false → t.line.wLink = some t.linkNow)))
    ∧ (∀ (s : State) (p : Port),
      let pen := if (s.port p).penalty + 1 ≤ 6 then (s.port p).penalty + 1 else 6
      let hold := s.time.now + BitVec.ofNat 48 (holdSeconds s.params.holdBase pen * 1000000)
      ((s.acting = false ∨ (s.port p).link = .down) →
          exec (.carrierDown p) s = .next (setPort p (fun u => { u with carrier := false }) s))
        ∧ (s.acting = true → (s.port p).link = .held →
            exec (.carrierDown p) s =
              .next (setPort p (fun u => { u with carrier := false, penalty := pen, holdExpiry := some hold }) s))
        ∧ (s.acting = true → s.isUsable p →
            ∃ o t, exec (.carrierDown p) s = .next t ∧ t = conclude o ∧ (⟨.portDown, some p.val⟩ : Event) ∈ o.evs
              ∧ PeersFollow s o ∧ OnlyPort p s t
              ∧ Frame [.ports, .buffer, .peers, .load, .line, .links, .meter, .chans, .loader] s t
              ∧ t.port p = { s.port p with
                  carrier := false, link := .held, penalty := pen, holdExpiry := some hold, badFrames := 0
                  decayExpiry := none, far := none, looped := false, lapseExpiry := none
                  drops := { (s.port p).drops with
                    flushed := satInc^[(s.buffer.ports[p]).allCopies.length] (s.port p).drops.flushed } }
              ∧ Flushed p s t
              ∧ (24 ≤ p.val → s.line.conflict = false → t.line.wLink = some t.linkNow)))
    ∧ ∀ (s : State) (u : Fin 4), s.acting = true → s.isUsable (uPort u) →
      (∀ v : Fin 4, v ≠ u → ¬ s.isUsable (uPort v)) →
      ∃ t, exec (.carrierDown (uPort u)) s = .next t ∧ t.peers.isolated = true
        ∧ (s.peers.isolated = false →
            (t.load.share = 1024 ∧ t.load.divPeer.isSome = true) ∨ (t.load.share = 0 ∧ t.load.divPeer = none))

/-- R110 and R111: at its hold expiry a HELD port becomes UP when carrier is present and DOWN when it is absent. R114: at its
decay expiry a usable port sheds one point of penalty, and the timer runs for a further period; it is stopped elsewhere. A port
whose timer does not run is left alone (log entry 2: the command brings the time to the expiry). R113, R115 and R33: at the
one-second event each usable port is compared with the degrade threshold in JOINING and RUNNING, PORT_DEGRADED or PORT_UP is
raised for one that changes, every bad-frame count is cleared, and an aging pass starts at bucket 0. R115, R121, R126 and R128:
what follows at slots, relays, diversion, ISOLATED and LINK notice is as after carrier up (PeersFollow, log entry 30). In
LOADING only the time base moves, and in FAILSAFE a pass starts as well (the model's choice, log entry 40); that the time comes
to the due moment is the model's choice (log entry 2). -/
def Obligations.PortTimersAndTheSecond : Prop :=
  (∀ (s : State) (p : Port),
      ((s.port p).holdExpiry = none → exec (.holdExpiry p) s = .next s)
        ∧ ∀ u, (s.port p).holdExpiry = some u →
            ∃ o t, exec (.holdExpiry p) s = .next t ∧ t = conclude o ∧ PeersFollow s o ∧ OnlyPort p s t
              ∧ ((⟨.portUp, some p.val⟩ : Event) ∈ o.evs ↔ (s.port p).link = .held ∧ (s.port p).carrier = true)
              ∧ ((s.port p).link = .held → (s.port p).carrier = true → 24 ≤ p.val → p.val < 28 →
                  t.peers.isolated = false)
              ∧ Frame [.ports, .time, .peers, .load, .line, .links, .meter, .chans, .loader] s t
              ∧ t.time = { s.time with now := s.timeAt u }
              ∧ t.port p =
                  if (s.port p).link = .held then
                    if (s.port p).carrier then
                      { s.port p with
                        holdExpiry := none, link := .up, badFrames := 0
                        decayExpiry := some (s.timeAt u + BitVec.ofNat 48 (s.params.decay * 1000000)) }
                    else { s.port p with holdExpiry := none, link := .down, badFrames := 0 }
                  else { s.port p with holdExpiry := none })
    ∧ (∀ (s : State) (p : Port),
      ((s.port p).decayExpiry = none → exec (.decayExpiry p) s = .next s)
        ∧ ∀ u, (s.port p).decayExpiry = some u →
            ∃ t, exec (.decayExpiry p) s = .next t ∧ OnlyPort p s t ∧ Frame [.ports, .time] s t
              ∧ t.time = { s.time with now := s.timeAt u }
              ∧ (s.isUsable p → t.port p = { s.port p with
                  penalty := if 0 < (s.port p).penalty then (s.port p).penalty - 1 else 0
                  decayExpiry := some (u + BitVec.ofNat 48 (s.params.decay * 1000000)) })
              ∧ (¬ s.isUsable p → t.port p = { s.port p with decayExpiry := none }))
    ∧ ∀ s : State,
      let tb : TimeBase :=
        { s.time with now := s.timeAt s.time.secondDue, secondDue := s.time.secondDue + BitVec.ofNat 48 1000000 }
      (s.loader.phase = .loading → exec .oneSecondEvent s = .next { s with time := tb })
        ∧ (s.loader.phase ≠ .loading →
            ∃ o t, exec .oneSecondEvent s = .next t ∧ t = conclude o ∧ t.time = tb
              ∧ (s.acting = true → PeersFollow s o)
              ∧ (s.acting = false → Frame [.ports, .time, .fwd] s t)
              ∧ (∀ p : Port, ((⟨.portDegraded, some p.val⟩ : Event) ∈ o.evs ↔ s.acting = true
                  ∧ (s.port p).link = .up ∧ s.params.degrade ≤ (s.port p).badFrames.toNat)
                ∧ ((⟨.portUp, some p.val⟩ : Event) ∈ o.evs ↔ s.acting = true ∧ (s.port p).link = .degraded
                  ∧ (s.port p).badFrames.toNat < s.params.degrade))
              ∧ Frame [.ports, .time, .fwd, .peers, .load, .line, .links, .meter, .chans, .loader] s t
              ∧ t.fwd = { s.fwd with agingPos := 0, agingOn := true }
              ∧ ∀ p : Port, t.port p = { s.port p with
                  badFrames := 0
                  link :=
                    if s.acting = true ∧ (s.port p).link = .up ∧ s.params.degrade ≤ (s.port p).badFrames.toNat then
                      .degraded
                    else if s.acting = true ∧ (s.port p).link = .degraded
                        ∧ (s.port p).badFrames.toNat < s.params.degrade then .up
                    else (s.port p).link })

/-- R118: what a port hello does, by the station number it carries; where its number and serial stand in the frame is the
model's choice (log entry 8). R119 case 1: at its lapse expiry an X-port loses its far station and keeps its LOOPED mark (log
entry 2: the command brings the time to the expiry). R121, R42, R90, R94 and R126: the slots follow, JOINING and SEVERED to ACTIVE
and ACTIVE to SEVERED, with relays, diversion and LINK notice after them (PeersFollow, in the order of log entry 30). -/
def Obligations.PortHellosAndTheirLapse : Prop :=
  (∀ (s : State) (x : XIndex) (l : List Byte), s.takesFrames (xPort x) → passesChecks (xPort x) l →
      frameDst l = Config.helloAddr →
      let n := helloNumber l
      let lapse := s.time.now + BitVec.ofNat 48 (3 * (s.params.helloPeriod * 1000))
      (15 ≤ n → exec (.frameReceived (xPort x) l) s = .next s)
        ∧ (n < 15 → ∃ o t, exec (.frameReceived (xPort x) l) s = .next t ∧ t = conclude o ∧ PeersFollow s o
            ∧ OnlyPort (xPort x) s t
            ∧ Frame [.ports, .peers, .load, .line, .links, .meter, .chans, .loader] s t
            ∧ t.port (xPort x) =
                if n = s.loader.station.toNat then
                  { s.port (xPort x) with far := none, looped := true, lapseExpiry := some lapse }
                else if (s.port (xPort x)).far = some (BitVec.ofNat 4 n) then
                  { s.port (xPort x) with lapseExpiry := some lapse }
                else { s.port (xPort x) with
                  far := some (BitVec.ofNat 4 n), farSerial := helloSerial l, looped := false, lapseExpiry := some lapse }))
    ∧ ∀ (s : State) (x : XIndex),
      ((s.port (xPort x)).lapseExpiry = none → exec (.lapseExpiry x) s = .next s)
        ∧ ∀ u, (s.port (xPort x)).lapseExpiry = some u →
            ∃ o t, exec (.lapseExpiry x) s = .next t ∧ t = conclude o ∧ PeersFollow s o ∧ OnlyPort (xPort x) s t
              ∧ Frame [.ports, .time, .peers, .load, .line, .links, .meter, .chans, .loader] s t
              ∧ t.time = { s.time with now := s.timeAt u }
              ∧ t.port (xPort x) = { s.port (xPort x) with far := none, lapseExpiry := none }

/-! ## The forwarding table -/

/-- R24: what queuing an operation for a key does to the reach queue, and to the sweep when the queue is full (R32). R26 and
R137: a REACH takes up to 14 items from the front of the queue when slot 5 is empty, and the announced flag of each taken key
with an entry follows its item; otherwise nothing happens. That the flag is written without a test of the entry, so that one
whose check is bad stays, is the model's choice (log entry 52). -/
def Obligations.ReachQueueAndItsNotice : Prop :=
  (∀ (s : State) (op : ReachOp) (t : Tenant) (a : Addr),
      Frame [.fwd] s (enqueueReach op t a s)
        ∧ (enqueueReach op t a s).fwd.queue = reachAfter op t a s.fwd.queue
        ∧ (((s.fwd.queue.any fun i => i.tenant == t && i.addr == a) = true ∨ s.fwd.queue.length < 512) →
            enqueueReach op t a s = { s with fwd := { s.fwd with queue := reachAfter op t a s.fwd.queue } })
        ∧ ((s.fwd.queue.any fun i => i.tenant == t && i.addr == a) = false → 512 ≤ s.fwd.queue.length →
            (∀ i, s.fwd.sweep = some i → enqueueReach op t a s = { s with fwd := { s.fwd with resweep := true } })
            ∧ (s.fwd.sweep = none →
                enqueueReach op t a s = { s with fwd := { s.fwd with sweep := some 0, resweep := false } })))
    ∧ ∀ s : State,
      ((¬ s.reachFree ∨ s.fwd.queue = []) → composeReach s = s)
        ∧ (s.reachFree → s.fwd.queue ≠ [] →
            Frame [.fwd, .line] s (composeReach s)
            ∧ (composeReach s).line =
                { s.line with
                  wReach := some { dst := 15, body := .reach s.params.serial (s.fwd.queue.take 14) } }
            ∧ (composeReach s).fwd.queue = s.fwd.queue.drop 14
            ∧ (∀ i, ((mapFind (composeReach s).fwd.table i).map fun e => { e with announced := false })
                = (mapFind s.fwd.table i).map fun e => { e with announced := false })
            ∧ ((s.fwd.queue.map fun i => (i.tenant, i.addr)).Nodup → ∀ (it : ReachItem) (e : FwdEntry),
                it ∈ s.fwd.queue.take 14 → s.entryAt it.tenant it.addr = some e →
                ∃ f, (composeReach s).entryAt it.tenant it.addr = some f
                  ∧ (it.op = .leave → f.announced = false)
                  ∧ (it.op = .join → f.announced = if e.localPort.isSome then true else e.announced)))

/-- R33, R34, R35, R17 and R25: an aging visit to a bucket whose entries all pass their check. Each entry is aged, its holders
expire, an empty LEARNED one is removed; the walk goes on to the next bucket. The announced flags may change with a REACH
composed at once. While no REACH can be composed, the key of an entry that lost its local port has a LEAVE queued when an
item for it was queued or the entry was announced. -/
def Obligations.AgingVisitAgesOneBucket : Prop :=
  ∀ s : State, s.fwd.agingOn = true → mapWf s.fwd.table = true →
    (∀ i ∈ bucketSlots s.fwd.agingPos, ∀ e, mapFind s.fwd.table i = some e → e.checkGood = true) →
    ∃ t, exec .agingVisit s = .next t ∧ Frame [.fwd, .line] s t
      ∧ (s.fwd.agingPos < 4095 → t.fwd.agingPos = s.fwd.agingPos + 1 ∧ t.fwd.agingOn = true)
      ∧ (4095 ≤ s.fwd.agingPos → t.fwd.agingPos = 0 ∧ t.fwd.agingOn = false)
      ∧ (∀ i, i ∉ bucketSlots s.fwd.agingPos →
          ((mapFind t.fwd.table i).map fun e => { e with announced := false })
            = (mapFind s.fwd.table i).map fun e => { e with announced := false })
      ∧ (∀ i ∈ bucketSlots s.fwd.agingPos, mapFind s.fwd.table i = none → mapFind t.fwd.table i = none)
      ∧ ∀ i ∈ bucketSlots s.fwd.agingPos, ∀ e, mapFind s.fwd.table i = some e →
          let hs := e.holders.filter s.keepsHolder
          (s.losesPort e →
              (hs = [] → mapFind t.fwd.table i = none)
              ∧ (hs ≠ [] → ∃ a, mapFind t.fwd.table i =
                  some { e with localPort := none, age := 0, holders := hs, announced := a })
              ∧ (¬ s.reachFree → s.fwd.queue.length + 4 ≤ 512 →
                  ((s.fwd.queue.any (fun x => x.isFor e.tenant e.addr) = true ∨ e.announced = true) →
                    (⟨e.tenant, e.addr, .leave⟩ : ReachItem) ∈ t.fwd.queue)))
          ∧ (¬ s.losesPort e → e.origin = .learned → e.localPort.isSome = true →
              ∃ a, mapFind t.fwd.table i = some { e with age := min (e.age + 1) 4095, holders := hs, announced := a })
          ∧ (e.origin = .learned → e.localPort = none →
              (hs = [] → mapFind t.fwd.table i = none)
              ∧ (hs ≠ [] → ∃ a, mapFind t.fwd.table i = some { e with holders := hs, announced := a }))
          ∧ (e.origin ≠ .learned → ∃ a, mapFind t.fwd.table i = some { e with holders := hs, announced := a })

/-- R30 and R32: REFRESH_END increases the refresh period number, starts a sweep or counts an overrun, and is due again one
period later; before the entry to JOINING the generator does not run. R31, R32, R24 and R137: a visit of the sweep to a place
whose entry passes its check, or which is empty: a JOIN is queued for an entry with a usable local port, and the sweep goes
on, or ends and starts anew when one is due or asked for. A paused sweep visits nothing. The model's choices: the time comes
to the due moment and a generator that does not run changes nothing (log entry 2), one place per command (log entry 10), a
visit without a sweep changes nothing (log entry 44). -/
def Obligations.RefreshSweepsTheTable : Prop :=
  (∀ s : State,
      (s.time.refreshDue = none → exec .refreshEnd s = .next s)
        ∧ ∀ u, s.time.refreshDue = some u →
            let tb : TimeBase :=
              { s.time with
                now := s.timeAt u, refreshDue := some (u + BitVec.ofNat 48 (s.params.refreshPeriod * 1000000)) }
            (s.fwd.sweep = none → exec .refreshEnd s =
                .next { s with time := tb, fwd := { s.fwd with period := s.fwd.period + 1, sweep := some 0 } })
            ∧ (∀ i, s.fwd.sweep = some i → exec .refreshEnd s =
                .next { s with time := tb, fwd := { s.fwd with
                  period := s.fwd.period + 1, sweepOverrun := satInc s.fwd.sweepOverrun, sweepDue := true } }))
    ∧ ∀ s : State,
      ((s.fwd.sweep = none ∨ 256 ≤ s.fwd.queue.length) → exec .sweepVisit s = .next s)
        ∧ ∀ i, s.fwd.sweep = some i → s.fwd.queue.length < 256 →
            (∀ e, mapFind s.fwd.table i = some e → e.checkGood = true) →
            let swept (f : Forwarding) : Forwarding :=
              if i < 16383 then { f with sweep := some (i + 1) }
              else if s.fwd.sweepDue = true ∨ s.fwd.resweep = true then
                { f with sweep := some 0, sweepDue := false, resweep := false }
              else { f with sweep := none }
            ((∀ e p, mapFind s.fwd.table i = some e → e.localPort = some p → ¬ s.isUsable (sPort p)) →
                exec .sweepVisit s = .next { s with fwd := swept s.fwd })
            ∧ ∀ e p, mapFind s.fwd.table i = some e → e.localPort = some p → s.isUsable (sPort p) →
                let q := reachAfter .join e.tenant e.addr s.fwd.queue
                (¬ s.reachFree → exec .sweepVisit s = .next { s with fwd := { swept s.fwd with queue := q } })
                ∧ (s.reachFree → ∃ t, exec .sweepVisit s = .next t ∧ Frame [.fwd, .line] s t
                    ∧ t.fwd = { swept s.fwd with queue := q.drop 14, table := t.fwd.table }
                    ∧ (∀ j, ((mapFind t.fwd.table j).map fun f => { f with announced := false })
                        = (mapFind s.fwd.table j).map fun f => { f with announced := false })
                    ∧ t.line = { s.line with
                        wReach := some { dst := 15, body := .reach s.params.serial (q.take 14) } })

/-- R36 and R193: an entry that fails its check when the sweep visits it is removed; INTEGRITY_FAULT is raised and counted; a key
with a local port has a LEAVE queued; a FIXED entry has its refetch requested. -/
def Obligations.FaultyEntryIsRemoved : Prop :=
  ∀ (s : State) (i : Nat) (e : FwdEntry), s.fwd.sweep = some i → s.fwd.queue.length < 256 →
    mapWf s.fwd.table = true → mapFind s.fwd.table i = some e → e.checkGood = false →
    ∃ u, exec .sweepVisit s = .next (conclude ⟨u, [⟨.integrityFault, none⟩]⟩)
      ∧ mapFind u.fwd.table i = none
      ∧ u.loader.integrityFaults = satInc s.loader.integrityFaults
      ∧ (e.localPort = none → u.fwd.queue = s.fwd.queue)
      ∧ (e.localPort.isSome = true → ¬ s.reachFree → u.fwd.queue = reachAfter .leave e.tenant e.addr s.fwd.queue)
      ∧ (e.origin = .learned → Frame [.fwd, .line, .loader] s u ∧ u.loader.refetch = s.loader.refetch)
      ∧ ∀ n f, e.origin = .fixed n → mapFind s.fixed n = some f →
          Frame [.fwd, .line, .fixed, .loader] s u
            ∧ (s.loader.refetch.length < 8 → u.loader.refetch = s.loader.refetch ++ [⟨.fixed, n⟩]
                ∧ mapFind u.fixed n = some { f with integ := .queued })
            ∧ (8 ≤ s.loader.refetch.length → u.loader.refetch = s.loader.refetch
                ∧ mapFind u.fixed n = some { f with integ := .waiting })

/-! ## Periodic events -/

/-- R77, R78, R80 and R81 with Table 11-1: what a SAMPLE does to the load indices, the uplink index and the peak states in
JOINING and RUNNING; elsewhere only the time base moves. That the time comes to the due moment is the model's choice (log
entry 2). R87 to R89 and R91: the diversion peer and share after a SAMPLE that the load unit acts on, by Table 5-3 or, while
ISOLATED, by the isolation rule, each judged on the indices of that SAMPLE. R94: DIVERSION_START or DIVERSION_END is the first
event of the SAMPLE when its share leaves 0 or comes to 0. -/
def Obligations.SampleRunsTheLoadUnit : Prop :=
  (∀ s : State,
    let tb : TimeBase :=
      { s.time with
        now := s.timeAt s.time.sampleDue, sampleDue := s.time.sampleDue + BitVec.ofNat 48 s.params.samplePeriod }
    (s.acting = false → exec .sample s = .next { s with time := tb })
      ∧ (s.acting = true → ∃ t, exec .sample s = .next t ∧ t.time = tb
          ∧ Frame [.time, .load, .restraint, .line, .links, .meter, .chans, .loader] s t
          ∧ (∀ i : Fin 9, (t.load.idx[i] : Int) =
              indexAfter s.params.loadShift s.params.basis (s.portCells (indexPort i)) s.load.idx[i])
          ∧ (t.load.uplink = if s.carriers = [] then 32767
              else (s.carriers.map fun v => t.load.idx[v.val]).sum / s.carriers.length)
          ∧ (∀ u : Fin 4, t.load.peak[u] = true ↔ s.params.tp ≤ t.load.idx[u.val])
          ∧ t.load.loadIgnored = s.load.loadIgnored))
    ∧ ∀ s : State, s.acting = true → ∃ t, exec .sample s = .next t
      ∧ (s.peers.isolated = false →
          ((∀ st g, ¬ t.eligibleGap st g) → t.load.divPeer = none ∧ t.load.share = 0)
          ∧ ∀ st g, t.isBest st g →
              let target : Int := if g / 32 < s.params.cap then g / 32 else s.params.cap
              t.load.divPeer = some st
              ∧ (s.load.share = 0 → (t.load.share : Int) =
                  if target ≤ s.params.slew then target else s.params.slew)
              ∧ (0 < s.load.share → s.load.divPeer = some st → (t.load.share : Int) =
                  if (s.load.share : Int) + s.params.slew < target then (s.load.share : Int) + s.params.slew
                  else if target < (s.load.share : Int) - s.params.slew then (s.load.share : Int) - s.params.slew
                  else target)
              ∧ (0 < s.load.share → s.load.divPeer ≠ some st → t.load.share = 0))
      ∧ (s.peers.isolated = true →
          ((∀ st v, ¬ t.isolationIndex st v) → t.load.divPeer = none ∧ t.load.share = 0)
          ∧ ∀ st v, t.isolationIndex st v →
              (∀ o w, t.isolationIndex o w → v < w ∨ (v = w ∧ st.toNat ≤ o.toNat)) →
              t.load.divPeer = some st ∧ t.load.share = 1024)
      ∧ ∃ u d r, SampleRuns s u d r ∧ u.load = t.load
          ∧ d = (if s.load.share = 0 ∧ 0 < t.load.share then [⟨.diversionStart, none⟩]
              else if 0 < s.load.share ∧ t.load.share = 0 then [⟨.diversionEnd, none⟩] else [])

/-- R99 to R103: the restraint unit at a SAMPLE it acts on: the slot counter, the mode, the exits, then the entries in
ascending tenant. R100 and R103: its events, after those of the load unit: RESTRAINT_ON or RESTRAINT_OFF at a change of mode, then
one TENANT_DENIED for each tenant that is denied. -/
def Obligations.SampleRunsTheRestraintUnit : Prop :=
  ∀ s : State, s.acting = true → mapWf s.restraint.settings = true →
    (∀ x ∈ s.restraint.settings, x.1 < 256) →
    ∃ t, exec .sample s = .next t
      ∧ t.restraint.slot = (s.restraint.slot + 1) % 64
      ∧ t.restraint.settings = s.restraint.settings
      ∧ (s.restraint.on = false → s.params.onLevel ≤ s.buffer.free →
          t.restraint = { s.restraint with slot := (s.restraint.slot + 1) % 64 })
      ∧ (s.restraint.on = true → s.params.offLevel ≤ s.buffer.free →
          t.restraint = { s.restraint with
            slot := (s.restraint.slot + 1) % 64, on := false, list := [], denied := [], nextStart := 0 })
      ∧ ((s.restraint.on = false ∧ s.buffer.free < s.params.onLevel
            ∨ s.restraint.on = true ∧ s.buffer.free < s.params.offLevel) →
          t.restraint.on = true
          ∧ (t.restraint.list, t.restraint.denied, t.restraint.nextStart) =
              everyTenant.foldl s.enter
                (s.restraint.list.filter fun i => decide ((s.setting i.1).quota * 3 / 4 < s.tenantCells i.1),
                 s.restraint.denied.filter fun u => decide ((s.setting u).quota < s.tenantCells u),
                 s.restraint.nextStart))
      ∧ ∃ u d r, SampleRuns s u d r ∧ u.restraint = t.restraint
          ∧ r = (if s.restraint.on = true ∧ t.restraint.on = false then [⟨.restraintOff, none⟩]
              else if s.restraint.on = false ∧ t.restraint.on = true then [⟨.restraintOn, none⟩] else [])
            ++ if t.restraint.on = true then
              List.replicate
                (t.restraint.denied.length - (s.restraint.denied.filter fun x =>
                  decide ((s.setting x).quota < s.tenantCells x)).length)
                ⟨.tenantDenied, none⟩
            else []

/-- R82 and R83: LOAD_DUE composes a LOAD notice in JOINING and RUNNING with CONFLICT clear. R145, R117, R66, R126 and R191:
HELLO_DUE composes a HELLO; in JOINING and RUNNING the third one leads to RUNNING, each X-port that may send and has no hello
waiting takes a cell for a port hello, and every fourth one composes a LINK. Both are due again one period later and run from
the end of LOADING. The model's choices: the time comes to the due moment, and a generator that does not run changes nothing
(log entry 2); one count of HELLO_DUEs serves the third and the fourth (log entry 35); the X-ports take cells in the order X0
to X4, and those left without count POOL_EMPTY (log entry 47). -/
def Obligations.NoticeGeneratorsCompose : Prop :=
  (∀ s : State,
      (s.time.loadDue = none → exec .loadDue s = .next s)
        ∧ ∀ u, s.time.loadDue = some u →
            let tb : TimeBase :=
              { s.time with now := s.timeAt u, loadDue := some (u + BitVec.ofNat 48 (s.params.loadPeriod * 1000)) }
            (s.acting = true → s.line.conflict = false → exec .loadDue s =
                .next { s with time := tb, line := { s.line with wLoad := some s.loadNow } })
            ∧ ((s.acting = false ∨ s.line.conflict = true) → exec .loadDue s = .next { s with time := tb }))
    ∧ ∀ s : State,
      let wantsHello (x : XIndex) : Bool := s.portReady (xPort x) && !(s.buffer.ports[xPort x]).helloWaits
      (s.time.helloDue = none → exec .helloDue s = .next s)
        ∧ ∀ u, s.time.helloDue = some u → ∃ t, exec .helloDue s = .next t
            ∧ t.time = { s.time with
                now := s.timeAt u, helloDue := some (u + BitVec.ofNat 48 (s.params.helloPeriod * 1000)) }
            ∧ (s.loader.phase ≠ .loading → s.loader.station ≠ 15#4 → t.line.wHello = some t.helloNow)
            ∧ (s.acting = false → Frame [.time, .line] s t)
            ∧ (s.acting = true →
                Frame [.time, .line, .loader, .buffer, .ports] s t
                ∧ t.loader = { s.loader with
                    helloCount := s.loader.helloCount + 1
                    phase := if s.loader.phase = .joining ∧ s.loader.helloCount + 1 = 3 then .running
                      else s.loader.phase
                    enteredAt := if s.loader.phase = .joining ∧ s.loader.helloCount + 1 = 3 then s.timeAt u
                      else s.loader.enteredAt }
                ∧ ((s.loader.helloCount + 1) % 4 = 0 → s.line.conflict = false → t.line.wLink = some t.linkNow)
                ∧ ((s.loader.helloCount + 1) % 4 ≠ 0 → t.line.wLink = s.line.wLink)
                ∧ (∀ p : Port, p.val < 28 → t.buffer.ports[p] = s.buffer.ports[p] ∧ t.port p = s.port p)
                ∧ t.buffer.free = s.buffer.free - (allX.filter wantsHello).length
                ∧ ∀ x : XIndex,
                    let q := s.buffer.ports[xPort x]
                    let before := (allX.filter fun y => decide (y < x) && wantsHello y).length
                    ((¬ s.takesFrames (xPort x) ∨ q.helloWaits = true) →
                        t.buffer.ports[xPort x] = q ∧ t.port (xPort x) = s.port (xPort x))
                    ∧ (s.takesFrames (xPort x) → q.helloWaits = false → before < s.buffer.free →
                        ((t.buffer.ports[xPort x]).classes[(3 : Cls)]).copies =
                          (q.classes[(3 : Cls)]).copies ++
                            [{ desc := none, tag := none, cells := 1, length := 72
                               octets := portHelloOctets s.loader.station s.params.serial }]
                        ∧ t.port (xPort x) = s.port (xPort x))
                    ∧ (s.takesFrames (xPort x) → q.helloWaits = false → s.buffer.free ≤ before →
                        t.buffer.ports[xPort x] = q
                        ∧ t.port (xPort x) = { s.port (xPort x) with
                            drops := { (s.port (xPort x)).drops with
                              poolEmpty := satInc (s.port (xPort x)).drops.poolEmpty } }))

/-- R160, R161, R162 and R157: INTERVAL_END closes the live interval while fewer than 2 intervals wait and its number is below
the last, each accumulator read first, and otherwise defers the close; the event link table then takes the INTEGRITY_FAULTs
of the reads and INTERVAL_CLOSED, or CLOSE_DEFERRED. It is due again one billing interval later. In other start states only
the time base moves. That the time comes to the due moment, and that nothing happens while the generator does not run, is the
model's choice (log entry 2). -/
def Obligations.IntervalEndClosesOrDefers : Prop :=
  ∀ s : State,
    (s.time.intervalDue = none → exec .intervalEnd s = .next s)
      ∧ ∀ u, s.time.intervalDue = some u →
          let tb : TimeBase :=
            { s.time with now := s.timeAt u, intervalDue := some (u + BitVec.ofNat 48 (s.params.billing * 1000000)) }
          (s.acting = false → exec .intervalEnd s = .next { s with time := tb })
          ∧ (s.acting = true → (2 ≤ s.meter.queue.length ∨ s.meter.number = BitVec.allOnes 32) →
              exec .intervalEnd s = .next (conclude
                ⟨{ s with time := tb, meter := { s.meter with span := s.meter.span + 1 } }, [⟨.closeDeferred, none⟩]⟩))
          ∧ (s.acting = true → s.meter.queue.length < 2 → s.meter.number ≠ BitVec.allOnes 32 →
              mapWf s.meter.accs = true → (∀ x ∈ s.meter.accs, x.1 < 1024) →
              let faults := (s.meter.accs.filter fun x => !x.2.checkGood).length
              ∃ t, exec .intervalEnd s = .next (conclude
                  ⟨t, List.replicate faults ⟨.integrityFault, none⟩ ++ [⟨.intervalClosed, none⟩]⟩)
                ∧ Frame [.time, .meter, .loader] s t ∧ t.time = tb
                ∧ t.loader = { s.loader with integrityFaults := satInc^[faults] s.loader.integrityFaults }
                ∧ t.meter = { s.meter with
                    accs := t.meter.accs, number := s.meter.number + 1, span := 1, marks := 0, opened := s.timeAt u
                    queue := s.meter.queue ++
                      [{ number := s.meter.number, span := s.meter.span, opened := s.meter.opened
                         closed := s.timeAt u, marks := s.meter.marks, records := s.recordsRead }] }
                ∧ ∀ k, t.acc k = { residue := (s.readAcc k).residue })

/-- R179: a share window sets the share used of both channels to 0; an empty slot 7 then takes a ready message of an eligible
channel, priority 1 before 0 and the channel whose turn it is between equals. That the time comes to the due moment is the
model's choice (log entry 2). -/
def Obligations.ShareWindowLetsRecordsIn : Prop :=
  ∀ s : State, ∃ t, exec .shareWindow s = .next t
    ∧ t.time = { s.time with
        now := s.timeAt s.time.shareDue, shareDue := s.time.shareDue + BitVec.ofNat 48 1000 }
    ∧ Frame [.time, .chans, .line] s t
    ∧ ((s.mayNotify = false ∨ s.line.wRecord.isSome = true ∨ s.line.sending 7 = true
          ∨ ∀ (c : Fin 2) o, ¬ ({ s.chan c with shareUsed := 0 } : Channel).mayEnter o) →
        t.line = s.line ∧ ∀ c, t.chan c = { s.chan c with shareUsed := 0 })
    ∧ (s.mayNotify = true → s.line.wRecord = none → s.line.sending 7 = false →
        ∀ (c : Fin 2) o, ({ s.chan c with shareUsed := 0 } : Channel).mayEnter o →
          ((∀ o', ¬ ({ s.chan (1 - c) with shareUsed := 0 } : Channel).mayEnter o')
            ∨ (s.chan (1 - c)).priority < (s.chan c).priority
            ∨ ((s.chan (1 - c)).priority = (s.chan c).priority ∧ s.chans.nextFirst = c)) →
          t.line = { s.line with
              wRecord := some { dst := (s.chan c).dst, body := .record c (s.chan c).source o.seq o.records } }
          ∧ t.chan c = { s.chan c with outstanding := some { o with inSlot := true }, shareUsed := 1 }
          ∧ t.chan (1 - c) = { s.chan (1 - c) with shareUsed := 0 }
          ∧ t.chans.nextFirst = 1 - c)

/-! ## Peers -/

/-- R121, R122, R124, R125, R42 and R90: the expiries of a slot's silence, join and linger timers, after which relays are
chosen again and a lost diversion peer is dropped. R85 and R183: the expiry of the freshness of its announced index, which is
fresh below four load periods after its arrival, stale from then on, and stale for good after the expiry; every step keeps the
expiry there; an expiry of a timer that does not run changes nothing (log entry 2). R41: the relay choice of a slot: the lowest
ACTIVE station whose reach map lists the SEVERED slot's station as the far station of an X-port in UP or DEGRADED; none for a
slot in another state. -/
def Obligations.SlotTimersAndRelays : Prop :=
  (∀ (s : State) (n : SlotNo),
      (s.slot n = none → exec (.silenceExpiry n) s = .next s ∧ exec (.joinExpiry n) s = .next s
          ∧ exec (.lingerExpiry n) s = .next s ∧ exec (.loadFreshnessExpiry n) s = .next s)
        ∧ ∀ x, s.slot n = some x →
            (x.silenceExpiry = none → exec (.silenceExpiry n) s = .next s)
            ∧ (x.joinExpiry = none → exec (.joinExpiry n) s = .next s)
            ∧ (x.lingerExpiry = none → exec (.lingerExpiry n) s = .next s)
            ∧ (x.freshExpiry = none → exec (.loadFreshnessExpiry n) s = .next s)
            ∧ (∀ u, x.silenceExpiry = some u → x.state ≠ .lost →
                ∃ o, exec (.silenceExpiry n) s = .next (conclude o)
                  ∧ (⟨.peerLost, some x.station.toNat⟩ : Event) ∈ o.evs
                  ∧ Frame [.time, .peers, .load, .line] s o.st ∧ o.st.time = { s.time with now := s.timeAt u }
                  ∧ o.st.peersKept
                  ∧ o.st.slot n = some { x with
                      state := .lost, joinExpiry := none, silenceExpiry := none, relay := none
                      lingerExpiry := some (s.timeAt u + BitVec.ofNat 48 (3 * (s.params.refreshPeriod * 1000000))) }
                  ∧ (s.slotOf x.station = some n → s.load.divPeer = some x.station →
                      o.st.load.divPeer = none ∧ o.st.load.share = 0))
            ∧ (∀ u, x.joinExpiry = some u → x.state = .joining → s.directX x.station = none →
                ∃ o, exec (.joinExpiry n) s = .next (conclude o)
                  ∧ (⟨.peerSevered, some x.station.toNat⟩ : Event) ∈ o.evs
                  ∧ Frame [.time, .peers, .load, .line] s o.st ∧ o.st.time = { s.time with now := s.timeAt u }
                  ∧ o.st.peersKept
                  ∧ o.st.slot n = some { x with
                      state := .severed, joinExpiry := none, relay := o.st.relayFor x.station })
            ∧ (∀ u, x.joinExpiry = some u → x.state ≠ .joining →
                exec (.joinExpiry n) s =
                  .next (setSlot n (some { x with joinExpiry := none })
                    { s with time := { s.time with now := s.timeAt u } }))
            ∧ (∀ u, x.lingerExpiry = some u → x.state = .lost →
                ∃ o, exec (.lingerExpiry n) s = .next (conclude o) ∧ o.st.slot n = none ∧ o.st.peersKept
                  ∧ Frame [.time, .peers, .load, .line] s o.st ∧ o.st.time = { s.time with now := s.timeAt u })
            ∧ ∀ u, x.freshExpiry = some u →
                exec (.loadFreshnessExpiry n) s =
                  .next (setSlot n (some { x with freshExpiry := none })
                    { s with time := { s.time with now := s.timeAt u } }))
    ∧ (∀ (s : State) (x : PeerSlot),
      (x.uplink = none → s.freshness x = .absent)
        ∧ ∀ v at_, x.uplink = some (v, at_) →
            let period := 4 * (s.params.loadPeriod * 1000)
            (x.freshExpiry = none → s.freshness x = .stale)
            ∧ (x.freshExpiry = some (at_ + BitVec.ofNat 48 period) → s.params.loadPeriod ≤ 100 →
                (s.time.now - at_).toNat < 2 ^ 47 →
                s.freshness x = if (s.time.now - at_).toNat < period then .fresh else .stale))
    ∧ (∀ s t : State, s.viewLaw → step s = .next t → t.viewLaw)
    ∧ ∀ (s : State) (x : PeerSlot),
      let reaching (q : Station) : Prop := q ≠ 15#4 ∧ ∃ y m e, s.peer q = some y ∧ y.state = .active
        ∧ y.reachMap = some m ∧ e ∈ m ∧ e.far = some x.station ∧ (e.link = .up ∨ e.link = .degraded)
      (x.state ≠ .severed → s.relayOf x = none)
        ∧ (x.state = .severed →
            ((∀ q, ¬ reaching q) → s.relayOf x = none)
            ∧ ∀ q, reaching q → (∀ r, reaching r → q.toNat ≤ r.toNat) → s.relayOf x = some q)

/-- R120 to R124: what a HELLO of another station does at the peer table in JOINING and RUNNING with CONFLICT clear: a new slot,
a full table, a slot kept, lost, returned, and the restart of a known peer, with the relays chosen again and a lost diversion
peer dropped (R42, R90). In FAILSAFE and while CONFLICT stands it changes only the last heard time and the silence timer of its
source's slot (R120, R144, R122); a HELLO with a payload fault does the same in any of these states and counts under FORMAT_ERROR
(R196). That the role of a station with a slot plays no part is the model's choice (log entry 27). -/
def Obligations.HelloMovesThePeerTable : Prop :=
  (∀ (s : State) (src dst : Station) (l : List Byte), s.hearsFrom src dst → l.length ≤ 120 →
    let heard (t : State) : Prop := Frame [.peers] s t
      ∧ (s.slotOf src = none → t.peers = s.peers)
      ∧ ∀ n x, s.slotOf src = some n → s.slot n = some x → t = setSlot n (some (s.heardSlot x)) s
    (readHello l = none → ∃ t, heard t ∧ exec (.helloReceived src dst l) s =
        .next { t with line := { t.line with formatError := satInc t.line.formatError } })
      ∧ ∀ h, readHello l = some h → (s.loader.phase = .failsafe ∨ s.line.conflict = true) →
          ∃ t, heard t ∧ exec (.helloReceived src dst l) s = .next t)
    ∧ ∀ (s : State) (src dst : Station) (l : List Byte) (h : HelloRx), s.hearsFrom src dst → s.mayNotify = true →
    readHello l = some h →
    (s.slotOf src = none →
        ((h.switch = false ∨ h.withdrawing = true) → exec (.helloReceived src dst l) s = .next s)
        ∧ (h.switch = true → h.withdrawing = false →
            ((∀ n, (s.slot n).isSome = true) → exec (.helloReceived src dst l) s =
                .next { s with peers := { s.peers with tableFull := satInc s.peers.tableFull } })
            ∧ ∀ n, s.slot n = none → (∀ m, m < n → (s.slot m).isSome = true) →
                ∃ o, exec (.helloReceived src dst l) s = .next (conclude o)
                  ∧ Frame [.peers, .load, .line] s o.st ∧ o.st.peersKept
                  ∧ o.st.slot n = some (s.slotAnew src h.serial (h.phase == .running))
                  ∧ o.st.peers.genCounter = s.peers.genCounter + 1
                  ∧ ((s.directX src).isSome = true → (⟨.peerActive, some src.toNat⟩ : Event) ∈ o.evs)))
      ∧ ∀ n x, s.slotOf src = some n → s.slot n = some x →
          ((x.collision = true ∨ (x.state = .lost ∧ (h.serial ≠ x.serial ∨ h.withdrawing = true))) →
            exec (.helloReceived src dst l) s = .next (setSlot n (some (s.heardSlot x)) s))
          ∧ (x.collision = false → x.state ≠ .lost → h.serial = x.serial → h.withdrawing = false →
              (h.phase ≠ .joining ∨ x.seenRunning = false) →
              exec (.helloReceived src dst l) s = .next (setSlot n
                (some { s.heardSlot x with seenRunning := x.seenRunning || h.phase == .running }) s))
          ∧ (x.collision = false → x.state ≠ .lost → (h.serial ≠ x.serial ∨ h.withdrawing = true) →
              ∃ o, exec (.helloReceived src dst l) s = .next (conclude o)
                ∧ Frame [.peers, .load, .line] s o.st ∧ o.st.peersKept
                ∧ (⟨.peerLost, some src.toNat⟩ : Event) ∈ o.evs
                ∧ o.st.peers.genCounter = s.peers.genCounter
                ∧ o.st.slot n = some { x with
                    state := .lost, collision := decide (h.serial ≠ x.serial), lastHeard := s.time.now
                    joinExpiry := none, silenceExpiry := none, relay := none
                    lingerExpiry := some (s.after (3 * (s.params.refreshPeriod * 1000000))) })
          ∧ (x.collision = false → h.serial = x.serial → h.withdrawing = false →
              (x.state = .lost ∨ (h.phase = .joining ∧ x.seenRunning = true)) →
              ∃ o, exec (.helloReceived src dst l) s = .next (conclude o)
                ∧ Frame [.peers, .load, .line] s o.st ∧ o.st.peersKept
                ∧ (x.state ≠ .lost → (⟨.peerLost, some src.toNat⟩ : Event) ∈ o.evs)
                ∧ o.st.peers.genCounter = s.peers.genCounter + 1
                ∧ o.st.slot n = some (s.slotAnew src x.serial (h.phase == .running)))

/-- R146, R147, R125, R119, R70, R90, R94, R178 and R145: a HELLO under this station's own number that it did not send is the
entry to CONFLICT; while CONFLICT stands another changes nothing. The HELLO's payload plays no part (log entry 16). -/
def Obligations.OwnNumberHelloEntersConflict : Prop :=
  ∀ (s : State) (dst : Station) (l : List Byte), s.loader.phase ≠ .loading → s.loader.station ≠ 15#4 →
    l.length ≤ 120 →
    (s.line.conflict = true → exec (.helloReceived s.loader.station dst l) s = .next s)
      ∧ (s.line.conflict = false → ∃ o, exec (.helloReceived s.loader.station dst l) s = .next (conclude o)
          ∧ Frame [.ports, .buffer, .peers, .load, .line, .chans] s o.st
          ∧ o.st.line = { s.line with
              conflict := true, wLink := none, wLoad := none, wReach := none, wEnd := none, wRecord := none
              onLine := s.line.onLine.filter fun m => !m.body.silenced
              wHello := some o.st.helloNow }
          ∧ (∀ n, o.st.slot n = none)
          ∧ (∀ n x, s.slot n = some x → x.state ≠ .lost → (⟨.peerLost, some x.station.toNat⟩ : Event) ∈ o.evs)
          ∧ (∀ x : XIndex, (o.st.buffer.ports[xPort x]).sending = none
              ∧ (∀ c : Cls, ((o.st.buffer.ports[xPort x]).classes[c]) = { copies := [], occ := 0, num := 0 })
              ∧ o.st.port (xPort x) = { s.port (xPort x) with
                  far := none, looped := false, lapseExpiry := none
                  drops := { (s.port (xPort x)).drops with
                    flushed := satInc^[(s.buffer.ports[xPort x]).allCopies.length]
                      (s.port (xPort x)).drops.flushed } })
          ∧ (∀ p : Port, p.val < 28 → o.st.port p = s.port p ∧ o.st.buffer.ports[p] = s.buffer.ports[p])
          ∧ o.st.buffer.free = s.buffer.free
              + (allX.map fun x => cellsOf (s.buffer.ports[xPort x]).allCopies).sum
          ∧ (s.load.divPeer.isSome = true → o.st.load.divPeer = none ∧ o.st.load.share = 0)
          ∧ (s.load.divPeer.isSome = true → 0 < s.load.share → (⟨.diversionEnd, none⟩ : Event) ∈ o.evs)
          ∧ ∀ c : Fin 2, (o.st.chan c).pendingEnd = none
              ∧ (o.st.chan c).state = if (s.chan c).state = .running then .held else (s.chan c).state)

/-- R84, R127 and R196: a LINK or LOAD notice is taken into a live slot with its serial, ignored and counted under LINK_IGNORED
or LOAD_IGNORED otherwise, and one with a payload fault counts under FORMAT_ERROR. R42: relays are chosen again after a LINK.
R85: the index of a LOAD is fresh for four load periods. -/
def Obligations.NoticesAreTakenIntoTheirSlot : Prop :=
  ∀ (s : State) (src dst : Station) (l : List Byte), s.hearsFrom src dst → l.length ≤ 120 →
    let s1 := refreshHeard src s
    (readLink l = none → exec (.linkReceived src dst l) s =
        .next { s1 with line := { s1.line with formatError := satInc s1.line.formatError } })
      ∧ (readLoad l = none → exec (.loadReceived src dst l) s =
        .next { s1 with line := { s1.line with formatError := satInc s1.line.formatError } })
      ∧ (∀ r, readLink l = some r →
          (∀ n x, s.slotOf src = some n → s.slot n = some x → x.state = .lost ∨ x.serial ≠ r.serial) →
          exec (.linkReceived src dst l) s =
            .next { s1 with peers := { s1.peers with linkIgnored := satInc s1.peers.linkIgnored } })
      ∧ (∀ r, readLoad l = some r →
          (∀ n x, s.slotOf src = some n → s.slot n = some x → x.state = .lost ∨ x.serial ≠ r.serial) →
          exec (.loadReceived src dst l) s =
            .next { s1 with load := { s1.load with loadIgnored := satInc s1.load.loadIgnored } })
      ∧ ∀ n x, s.slotOf src = some n → s.slot n = some x → x.state ≠ .lost →
          (∀ r, readLink l = some r → x.serial = r.serial → s.settled x →
            ∃ o, exec (.linkReceived src dst l) s = .next (conclude o)
              ∧ Frame [.peers, .load, .line] s o.st ∧ o.st.peersKept
              ∧ o.st.slot n = some { s.heardSlot x with
                  reachMap := some r.reach, bondUp := r.bondUp, uCount := r.uCount, isolated := r.isolated
                  relay := if x.state = .severed then o.st.relayFor src else none })
          ∧ ∀ r, readLoad l = some r → x.serial = r.serial →
              exec (.loadReceived src dst l) s = .next (setSlot n (some { s.heardSlot x with
                uplink := some (r.uplink, s.time.now)
                freshExpiry := some (s.after (4 * (s.params.loadPeriod * 1000)))
                xIdx := r.xIdx, dPeer := r.dPeer, dShare := r.dShare
                rCount := r.rCount, isolated := r.isolated }) s)

/-- R27, R28 and R29: a REACH notice is taken item by item, or ignored as a whole; what a JOIN and a LEAVE item do on a bucket
whose entries pass their check; and R36: the faulty entries of the bucket are removed first, and the item then acts on the
bucket as that leaves it. -/
def Obligations.ReachItemsChangeTheHolders : Prop :=
  (∀ (s : State) (src dst : Station) (l : List Byte), s.hearsFrom src dst → l.length ≤ 120 →
    let s1 := refreshHeard src s
    (readReach l = none → exec (.reachReceived src dst l) s =
        .next { s1 with line := { s1.line with formatError := satInc s1.line.formatError } })
      ∧ ∀ r, readReach l = some r →
          ((∀ x, s.peer src = some x → x.state = .lost ∨ x.serial ≠ r.serial) →
            exec (.reachReceived src dst l) s =
              .next { s1 with fwd := { s1.fwd with reachIgnored := satInc s1.fwd.reachIgnored } })
          ∧ ∀ x, s.peer src = some x → x.state ≠ .lost → x.serial = r.serial →
              exec (.reachReceived src dst l) s = .next (conclude (eachOut (applyItem src) r.items s1)))
    ∧ (∀ (s : State) (src : Station) (it : ReachItem), mapWf s.fwd.table = true →
        let b := bucketOf it.tenant it.addr
        let o := testBucket b s
        applyItem src it s = ⟨(applyItem src it o.st).st, o.evs ++ (applyItem src it o.st).evs⟩
          ∧ bucketFaulty b o.st = false ∧ o.st.peers = s.peers
          ∧ o.evs = List.replicate ((bucketSlots b).filter fun i =>
              (mapFind s.fwd.table i).any fun e => !e.checkGood).length ⟨.integrityFault, none⟩
          ∧ (∀ i ∈ bucketSlots b, o.st.unannounced i = (s.unannounced i).filter fun e => e.checkGood)
          ∧ ∀ i, i ∉ bucketSlots b → o.st.unannounced i = s.unannounced i)
    ∧ ∀ (s : State) (src : Station) (x : PeerSlot) (t : Tenant) (a : Addr), s.peer src = some x →
        bucketFaulty (bucketOf t a) s = false → mapWf s.fwd.table = true →
        let h : Holder := { station := src, gen := x.gen, period := s.fwd.period }
        let joined := applyItem src ⟨t, a, .join⟩ s
        let left := applyItem src ⟨t, a, .leave⟩ s
        let inserted (e : FwdEntry) (others : List Holder) : Prop :=
          ∃ before after, others = before ++ after
            ∧ joined.st.entryAt t a = some { e with holders := before ++ h :: after }
            ∧ (∀ y ∈ before, y.station.toNat ≤ src.toNat)
            ∧ ∀ y, after.head? = some y → src.toNat < y.station.toNat
        let dead (y : Holder) : Prop := ∀ z, s.peer y.station = some z → z.gen ≠ y.gen
        let age (y : Holder) : Nat := (s.fwd.period - y.period).toNat
        joined.evs = [] ∧ left.evs = [] ∧ Frame [.fwd] s joined.st ∧ Frame [.fwd] s left.st
          ∧ (∀ e, s.entryAt t a = some e → (∃ y ∈ e.holders, y.station = src) →
              joined.st.entryAt t a = some { e with
                holders := e.holders.map fun y => if y.station = src then h else y })
          ∧ (∀ e, s.entryAt t a = some e → (∀ y ∈ e.holders, y.station ≠ src) →
              (e.holders.length < 5 → inserted e e.holders)
              ∧ (5 ≤ e.holders.length →
                  ((∀ y ∈ e.holders, ¬ dead y) → joined.st = s)
                  ∧ ∀ y ∈ e.holders, dead y →
                      (∀ z ∈ e.holders, dead z →
                        age z < age y ∨ (age z = age y ∧ y.station.toNat ≤ z.station.toNat)) →
                      (e.holders.map fun z => z.station.toNat).Pairwise (· < ·) →
                      inserted e (e.holders.filter fun z => z != y)))
          ∧ (s.entryAt t a = none → ∀ i ∈ bucketSlots (bucketOf t a), mapFind s.fwd.table i = none →
              (∀ j ∈ bucketSlots (bucketOf t a), j < i → (mapFind s.fwd.table j).isSome = true) →
              let e : FwdEntry :=
                { tenant := t, addr := a, origin := .learned, localPort := none, age := 0, announced := false
                  holders := [h] }
              joined.st = { s with fwd := { s.fwd with table := mapInsert s.fwd.table i e } })
          ∧ (s.entryAt t a = none → (∀ i ∈ bucketSlots (bucketOf t a), (mapFind s.fwd.table i).isSome = true) →
              joined.st = { s with fwd := { s.fwd with reachRefused := satInc s.fwd.reachRefused } })
          ∧ ((∀ e, s.entryAt t a = some e → ∀ y ∈ e.holders, y.station ≠ src) → left.st = s)
          ∧ ∀ e, s.entryAt t a = some e → (∃ y ∈ e.holders, y.station = src) →
              let hs := e.holders.filter fun y => y.station != src
              ((e.origin ≠ .learned ∨ e.localPort ≠ none ∨ hs ≠ []) →
                  left.st.entryAt t a = some { e with holders := hs })
              ∧ ∀ i, keyIndex s.fwd.table t a = some i → e.origin = .learned → e.localPort = none → hs = [] →
                  mapFind left.st.fwd.table i = none

/-! ## The group line -/

/-- R134, R135 and R141: at an idle of the line the station offers the waiting message of its lowest-numbered slot, unless
LINE_QUIET stands or one of its messages is on the line; LINE_QUIET ends with the count of consecutive discards at 0. The
model's choices: at LINE_QUIET_END the time comes to the end of LINE_QUIET, and while none stands the command changes nothing
(log entry 2); an offer while the controller is not started changes nothing (log entry 44). -/
def Obligations.LineOffersTheLowestSlot : Prop :=
  ∀ s : State,
    let put (l : GroupLine) (m : TxMsg) : Host.Outcome State Fault Refusal :=
      .next { s with line := { l with onLine := some m } }
    let l := s.line
    let none6 := l.wLink = none ∧ l.wHello = none ∧ l.wLoad = none ∧ l.answers = [] ∧ l.wReach = none ∧ l.wEnd = none
    ((s.lineStarted = false ∨ l.quiet.isSome = true ∨ l.onLine.isSome = true ∨ (none6 ∧ l.wRecord = none)) →
        exec .messageOffered s = .next s)
      ∧ (s.loader.phase ≠ .loading → s.loader.station ≠ 15#4 → l.quiet = none → l.onLine = none →
          (∀ m, l.wLink = some m → exec .messageOffered s = put { l with wLink := none } m)
          ∧ (∀ m, l.wLink = none → l.wHello = some m → exec .messageOffered s = put { l with wHello := none } m)
          ∧ (∀ m, l.wLink = none → l.wHello = none → l.wLoad = some m →
              exec .messageOffered s = put { l with wLoad := none } m)
          ∧ (∀ m ms, l.wLink = none → l.wHello = none → l.wLoad = none → l.answers = m :: ms →
              exec .messageOffered s = put { l with answers := ms } m)
          ∧ (∀ m, l.wLink = none → l.wHello = none → l.wLoad = none → l.answers = [] → l.wReach = some m →
              exec .messageOffered s = put { l with wReach := none } m)
          ∧ (∀ m, l.wLink = none → l.wHello = none → l.wLoad = none → l.answers = [] → l.wReach = none →
              l.wEnd = some m → exec .messageOffered s = put { l with wEnd := none } m)
          ∧ ∀ m, none6 → l.wRecord = some m → exec .messageOffered s = put { l with wRecord := none } m)
      ∧ (l.quiet = none → exec .lineQuietEnd s = .next s)
      ∧ ∀ u, l.quiet = some u → exec .lineQuietEnd s =
          .next { s with
            time := { s.time with now := s.timeAt u }, line := { l with quiet := none, discards := 0 } }

/-- R132, R135, R136, R140, R141 and R178: a message that lost arbitration, or met a transmit error, waits again in its slot
unless a newer one of the slot waits; at the ninth transmit error it is discarded, and what follows is that of a completed
message: the next REACH, the next END, the restart that its answer stands for; a discarded RECORD's records are lost; a
withdrawn RECORD goes back to its channel's mark. The model's choices: a newer waiting message drops the old one at any error
count, the ninth included, without a TX_FAILED (log entry 17); with no message on the line nothing happens (log entry 44);
the station after a restart (log entries 3 and 5). A RECORD of a RUNNING channel: RecordsAreProducedInOrder. -/
def Obligations.MessagesComeBackFromTheLine : Prop :=
  ∀ (s : State),
    (s.line.onLine = none → exec .arbitrationLost s = .next s ∧ exec .transmitError s = .next s)
      ∧ ∀ m, s.line.onLine = some m →
          let cleared : GroupLine := { s.line with onLine := none }
          let erred : GroupLine := { cleared with txError := satInc s.line.txError }
          (m.withdrawn = false → s.line.newerWaits m = true →
              exec .arbitrationLost s = .next { s with line := cleared }
              ∧ exec .transmitError s = .next { s with line := erred })
          ∧ (m.withdrawn = false → s.line.newerWaits m = false →
              exec .arbitrationLost s = .next { s with line := cleared.giveBack m }
              ∧ (m.errors < 8 → exec .transmitError s =
                  .next { s with line := erred.giveBack { m with errors := m.errors + 1 } })
              ∧ (8 ≤ m.errors →
                  (m.body.cls = 0 ∨ m.body.cls = 1 ∨ m.body.cls = 3
                      ∨ (m.body.cls = 4 ∧ (m.restarts = false ∨ s.orders.restartPending = false)) →
                    exec .transmitError s = .next { s with line := s.lineFailed })
                  ∧ (∀ tag data, m.body = .answer 8 tag none data → s.orders.restartPending = true →
                      exec .transmitError s = .next s.restarted)
                  ∧ (m.body.cls = 5 → exec .transmitError s = .next (composeReach { s with line := s.lineFailed }))
                  ∧ (∀ r, m.body = .endReport r → s.chans.readyEnds = [] → exec .transmitError s =
                      .next (setChan r.chan (fun x => { x with pendingEnd := none }) { s with line := s.lineFailed }))
                  ∧ (∀ r r' rs, m.body = .endReport r → s.chans.readyEnds = r' :: rs → s.mayNotify = true →
                      s.line.wEnd = none → ∃ t, exec .transmitError s = .next t ∧ Frame [.line, .chans] s t
                        ∧ t.line = { s.lineFailed with wEnd := some { dst := r'.dst, body := .endReport r' } }
                        ∧ t.chans.readyEnds = rs)
                  ∧ ∀ c n q records, m.body = .record c n q records →
                      ∃ t, exec .transmitError s = .next t
                        ∧ (t.chan c).lost = (s.chan c).lost + records.length
                        ∧ t.line.txError = satInc s.line.txError ∧ t.line.txFailed = satInc s.line.txFailed
                        ∧ t.line.discards = s.line.discards + 1 ∧ t.line.onLine = none))
          ∧ (∀ c n q records, m.withdrawn = true → m.body = .record c n q records →
              (s.chan c).state ≠ .running → (s.chan c).pendingEnd = none →
              let back : Channel := { s.chan c with
                cursor := (s.chan c).mark.cursor, sent := (s.chan c).mark.sent, skipF := (s.chan c).mark.skipF
                skipU := (s.chan c).mark.skipU, seq := (s.chan c).mark.seq, building := [], outstanding := none }
              (∃ t, exec .arbitrationLost s = .next t ∧ t.chan c = back ∧ t.line.onLine = none
                ∧ t.line.discards = s.line.discards ∧ Frame [.line, .chans] s t)
              ∧ ∃ t, exec .transmitError s = .next t ∧ t.chan c = back ∧ t.line.onLine = none
                ∧ t.line.discards = s.line.discards ∧ t.line.txError = satInc s.line.txError
                ∧ t.line.txFailed = s.line.txFailed ∧ Frame [.line, .chans] s t)

/-- R135, R137, R138, R140, R173, R178 and R182: a completed message leaves the line and ends a run of discards; then follow the
next REACH, the next END, the channel's END, or the restart that the answer stands for. The model's choices: which answer that
is (log entry 29), the queue of waiting commands and the straps after the restart (log entries 3 and 5), and no effect with no
message on the line (log entry 44). A RECORD of a RUNNING channel: RecordsAreProducedInOrder. -/
def Obligations.MessageCompletionServesItsOwner : Prop :=
  ∀ s : State,
    (s.line.onLine = none → exec .messageCompleted s = .next s)
      ∧ ∀ m, s.line.onLine = some m →
          let l : GroupLine := { s.line with onLine := none, discards := 0 }
          (m.body.cls = 0 ∨ m.body.cls = 1 ∨ m.body.cls = 3
              ∨ (m.body.cls = 4 ∧ (m.restarts = false ∨ s.orders.restartPending = false)) →
            exec .messageCompleted s = .next { s with line := l })
          ∧ (m.body.cls = 5 → exec .messageCompleted s = .next (composeReach { s with line := l }))
          ∧ (∀ tag data, m.body = .answer 8 tag none data → s.orders.restartPending = true →
              exec .messageCompleted s = .next s.restarted)
          ∧ (∀ r, m.body = .endReport r → s.chans.readyEnds = [] →
              exec .messageCompleted s =
                .next (setChan r.chan (fun x => { x with pendingEnd := none }) { s with line := l }))
          ∧ (∀ r r' rs, m.body = .endReport r → s.chans.readyEnds = r' :: rs → s.mayNotify = true →
              s.line.wEnd = none → ∃ t, exec .messageCompleted s = .next t ∧ Frame [.line, .chans] s t
                ∧ t.line = { l with wEnd := some { dst := r'.dst, body := .endReport r' } }
                ∧ t.chans.readyEnds = rs)
          ∧ ∀ c n q records, m.body = .record c n q records → (s.chan c).state ≠ .running →
              ∃ t, exec .messageCompleted s = .next t ∧ Frame [.line, .chans] s t
                ∧ t.line.onLine = none ∧ t.line.discards = 0
                ∧ ((s.chan c).pendingEnd = none → t.chan c = { s.chan c with outstanding := none })
                ∧ ∀ causes, (s.chan c).pendingEnd = some ⟨causes, .prepared⟩ → s.mayNotify = true →
                    s.line.wEnd = none → s.chans.readyEnds = [] →
                    t.line.wEnd = some
                      { dst := (s.chan c).dst
                        body := .endReport
                          { chan := c, interval := (s.chan c).source, causes := causes, cursor := (s.chan c).cursor
                            sent := (s.chan c).sent, skipF := (s.chan c).skipF, skipU := (s.chan c).skipU
                            lost := (s.chan c).lost, seq := (s.chan c).seq, dst := (s.chan c).dst } }
                    ∧ t.chan c = { s.chan c with outstanding := none, pendingEnd := some ⟨causes, .inSlot⟩ }

/-- R130 and R142: a message that fails one of the six receive checks adds 1 to RX_ERROR and does nothing else; the station's
own message that completed is not processed; while the controller is not started nothing is received. The model's choices (log
entry 15): any other message is handled as the command of its class (R143, R144), and an order by its kind as the ORDER that
its kind, tag and parameters spell. R143, R144 and R122: a good message that is not handed on, whatever its destination,
refreshes the last heard time of its source's slot and restarts the silence timer of a live one; under this station's own
number it counts under NUMBER_CLASH. A message for another station does no more. -/
def Obligations.ReceptionHandsMessagesOn : Prop :=
  (∀ (s : State) (m : List Byte) (ranOn own : Bool),
    let n := octetNat m 2
    let fails := m.length < n + 5 ∨ fieldNat m (n + 3) 2 ≠ crc16 (m.take (n + 3)) ∨ 120 < n
      ∨ 8 ≤ octetNat m 0 / 16 ∨ octetNat m 0 % 16 = 15 ∨ ranOn = true ∨ n + 5 < m.length
    let src := BitVec.ofNat 4 (octetNat m 0 % 16)
    let dst := BitVec.ofNat 4 (octetNat m 1 / 16)
    (s.lineStarted = false → exec (.messageDiscardedRx m ranOn own) s = .next s)
      ∧ (s.lineStarted = true → fails → exec (.messageDiscardedRx m ranOn own) s =
          .next { s with line := { s.line with rxError := satInc s.line.rxError } })
      ∧ (s.lineStarted = true → ¬ fails →
          exec (.messageDiscardedRx m ranOn true) s = .next s
          ∧ (octetNat m 0 / 16 = 0 → exec (.messageDiscardedRx m ranOn false) s =
              exec (.linkReceived src dst (slice m 3 n)) s)
          ∧ (octetNat m 0 / 16 = 1 → exec (.messageDiscardedRx m ranOn false) s =
              exec (.helloReceived src dst (slice m 3 n)) s)
          ∧ (octetNat m 0 / 16 = 3 → exec (.messageDiscardedRx m ranOn false) s =
              exec (.loadReceived src dst (slice m 3 n)) s)
          ∧ (octetNat m 0 / 16 = 5 → exec (.messageDiscardedRx m ranOn false) s =
              exec (.reachReceived src dst (slice m 3 n)) s)
          ∧ (octetNat m 0 / 16 = 2 → exec (.messageDiscardedRx m ranOn false) s =
              exec (.unknownOrder src dst (slice m 3 n)) s)
          ∧ ∀ c : BitVec 4, c = 4 ∨ c = 6 ∨ c = 7 → octetNat m 0 / 16 = c.toNat →
              exec (.messageDiscardedRx m ranOn false) s = exec (.messageNotHandedOn c src dst) s)
      ∧ ∀ (src dst : Station) (tag : BitVec 16) (ps : List Byte),
          let spelt (k : Byte) : Host.Outcome State Fault Refusal :=
            exec (.unknownOrder src dst (k :: beOctets 2 tag.toNat ++ ps)) s
          exec (.startExport src dst tag ps) s = spelt 1 ∧ exec (.haltExport src dst tag ps) s = spelt 2
            ∧ exec (.holdExport src dst tag ps) s = spelt 3 ∧ exec (.resumeExport src dst tag ps) s = spelt 4
            ∧ exec (.discardInterval src dst tag ps) s = spelt 5 ∧ exec (.closeInterval src dst tag ps) s = spelt 6
            ∧ exec (.status src dst tag ps) s = spelt 7 ∧ exec (.restart src dst tag ps) s = spelt 8)
    ∧ ∀ (s : State) (cls : BitVec 4) (src dst : Station) (l : List Byte), s.loader.phase ≠ .loading →
      s.loader.station ≠ 15#4 → src ≠ 15#4 → cls.toNat < 8 → l.length ≤ 120 →
      (src = s.loader.station → cls ≠ 1#4 → exec (.messageNotHandedOn cls src dst) s =
          .next { s with line := { s.line with numberClash := satInc s.line.numberClash } })
        ∧ (src ≠ s.loader.station →
            (s.slotOf src = none → exec (.messageNotHandedOn cls src dst) s = .next s)
            ∧ ∀ n x, s.slotOf src = some n → s.slot n = some x →
                exec (.messageNotHandedOn cls src dst) s = .next (setSlot n (some (s.heardSlot x)) s)
                ∧ (dst ≠ s.loader.station → dst ≠ 15#4 →
                    exec (.helloReceived src dst l) s = .next (setSlot n (some (s.heardSlot x)) s)
                    ∧ exec (.linkReceived src dst l) s = .next (setSlot n (some (s.heardSlot x)) s)))

/-! ## Orders and export -/

/-- R168, R169 and R196: the intake of an ORDER of any kind, by its whole payload; a typed order is the ORDER it spells
(ReceptionHandsMessagesOn): a source that is no collector, destination 15 for another kind than CLOSE_INTERVAL and STATUS, a
pending restart or full answer queue, an unknown kind, FAILSAFE or CONFLICT for another kind than STATUS and RESTART, a payload
too short for kind and tag. The model's choices: whether the source or destination 15 is judged first (log entry 39), and the
free octets that the answer to a short payload echoes (log entry 19). R182: a RESTART that is carried out has its answer
queued, and a restart is pending. -/
def Obligations.OrderIntake : Prop :=
  (∀ (s : State) (src dst : Station) (l : List Byte), s.hearsFrom src dst → l.length ≤ 120 →
      let s1 := refreshHeard src s
      let collector : Prop := src ∈ s.orders.collectors ∨ s.orders.anySource = true
      let octet (i : Nat) : Byte := l.getD i (Config.missingOrderOctet l.length i)
      let kind := octet 0
      let known : Prop := 1 ≤ kind.toNat ∧ kind.toNat ≤ 8
      let barred : Prop := (s.loader.phase = .failsafe ∨ s.line.conflict = true) ∧ kind ≠ 7 ∧ kind ≠ 8
      let refused (r : Reason) : Host.Outcome State Fault Refusal :=
        .next (s1.answered (answerTo src kind (octet 1 ++ octet 2) (some r) .none))
      let result := exec (.unknownOrder src dst l) s
      (¬ collector → result = .next { s1 with orders := { s1.orders with ignored := satInc s1.orders.ignored } })
        ∧ (collector → dst = 15#4 → kind ≠ 6 → kind ≠ 7 → result = .next s1)
        ∧ (collector → (dst ≠ 15#4 ∨ kind = 6 ∨ kind = 7) →
            ((s.orders.restartPending = true ∨ 4 ≤ s.answerLength) →
              result = .next { s1 with orders := { s1.orders with dropped := satInc s1.orders.dropped } })
            ∧ (s.orders.restartPending = false → s.answerLength < 4 →
                (¬ known → result = refused .badParameter)
                ∧ (known → barred → result = refused .notReady)
                ∧ (known → ¬ barred → l.length < 3 → result = refused .badParameter))))
    ∧ ∀ (s : State) (src dst : Station) (tag : BitVec 16) (ps : List Byte), s.carriesOut 8 src dst ps →
      let s1 := refreshHeard src s
      exec (.restart src dst tag ps) s =
        .next (({ s1 with orders := { s1.orders with restartPending := true } } : State).answered
          (answerTo src 8 tag none .none))

/-- R171 to R173 and R179: START_EXPORT: its refusals in their order; an accepted START sets the context, produces records
(RecordsAreProducedInOrder) and is answered; a run over an interval without records; and the first RECORD message of a run over
three or more records that all lie in the filter range. That a short payload or an unassigned flag is BAD_PARAMETER before BUSY
and NO_INTERVAL is the model's choice (log entry 19). -/
def Obligations.StartExportBeginsARun : Prop :=
  ∀ (s : State) (src dst : Station) (tag : BitVec 16) (ps : List Byte), s.carriesOut 1 src dst ps →
    let s1 := refreshHeard src s
    let refused (r : Reason) : Host.Outcome State Fault Refusal :=
      .next (s1.answered (answerTo src 1 tag (some r) .none))
    ((readStart ps = none ∨ readChan ps = none) → exec (.startExport src dst tag ps) s = refused .badParameter)
      ∧ ∀ p c, readStart ps = some p → readChan ps = some c →
          (((s.chan c).state ≠ .idle ∨ (s.chan c).outstanding.isSome = true ∨ (s.chan c).pendingEnd.isSome = true) →
              exec (.startExport src dst tag ps) s = refused .busy)
          ∧ ((s.chan c).state = .idle → (s.chan c).outstanding = none → (s.chan c).pendingEnd = none →
              ((∀ i, s.named p.interval ≠ some i) → exec (.startExport src dst tag ps) s = refused .noInterval)
              ∧ ∀ i, s.named p.interval = some i →
                  let bad : Prop := p.high.toNat < p.low.toNat ∨ (∃ lo hi, p.stop = some (lo, hi) ∧ hi.toNat < lo.toNat)
                    ∨ 15 ≤ p.dst ∨ p.dst = s.loader.station.toNat ∨ 1 < p.priority ∨ 1024 < p.limit
                  let share := if p.share = 0 then 1 else if 50 < p.share then 50 else p.share
                  let started : Channel :=
                    { state := .running, source := i.number, filterLow := p.low, filterHigh := p.high, stop := p.stop
                      limit := p.limit, single := p.single, event := p.event, translate := p.translate
                      dst := BitVec.ofNat 4 p.dst, priority := p.priority, shareLimit := share
                      shareUsed := (s.chan c).shareUsed }
                  let accepted := answerTo src 1 tag none (.started i.number i.records.length share)
                  let o := produce false c (setChan c (fun _ => started) s1)
                  (bad → exec (.startExport src dst tag ps) s = refused .badParameter)
                  ∧ (¬ bad → exec (.startExport src dst tag ps) s = .next (conclude ⟨o.st.answered accepted, o.evs⟩))
                  ∧ (¬ bad → s.interval i.number = some i →
                      (i.records = [] → ∃ t, exec (.startExport src dst tag ps) s = .next t
                        ∧ t.line.answers = s1.line.answers ++ [accepted] ∧ Frame [.peers, .line, .chans] s t
                        ∧ ∃ e : PendingEnd, e.causes.exhausted = true
                            ∧ t.chan c = { started with state := .idle, pendingEnd := some e })
                      ∧ ∀ r1 r2 r3 rs, i.records = r1 :: r2 :: r3 :: rs → p.stop = none → p.limit = 0 →
                          p.single = false → p.translate = false →
                          (p.low.toNat ≤ r1.tenant.toNat ∧ r1.tenant.toNat ≤ p.high.toNat) →
                          (p.low.toNat ≤ r2.tenant.toNat ∧ r2.tenant.toNat ≤ p.high.toNat) →
                          ∃ t o, exec (.startExport src dst tag ps) s = .next t
                            ∧ t.line.answers = s1.line.answers ++ [accepted] ∧ Frame [.peers, .line, .chans] s t
                            ∧ t.chan c = { started with
                                cursor := 2, sent := 2, seq := 1, outstanding := some o
                                shareUsed := (t.chan c).shareUsed }
                            ∧ o.seq = 0 ∧ o.records = [⟨none, r1⟩, ⟨none, r2⟩]
                            ∧ (s.line.wRecord = none → s.line.sending 7 = false → (s.chan c).shareUsed < share →
                                (s.chan (1 - c)).outstanding = none →
                                o.inSlot = true ∧ (t.chan c).shareUsed = (s.chan c).shareUsed + 1
                                  ∧ t.line.wRecord = some
                                      { dst := BitVec.ofNat 4 p.dst
                                        body := .record c i.number 0 [⟨none, r1⟩, ⟨none, r2⟩] })))

/-- R172, R173 and R178: a RUNNING channel without an outstanding message examines the records from its cursor on, `n` of them:
no termination cause holds, no message of two records stands and no stop range applies before; then one of them does. The mark,
the counts, the message built, and the END prepared with every cause that holds. A tenant entry that fails its check at the
translation is dealt with by R9 case 4, and its record is skipped. A RUNNING channel produces again once its RECORD has
completed, was discarded at the ninth error, or was withdrawn; that the next message is built before slot 7 is filled is the
model's choice (log entry 48). -/
def Obligations.RecordsAreProducedInOrder : Prop :=
  (∀ (s : State) (c : Fin 2) (resumed : Bool) (i : Interval),
    let x := s.chan c
    x.state = .running → x.outstanding = none → x.building = [] →
    s.interval x.source = some i → x.cursor ≤ i.records.length →
    (x.translate = true → ∀ n e, mapFind s.tenants n = some e → e.checkGood = true) →
    let examined (n : Nat) : List Record := (i.records.drop x.cursor).take n
    let msg := s.messageAfter x i.records
    let causes := s.causesAfter x i.records
    let stopped (n : Nat) : Prop := ¬ (resumed = true ∧ n = 0)
      ∧ ∃ r, i.records[x.cursor + n]? = some r ∧ x.wants r = true ∧ x.stopsAt r
    ∃ n t, produce resumed c s = ⟨t, []⟩ ∧ Frame [.chans, .line] s t
      ∧ t.line = { s.line with wEnd := t.line.wEnd, wRecord := t.line.wRecord }
      ∧ x.cursor + n ≤ i.records.length
      ∧ (∀ m, m < n → causes m = {} ∧ (msg m).length < 2 ∧ ¬ stopped m)
      ∧ (causes n ≠ {} ∨ (msg n).length = 2 ∨ stopped n)
      ∧ (let y := t.chan c
        y = { x with
            cursor := x.cursor + n, sent := x.sent + (msg n).length
            skipF := x.skipF + ((examined n).filter fun r => !x.wants r).length
            skipU := x.skipU + ((examined n).filter fun r => x.wants r && (s.outRecord x r).isNone).length
            seq := if msg n = [] then x.seq else x.seq + 1
            mark := ⟨x.cursor, x.sent, x.skipF, x.skipU, x.seq⟩
            state := y.state, pendingEnd := y.pendingEnd, outstanding := y.outstanding, shareUsed := y.shareUsed }
        ∧ (y.outstanding.map fun o => (o.seq, o.records)) = (if msg n = [] then none else some (x.seq, msg n))
        ∧ (causes n = {} → (msg n).length = 2 → y.state = .running ∧ y.pendingEnd = x.pendingEnd)
        ∧ ∀ q : Causes, (causes n ≠ {} ∧ q = causes n)
              ∨ (causes n = {} ∧ (msg n).length < 2 ∧ q = { causes n with matched := true }) →
            y.state = (if q.exhausted = true then .idle else .stopped)
            ∧ ∃ e, y.pendingEnd = some e ∧ e.causes = q ∧ (e.stage = .prepared ↔ msg n ≠ [])))
    ∧ (∀ (s : State) (c : Fin 2) (r : Record) (e : TenantEntry) (pass : Bool),
      let x := s.chan c
      x.translate = true → x.wants r = true → (pass = true ∨ ¬ x.stopsAt r) →
      mapFind s.tenants r.tenant.toNat = some e → e.integ = .good → e.checkGood = false →
      examine pass r x s = (({ x with skipU := x.skipU + 1, cursor := x.cursor + 1 }, false),
        ⟨{ s with
            tenants := mapInsert s.tenants r.tenant.toNat { e with integ := s.faultInteg }
            loader := s.faultLoader ⟨.tenant, r.tenant.toNat⟩ }, [⟨.integrityFault, none⟩]⟩))
    ∧ ∀ (s : State) (m : TxMsg) (c : Fin 2) (n : Count) (q : BitVec 16) (records : List OutRecord),
      s.line.onLine = some m → m.body = .record c n q records → (s.chan c).state = .running →
      let cleared : GroupLine := { s.line with onLine := none }
      let next (l : GroupLine) (x : Channel) : Host.Outcome State Fault Refusal :=
        .next (conclude (produce false c (setChan c (fun _ => x) { s with line := l })))
      exec .messageCompleted s = next { cleared with discards := 0 } { s.chan c with outstanding := none }
        ∧ (m.withdrawn = false → 8 ≤ m.errors → exec .transmitError s =
            next s.lineFailed { s.chan c with outstanding := none, lost := (s.chan c).lost + records.length })
        ∧ (m.withdrawn = true → exec .arbitrationLost s = next cleared (s.chan c).back
            ∧ exec .transmitError s = next { cleared with txError := satInc s.line.txError } (s.chan c).back)

/-- R175, R176, R177 and R136: HOLD_EXPORT, HALT_EXPORT and RESUME_EXPORT: their refusals, and what each does to its channel and
to slot 7. A resumed channel runs with its sent count at 0 and produces records from its cursor (RecordsAreProducedInOrder). -/
def Obligations.ChannelOrdersMoveTheirChannel : Prop :=
  ∀ (s : State) (src dst : Station) (tag : BitVec 16) (ps : List Byte),
    let s1 := refreshHeard src s
    let refused (k : Byte) (r : Reason) : Host.Outcome State Fault Refusal :=
      .next (s1.answered (answerTo src k tag (some r) .none))
    (readChan ps = none →
        (s.carriesOut 2 src dst ps → exec (.haltExport src dst tag ps) s = refused 2 .badParameter)
        ∧ (s.carriesOut 3 src dst ps → exec (.holdExport src dst tag ps) s = refused 3 .badParameter)
        ∧ (s.carriesOut 4 src dst ps → exec (.resumeExport src dst tag ps) s = refused 4 .badParameter))
      ∧ ∀ c, readChan ps = some c →
          let x := s.chan c
          let y := s.chan (1 - c)
          let settling : Prop := x.state ≠ .running ∧ (x.outstanding.isSome = true ∨ x.pendingEnd.isSome = true)
          let leavesSlot (t : State) : Prop := ∀ o, x.outstanding = some o → o.inSlot = true → s.recordOnLine c = false →
            ((∀ o', ¬ y.mayEnter o') → t.line.wRecord = none)
            ∧ ∀ o', y.mayEnter o' → s.line.sending 7 = false →
                t.line.wRecord = some { dst := y.dst, body := .record (1 - c) y.source o'.seq o'.records }
          (s.carriesOut 2 src dst ps → settling → exec (.haltExport src dst tag ps) s = refused 2 .busy)
          ∧ (s.carriesOut 4 src dst ps → settling → exec (.resumeExport src dst tag ps) s = refused 4 .busy)
          ∧ (s.carriesOut 2 src dst ps → ¬ settling → x.state = .idle →
              exec (.haltExport src dst tag ps) s = refused 2 .wrongState)
          ∧ (s.carriesOut 4 src dst ps → ¬ settling → (x.state = .idle ∨ x.state = .running) →
              exec (.resumeExport src dst tag ps) s = refused 4 .wrongState)
          ∧ (s.carriesOut 3 src dst ps → x.state ≠ .running →
              exec (.holdExport src dst tag ps) s = refused 3 .wrongState)
          ∧ (s.carriesOut 3 src dst ps → x.state = .running → ∃ t, exec (.holdExport src dst tag ps) s = .next t
              ∧ Frame [.peers, .line, .chans] s t ∧ leavesSlot t
              ∧ t.line.answers = s1.line.answers ++ [answerTo src 3 tag none (.chanState .held)]
              ∧ ((x.outstanding = none ∨ s.recordOnLine c = false) → t.chan c = { x.back with state := .held })
              ∧ ∀ o, x.outstanding = some o → s.recordOnLine c = true →
                  t.chan c = { x with state := .held, building := [] }
                  ∧ t.line.onLine = s.line.onLine.map fun m => { m with withdrawn := true })
          ∧ (s.carriesOut 2 src dst ps → ¬ settling → x.state ≠ .idle → ∃ t,
              exec (.haltExport src dst tag ps) s = .next t ∧ Frame [.peers, .line, .chans] s t
              ∧ (x.state = .running → leavesSlot t)
              ∧ t.line.answers = s1.line.answers ++ [answerTo src 2 tag none .none]
              ∧ ((x.state ≠ .running ∨ x.outstanding = none ∨ s.recordOnLine c = false) →
                  ∃ e : PendingEnd, e.causes = { halted := true } ∧ e.stage ≠ .prepared
                    ∧ t.chan c =
                        { (if x.state = .running then x.back else x) with state := .idle, pendingEnd := some e })
              ∧ ∀ o, x.state = .running → x.outstanding = some o → s.recordOnLine c = true →
                  t.chan c = { x with
                    state := .idle, building := [], pendingEnd := some ⟨{ halted := true }, .prepared⟩ })
          ∧ (s.carriesOut 4 src dst ps → ¬ settling → (x.state = .held ∨ x.state = .stopped) →
              let o := produce true c (setChan c (fun _ => { x with state := .running, sent := 0 }) s1)
              exec (.resumeExport src dst tag ps) s =
                .next (conclude ⟨o.st.answered (answerTo src 4 tag none .none), o.evs⟩)
              ∧ ((s.sourceRecords x).length ≤ x.cursor → x.building = [] →
                ∃ t e, exec (.resumeExport src dst tag ps) s = .next t
                  ∧ t.line.answers = s1.line.answers ++ [answerTo src 4 tag none .none]
                  ∧ Frame [.peers, .line, .chans] s t
                  ∧ e.causes.exhausted = true
                  ∧ t.chan c = { x with
                      state := .idle, sent := 0, mark := ⟨x.cursor, 0, x.skipF, x.skipU, x.seq⟩
                      pendingEnd := some e }))

/-- R164, R181, R160 to R162: DISCARD_INTERVAL: its refusals, the removal of the interval, and the deferred close it makes at
once; CLOSE_INTERVAL: the close or the deferral with its answer. -/
def Obligations.IntervalOrdersCloseAndDiscard : Prop :=
  ∀ (s : State) (src dst : Station) (tag : BitVec 16) (ps : List Byte),
    let s1 := refreshHeard src s
    let n : Count := BitVec.ofNat 32 (fieldNat ps 0 4)
    let refused (r : Reason) : Host.Outcome State Fault Refusal :=
      .next (s1.answered (answerTo src 5 tag (some r) .none))
    let header (t : State) : Prop := t.meter.number = s.meter.number + 1 ∧ t.meter.span = 1 ∧ t.meter.marks = 0
      ∧ t.meter.opened = s.time.now ∧ ∀ k, t.acc k = { residue := (s.acc k).residue }
    let closed : Interval :=
      { number := s.meter.number, span := s.meter.span, opened := s.meter.opened, closed := s.time.now
        marks := s.meter.marks, records := s.recordsNow }
    (s.carriesOut 5 src dst ps →
        (ps.length < 4 → exec (.discardInterval src dst tag ps) s = refused .badParameter)
        ∧ (4 ≤ ps.length → (∀ i ∈ s.meter.queue, i.number ≠ n) →
            exec (.discardInterval src dst tag ps) s = refused .noInterval)
        ∧ (4 ≤ ps.length → (∃ i ∈ s.meter.queue, i.number = n) →
            (∃ c : Fin 2, (s.chan c).state ≠ .idle ∧ (s.chan c).source = n) →
            exec (.discardInterval src dst tag ps) s = refused .inExport)
        ∧ (4 ≤ ps.length → s.mayDiscard n →
            let left := s.meter.queue.filter fun i => i.number != n
            ((s.meter.span ≤ 1 ∨ s.meter.number = BitVec.allOnes 32) →
                exec (.discardInterval src dst tag ps) s = .next
                  (({ s1 with meter := { s1.meter with queue := left } } : State).answered
                    (answerTo src 5 tag none (.discarded none))))
            ∧ (1 < s.meter.span → s.meter.number ≠ BitVec.allOnes 32 → s.accsGood →
                ∃ t, exec (.discardInterval src dst tag ps) s = .next (conclude ⟨t, [⟨.intervalClosed, none⟩]⟩)
                  ∧ t.meter.queue = left ++ [closed] ∧ header t ∧ Frame [.peers, .meter, .line] s t
                  ∧ t.line = (s.answered (answerTo src 5 tag none (.discarded (some s.meter.number)))).line)))
      ∧ (s.carriesOut 6 src dst ps → s.acting = true →
          ((2 ≤ s.meter.queue.length ∨ s.meter.number = BitVec.allOnes 32) →
              exec (.closeInterval src dst tag ps) s = .next (conclude
                ⟨({ s1 with meter := { s1.meter with span := s.meter.span + 1 } } : State).answered
                    (answerTo src 6 tag none (.deferred (s.meter.span + 1))), [⟨.closeDeferred, none⟩]⟩))
          ∧ (s.meter.queue.length < 2 → s.meter.number ≠ BitVec.allOnes 32 → s.accsGood →
              ∃ t, exec (.closeInterval src dst tag ps) s = .next (conclude ⟨t, [⟨.intervalClosed, none⟩]⟩)
                ∧ t.meter.queue = s.meter.queue ++ [closed] ∧ header t ∧ Frame [.peers, .meter, .line] s t
                ∧ t.line = (s.answered (answerTo src 6 tag none (.closed s.meter.number))).line))

/-- R181, R195, R73, R96, R108, R129, R150, R167, R169 and R196: STATUS answers with the items of a part as they stand before its
own answer, changes nothing else, and refuses an unknown subject, a port above 32 and a part beyond the subject's last. R126:
the bond-up set. How the items are spread over the parts is the model's choice where Formats leaves it open (log entry 20). -/
def Obligations.StatusReportsTheState : Prop :=
  (∀ (s : State) (b : Fin 64), 0 < b.val → (s.bondUp.getLsbD b.val = true ↔
      ∃ p : Fin 24, (s.port (sPort p)).bond = some b.val ∧ s.takesFrames (sPort p)))
  ∧ ∀ (s : State) (src dst : Station) (tag : BitVec 16) (ps : List Byte), s.carriesOut 7 src dst ps → 3 ≤ ps.length →
    let s1 := refreshHeard src s
    let reply (part count : Nat) (items : StatusPart) : Host.Outcome State Fault Refusal :=
      .next (s1.answered (answerTo src 7 tag none (.status part count items)))
    let refused : Host.Outcome State Fault Refusal :=
      .next (s1.answered (answerTo src 7 tag (some .badParameter) .none))
    let subject := octetNat ps 0
    let index := octetNat ps 1
    let part := octetNat ps 2
    let onLine (cls : Nat) : Bool := s.line.onLine.any fun m => m.body.cls == cls
    ((subject = 0 ∨ 5 < subject) → exec (.status src dst tag ps) s = refused)
      ∧ (subject = 1 → (3 < part → exec (.status src dst tag ps) s = refused)
          ∧ (part = 0 → exec (.status src dst tag ps) s = reply 0 4 (.stationIdentity
              { station := s.loader.station, serial := s.params.serial, phase := s.loader.phase, now := s.time.now
                inPhase := s.time.now - s.loader.enteredAt, failReason := s.loader.failReason
                clamps := s.loader.clamps, integrityFaults := s.loader.integrityFaults
                refetchFailed := s.loader.refetchFailed, restartCount := s.loader.restartCount
                refetchLength := s.loader.refetch.length, waiting := s.integCount .waiting
                failed := s.integCount .failed }))
          ∧ (part = 1 → exec (.status src dst tag ps) s = reply 1 4 (.stationLoad
              { free := s.buffer.free, cellsHeld := (allPorts.map fun p => s.portCells p).sum
                classLimit := s.params.classLimit, uplink := s.load.uplink, divPeer := s.load.divPeer
                share := s.load.share, loadIgnored := s.load.loadIgnored, restraintOn := s.restraint.on
                slot := s.restraint.slot, nextStart := s.restraint.nextStart, listed := s.restraint.list.length
                denied := s.restraint.denied.length, onLevel := s.params.onLevel, offLevel := s.params.offLevel
                window := s.params.window, pendingIntervals := s.meter.queue.length
                deferral := decide (1 < s.meter.span) }))
          ∧ (part = 2 → exec (.status src dst tag ps) s = reply 2 4 (.stationNotices
              { learnRefused := s.fwd.learnRefused, reachRefused := s.fwd.reachRefused
                reachIgnored := s.fwd.reachIgnored, sweepOverrun := s.fwd.sweepOverrun
                occupied := s.fwd.table.length
                fixedEntries := (s.fwd.table.filter fun e => e.2.origin != .learned).length
                reachLength := s.fwd.queue.length, resweep := s.fwd.resweep, sweep := s.fwd.sweep
                sweepDue := s.fwd.sweepDue, isolated := s.peers.isolated
                uCount := (allU.filter fun u => let v := (s.port (uPort u)).link; v == .up || v == .degraded).length
                bondUp := s.bondUp, genCounter := s.peers.genCounter, tableFull := s.peers.tableFull
                linkIgnored := s.peers.linkIgnored, rxError := s.line.rxError, txError := s.line.txError
                txFailed := s.line.txFailed, quietCount := s.line.quietCount, numberClash := s.line.numberClash
                conflict := s.line.conflict, quietLeft := s.line.quiet.map fun u => u - s.time.now
                discards := s.line.discards
                answerLength := s.line.answers.length + (if onLine 4 then 1 else 0)
                bitRate := s.params.bitRate
                slotsHeld := [(onLine 0, s.line.wLink.isSome), (onLine 1, s.line.wHello.isSome), (false, false)
                  , (onLine 3, s.line.wLoad.isSome), (onLine 4, !onLine 4 && !s.line.answers.isEmpty)
                  , (onLine 5, s.line.wReach.isSome), (onLine 6, s.line.wEnd.isSome)
                  , (onLine 7, s.line.wRecord.isSome)]
                formatError := s.line.formatError, ordersIgnored := s.orders.ignored
                ordersDropped := s.orders.dropped }))
          ∧ (part = 3 → exec (.status src dst tag ps) s = reply 3 4 (.stationLinks
              { links := (List.range 16).map fun n => (mapFind s.links n).map fun l => (l.count, l.pend)
                rules := (List.range 64).map fun n => (mapFind s.rules n).map fun r => r.integ
                tariffs := (List.range 16).map fun n => (s.tariff n).integ })))
      ∧ (subject = 2 → ((32 < index ∨ 1 < part) → exec (.status src dst tag ps) s = refused)
          ∧ ∀ p : Port, p.val = index →
              (part = 0 → exec (.status src dst tag ps) s = reply 0 2 (.portLink
                  { link := (s.port p).link, penalty := (s.port p).penalty
                    holdLeft := (s.port p).holdExpiry.map fun u => u - s.time.now
                    carrier := (s.port p).carrier, badFrames := (s.port p).badFrames
                    far := (s.port p).far.map fun st => (st, (s.port p).farSerial), looped := (s.port p).looped
                    loadIndex := if p.val < 24 then none else some (s.load.idx.toList.getD (p.val - 24) 0)
                    peak := if 24 ≤ p.val ∧ p.val < 28 then s.load.peak.toList[p.val - 24]? else none }))
              ∧ (part = 1 → exec (.status src dst tag ps) s = reply 1 2 (.portCounts
                  { queues := allCls.map fun c =>
                      (((s.buffer.ports[p]).classes[c]).occ, ((s.buffer.ports[p]).classes[c]).num)
                    txCopies := (s.buffer.ports[p]).txCopies, txOctets := (s.buffer.ports[p]).txOctets
                    drops := (s.port p).drops })))
      ∧ (subject = 3 → (4 < part → exec (.status src dst tag ps) s = refused)
          ∧ ∀ n : SlotNo, n.val = part →
              exec (.status src dst tag ps) s = reply n.val 5 (.peer ((s1.slot n).map fun x =>
                { station := x.station, serial := x.serial, state := x.state, gen := x.gen
                  seenRunning := x.seenRunning, collision := x.collision, sinceHeard := s.time.now - x.lastHeard
                  direct := s.directX x.station, reachMap := x.reachMap, bondUp := x.bondUp, uCount := x.uCount
                  isolated := x.isolated, uplink := x.uplink.map Prod.fst
                  freshness :=
                    if x.uplink = none then .absent else if s.isFresh x = true then .fresh else .stale
                  xIdx := x.xIdx, dPeer := x.dPeer, dShare := x.dShare, rCount := x.rCount, relay := x.relay })))
      ∧ (subject = 4 → (1 < part → exec (.status src dst tag ps) s = refused)
          ∧ ∀ t : Tenant, t.toNat = index →
              (part = 0 → exec (.status src dst tag ps) s = reply 0 2 (.tenant
                  { occupancy := s.tenantCells t
                    listed := (s.restraint.list.find? fun i => i.1 == t).map fun i =>
                      (i.2, decide (((s.restraint.slot : Int) - i.2) % 64 < s.params.window))
                    denied := s.restraint.denied.contains t, quota := (s.setting t).quota
                    exempt := (s.setting t).exempt, integ := (mapFind s.tenants t.toNat).map fun e => e.integ }))
              ∧ (part = 1 → (∀ k, (s.acc k).checkGood = true) →
                  exec (.status src dst tag ps) s = reply 1 2 (.accumulators
                    [s.acc (t.toNat * 4), s.acc (t.toNat * 4 + 1), s.acc (t.toNat * 4 + 2),
                     s.acc (t.toNat * 4 + 3)])))
      ∧ (subject = 5 → (2 < part → exec (.status src dst tag ps) s = refused)
          ∧ (part = 0 → exec (.status src dst tag ps) s = reply 0 3 (.intervals
              { number := s.meter.number, span := s.meter.span, opened := s.meter.opened, marks := s.meter.marks
                deferral := decide (1 < s.meter.span)
                pending := s.meter.queue.map fun i =>
                  { number := i.number, span := i.span, opened := i.opened, closed := i.closed, marks := i.marks
                    records := i.records.length
                    readers := ([0, 1] : List (Fin 2)).filter fun c =>
                      (s.chan c).state != .idle && (s.chan c).source == i.number } }))
          ∧ (part = 1 → exec (.status src dst tag ps) s = reply 1 3 (.channel (s.chan 0)
              ((s.chan 0).state != .running && ((s.chan 0).outstanding.isSome || (s.chan 0).pendingEnd.isSome))))
          ∧ (part = 2 → exec (.status src dst tag ps) s = reply 2 3 (.channel (s.chan 1)
              ((s.chan 1).state != .running && ((s.chan 1).outstanding.isSome || (s.chan 1).pendingEnd.isSome)))))

/-! ## Event links -/

/-- R185, R186 and R187: what an event does at the filled link places, and what a SAMPLE does to the hold-offs, which it lowers
at every filled place in JOINING and RUNNING and nowhere else; R159, R174, R82, R126, R160 to R162: what each action does. A
link that acts changes the state as its action says, and its hold-off starts. The table takes an event at its links in
ascending number, in JOINING and RUNNING; the events that actions raise are taken after all links of the event that caused
them, and so on until none is left: that this ends, with no link that closes at a close or a deferral, is R185. That the events
of a command are taken after all its own changes is the model's choice (log entry 11), and that a SAMPLE lowers the hold-offs
after its load and restraint units is another (log entry 12). -/
def Obligations.EventLinksActAndHoldOff : Prop :=
  (∀ (s : State) (e : Event) (n : Nat) (l : EventLink), mapFind s.links n = some l →
    let hears : Prop := l.source = e.source ∧ (l.qual = none ∨ l.qual = e.qual)
    let acts (o : Out) : Prop := o.evs = (act l.action s).evs
      ∧ mapFind o.st.links n = some { l with count := l.holdOff, pend := false }
      ∧ (∀ m, m ≠ n → mapFind o.st.links m = mapFind s.links m)
      ∧ o.st = { (act l.action s).st with links := o.st.links }
    mapWf s.links = true →
    (¬ hears → hearEvent e n s = ⟨s, []⟩)
      ∧ (hears → 0 < l.count →
          hearEvent e n s = ⟨{ s with links := mapInsert s.links n { l with pend := true } }, []⟩)
      ∧ (hears → l.count = 0 → acts (hearEvent e n s))
      ∧ (l.count = 0 → lowerHoldOff n s = ⟨s, []⟩)
      ∧ (l.count = 1 → l.pend = true → acts (lowerHoldOff n s))
      ∧ (0 < l.count → (1 < l.count ∨ l.pend = false) → lowerHoldOff n s =
          ⟨{ s with links := mapInsert s.links n { l with count := l.count - 1 } }, []⟩))
    ∧ (∀ s : State, s.acting = true → ∃ u d r, SampleRuns s u d r)
    ∧ (∀ s : State, s.acting = false → ∃ t, exec .sample s = .next t ∧ t.links = s.links)
    ∧ (∀ (s : State) (e : Event), s.acting = false → takeEvent e s = ⟨s, []⟩)
    ∧ (∀ (s : State) (e : Event), s.acting = true → mapWf s.links = true →
        ∃ ns : List Nat, ns.Pairwise (· < ·) ∧ (∀ n, n ∈ ns ↔ (mapFind s.links n).isSome = true)
          ∧ takeEvent e s = eachOut (hearEvent e) ns s)
    ∧ (∀ (s : State) (es : List Event), s.linksEnd → Settles es s (conclude ⟨s, es⟩))
    ∧ (∀ (s : State) (code : Fin 8), act (.markInterval code) s =
        ⟨{ s with meter := { s.meter with marks := s.meter.marks ||| BitVec.ofNat 8 (2 ^ code.val) } }, []⟩)
    ∧ (∀ s : State, s.mayNotify = true →
        act .sendLoad s = ⟨{ s with line := { s.line with wLoad := some s.loadNow } }, []⟩
        ∧ act .sendLink s = ⟨{ s with line := { s.line with wLink := some s.linkNow } }, []⟩)
    ∧ (∀ s : State, s.mayNotify = false → act .sendLoad s = ⟨s, []⟩ ∧ act .sendLink s = ⟨s, []⟩)
    ∧ (∀ s : State, s.acting = true → (2 ≤ s.meter.queue.length ∨ s.meter.number = BitVec.allOnes 32) →
        act .closeInterval s =
          ⟨{ s with meter := { s.meter with span := s.meter.span + 1 } }, [⟨.closeDeferred, none⟩]⟩)
    ∧ (∀ s : State, s.acting = true → s.meter.queue.length < 2 → s.meter.number ≠ BitVec.allOnes 32 → s.accsGood →
        ∃ t, act .closeInterval s = ⟨t, [⟨.intervalClosed, none⟩]⟩ ∧ Frame [.meter] s t
          ∧ (∀ k, t.acc k = { residue := (s.acc k).residue })
          ∧ t.meter = { s.meter with
              accs := t.meter.accs, number := s.meter.number + 1, span := 1, marks := 0, opened := s.time.now
              queue := s.meter.queue ++
                [{ number := s.meter.number, span := s.meter.span, opened := s.meter.opened, closed := s.time.now
                   marks := s.meter.marks, records := s.recordsNow }] })
    ∧ ∀ (s : State) (c : Fin 2),
        (((s.chan c).state ≠ .running ∨ (s.chan c).event = false) → act (.exportEvent c) s = ⟨s, []⟩)
        ∧ ((s.chan c).state = .running → (s.chan c).event = true →
            ((act (.exportEvent c) s).st.chan c).state =
              (if (s.chan c).cursor = (s.sourceRecords (s.chan c)).length then .idle else .stopped)
            ∧ ∃ e : PendingEnd, ((act (.exportEvent c) s).st.chan c).pendingEnd = some e ∧ e.causes.event = true
                ∧ (e.causes.exhausted = true ↔ (s.chan c).cursor = (s.sourceRecords (s.chan c)).length))

/-! ## Start states, resets, refetch -/

/-- R188, R189, R190, R191, R183 and R145: the end of LOADING. A structural fault gives FAILSAFE with its reason; a sound image
gives JOINING. In both the generators restart with the loaded periods and a HELLO is composed; in JOINING the ports with
carrier are UP, ISOLATED is judged and a LINK is composed. That the command changes nothing in any other start state is the
model's choice (log entry 44). The tables: TheImageFillsTheTables; the values: ImageValuesAreClamped. -/
def Obligations.ImageLoadEndsLoading : Prop :=
  ∀ (s : State) (img : List Byte),
    (s.loader.phase ≠ .loading → exec (.imageLoadComplete img) s = .next s)
      ∧ (s.loader.phase = .loading → ∃ t, exec (.imageLoadComplete img) s = .next t
          ∧ t.loader.station = s.loader.station ∧ t.loader.enteredAt = s.time.now
          ∧ t.time.now = s.time.now
          ∧ t.time.sampleDue = s.time.now + BitVec.ofNat 48 t.params.samplePeriod
          ∧ t.time.loadDue = some (s.time.now + BitVec.ofNat 48 (t.params.loadPeriod * 1000))
          ∧ t.time.helloDue = some (s.time.now + BitVec.ofNat 48 (t.params.helloPeriod * 1000))
          ∧ (s.loader.station ≠ 15#4 → t.line.wHello = some t.helloNow)
          ∧ (∀ r, structuralFault s.loader.station img = some r →
              t.loader.phase = .failsafe ∧ t.loader.failReason = some r ∧ t.rules = s.rules ∧ t.tenants = s.tenants
                ∧ t.tariffs = s.tariffs ∧ t.fwd = s.fwd ∧ t.links = s.links ∧ t.ports = s.ports)
          ∧ (structuralFault s.loader.station img = none →
              t.loader.phase = .joining ∧ t.params = (readParams (sectionEntries img 1 5)).1
                ∧ t.time.refreshDue = some (s.time.now + BitVec.ofNat 48 (t.params.refreshPeriod * 1000000))
                ∧ t.time.intervalDue = some (s.time.now + BitVec.ofNat 48 (t.params.billing * 1000000))
                ∧ (∀ p : Port, (s.port p).link = .down →
                    (t.port p).link = if (s.port p).carrier then .up else .down)
                ∧ ((∀ u : Fin 4, ¬ t.isUsable (uPort u)) → t.peers.isolated = true)
                ∧ (s.line.conflict = false → t.line.wLink = some t.linkNow)))

/-- R5, R8, R97, R109, R154, R168, R185 and R22: a sound image, loaded while every table is as a reset leaves it, fills the
classifier rules, tenants, restraint settings, tariffs, links, collectors, port bonds and fixed entries; the JOINs of the fixed
entries with a local port wait in image order, the first 14 of them in the REACH composed at the entry to JOINING. The model's
choices: of two entries for one place the later stands (log entry 22); an entry's clamps are summed as log entry 24 says, those
of a discarded link and of collector octets included, and a PORTS entry for a U-port or X-port counts one, with bond 0 too (log
entry 38). R188 and R193: every entry holds the check that came with it, and passes its test after the load. R190: the clamp
count is the sum of the clamps of the sections. -/
def Obligations.TheImageFillsTheTables : Prop :=
  ∀ (s : State) (img : List Byte), s.fresh → structuralFault s.loader.station img = none →
    let rules := entriesOfKind img 3
    let tenants := entriesOfKind img 4
    let tariffs := entriesOfKind img 5
    let bonds := entriesOfKind img 2
    let kept := keptFixed (fixedOf img)
    let joins := (kept.filter fun x => x.2.localPort.isSome).map fun x => (⟨x.2.tenant, x.2.addr, .join⟩ : ReachItem)
    ∃ t, exec (.imageLoadComplete img) s = .next t
      ∧ (∀ n, mapFind t.rules n = (lastOf rules n).map fun e => (readRule e).1)
      ∧ (∀ n, mapFind t.tenants n = ((lastOf tenants n).map fun e => (readTenantEntry e).1).or
          (if n = 0 then some tenantZero else none))
      ∧ (∀ x : Tenant, t.setting x =
          if x = 0 then { quota := 0, exempt := true }
          else match (lastOf tenants x.toNat).map fun e => (readTenantEntry e).1 with
            | some e => { quota := e.quota, exempt := e.exempt }
            | none => { quota := 0, exempt := false })
      ∧ (∀ n, t.tariff n =
          match lastOf tariffs n with
          | some e => { fee := fieldNat e 1 2, base := fieldNat e 3 2, peak := fieldNat e 5 2
                        detour := fieldNat e 7 2, inbound := fieldNat e 9 2
                        entry := { octets := e.take 11, check := BitVec.ofNat 16 (fieldNat e 11 2) } }
          | none => { fee := 0, base := 0, peak := 0, detour := 0, inbound := 0 })
      ∧ (∀ n, (mapFind t.links n).map (fun l => { l with count := 0, pend := false }) =
          (((entriesOfKind img 7).filter fun e => octetNat e 0 == n).filterMap fun e => (readLinkEntry e).1).getLast?)
      ∧ (∀ st, st ∈ t.orders.collectors ↔ s.collectorsOf (entriesOfKind img 8) st)
      ∧ t.orders.collectors.Nodup ∧ t.orders.anySource = false
      ∧ (∀ p : Port, (t.port p).bond =
          if p.val < 24 then
            (lastOf bonds p.val).bind fun e => if octetNat e 1 = 0 then none else some (min (octetNat e 1) 63)
          else none)
      ∧ t.fixed = kept ∧ t.fwd.table.length = kept.length
      ∧ (∀ n f, (n, f) ∈ kept → ∃ a, t.entryAt f.tenant f.addr = some
          { tenant := f.tenant, addr := f.addr, origin := .fixed n, localPort := f.localPort, age := 0, announced := a
            holders := [], entry := f.entry })
      ∧ (∀ x ∈ t.rules, x.2.checkGood = true) ∧ (∀ x ∈ t.tenants, x.2.checkGood = true)
      ∧ (∀ n, (t.tariff n).checkGood = true) ∧ (∀ x ∈ t.fwd.table, x.2.checkGood = true)
      ∧ t.fwd.queue = joins.drop 14
      ∧ t.line.wReach =
          (if joins = [] then none else some { dst := 15, body := .reach t.params.serial (joins.take 14) })
      ∧ (let clamps :=
          ((sectionsOf img).filter fun d => decide (d.kind = 0 ∨ 8 < d.kind)).length
            + (readParams (entriesOfKind img 1)).2
            + (bonds.filter fun e => decide (24 ≤ octetNat e 0 ∨ 63 < octetNat e 1)).length
            + (rules.map fun e => (readRule e).2).sum + (tenants.map fun e => (readTenantEntry e).2).sum
            + ((entriesOfKind img 7).map fun e => (readLinkEntry e).2).sum
            + s.collectorClamps (entriesOfKind img 8)
            + ((entriesOfKind img 6).map fun e => (readFixedEntry e).2).sum + ((fixedOf img).length - kept.length)
        t.loader.clamps.toNat = min clamps (2 ^ 32 - 1))

/-- R190 and R197 with R130, R184, R97 and Tables 12-6 to 12-8: the values that the loader takes from the image: each STATION
parameter from its last pair, brought to the nearest value of its range, and the fields of rules (R5), tenants (R8), fixed
entries (R22) and links (R185), each with its clamps, and the check that is stored with each entry, against which its later
reads test (R188, R193). Each pair of an unknown identifier counts one (the model's choice, log entry 24). R189 and R168: what
FAILSAFE still takes: serial, bit rate and hello period where the STATION section lies within the length, and the collector set
likewise; which entry, how many pairs and collectors, and the clamps counted, where the directory is inconsistent, is the
model's choice (log entry 21). So are: that any nonzero account-present or exempt octet is set and that bit p of the three
member octets is S-port p (log entry 23), and that the clamps of a discarded link's fields and of collector octets are summed
(log entry 24). -/
def Obligations.ImageValuesAreClamped : Prop :=
  (∀ pairs : List (List Byte),
    let given (id : Nat) : Option Nat := (lastOf pairs id).map fun e => fieldNat e 1 4
    let q := (readParams pairs).1
    let rates := [1, 2, 5, 10]
    let far (a b : Nat) : Nat := (a - b) + (b - a)
    let ranges : List (Nat × Nat × Nat × Nat × Nat) :=
      [(5, 0, 7, 3, q.loadShift), (6, 1, 100, 10, q.loadPeriod), (7, 100, 2000, 500, q.helloPeriod),
       (8, 10, 600, 30, q.refreshPeriod), (9, 64, 12288, 2048, q.basis), (10, 0, 32767, 2048, q.margin),
       (11, 0, 512, 256, q.cap), (12, 1, 256, 64, q.slew), (13, 0, 32767, 24576, q.xl), (14, 0, 32767, 16384, q.tp),
       (15, 0, 12288, 1536, q.onLevel), (17, 1, 32, 8, q.window), (18, 10, 4095, 300, q.ageLimit),
       (19, 1, 3600, 300, q.billing), (20, 1, 8, 1, q.holdBase), (21, 1, 65535, 16, q.degrade),
       (22, 10, 600, 60, q.decay), (23, 16, 4096, 1024, q.classLimit)]
    q.serial.toNat = (given 1).getD 0
      ∧ q.bitRate ∈ rates ∧ (given 2 = none → q.bitRate = 1)
      ∧ (∀ v, given 2 = some v → ∀ r ∈ rates, far v q.bitRate ≤ far v r)
      ∧ q.deepHash = (given 3).any (fun v => v != 0)
      ∧ q.samplePeriod = ((given 4).map fun v => nearest 50 1000 v / 50 * 50).getD 100
      ∧ (∀ r ∈ ranges, r.2.2.2.2 = ((given r.1).map (nearest r.2.1 r.2.2.1)).getD r.2.2.2.1)
      ∧ q.offLevel = nearest (q.onLevel + 256) 12544 ((given 16).getD 3072)
      ∧ (readParams pairs).2 =
          (pairs.filter fun e => decide (octetNat e 0 = 0 ∨ 23 < octetNat e 0)).length
            + (((2, q.bitRate) :: (4, q.samplePeriod) :: ranges.map fun r => (r.1, r.2.2.2.2)).filter
                fun r : Nat × Nat => (given r.1).any fun v => v != r.2).length
            + (if q.offLevel = (given 16).getD 3072 then 0 else 1))
    ∧ (∀ e : List Byte,
      let set := fieldNat e 1 4
      let vlan := fieldNat e 5 2
      let r := (readRule e).1
      r.ports = (if set = 0 then none else some (BitVec.ofNat 28 set))
        ∧ r.vlan = (if vlan = 0xFFFF then .any else if vlan = 0xFFFE then .untagged else .vid (nearest 1 4094 vlan))
        ∧ r.prio = (if octetNat e 7 = 0xFF then none else some (min (octetNat e 7) 7))
        ∧ r.etype = (if octetNat e 8 = 0 then none else some (fieldNat e 9 2))
        ∧ r.tenant.toNat = octetNat e 11 ∧ r.bcls.val = min (octetNat e 12) 3 ∧ r.tcls.val = min (octetNat e 13) 3
        ∧ r.integ = .good ∧ r.entry = { octets := e.take 14, check := BitVec.ofNat 16 (fieldNat e 14 2) }
        ∧ (readRule e).2 = ([decide (2 ^ 28 ≤ set),
            decide (vlan = 0 ∨ (4095 ≤ vlan ∧ vlan ≤ 0xFFFD)), decide (8 ≤ octetNat e 7 ∧ octetNat e 7 ≤ 0xFE),
            decide (2 ≤ octetNat e 8), decide (4 ≤ octetNat e 12), decide (4 ≤ octetNat e 13)].filter id).length)
    ∧ (∀ e : List Byte,
      let r := (readTenantEntry e).1
      r.account = (if octetNat e 1 = 0 then none else some (BitVec.ofNat 32 (fieldNat e 2 4)))
        ∧ r.members = BitVec.ofNat 24 (fieldNat e 6 3) ∧ r.quota = min (fieldNat e 9 2) 12288
        ∧ (∀ b : Fin 4, r.tariffs[b.val] = min (octetNat e (11 + b.val)) 15) ∧ r.exempt = (octetNat e 15 != 0)
        ∧ r.integ = .good ∧ r.entry = { octets := e.take 16, check := BitVec.ofNat 16 (fieldNat e 16 2) }
        ∧ (readTenantEntry e).2 = ([decide (12288 < fieldNat e 9 2), decide (15 < octetNat e 11),
            decide (15 < octetNat e 12), decide (15 < octetNat e 13), decide (15 < octetNat e 14)].filter id).length)
    ∧ (∀ e : List Byte,
      let f := (readFixedEntry e).1
      let port := octetNat e 7
      f.tenant.toNat = octetNat e 0 ∧ f.addr = BitVec.ofNat 48 (fieldNat e 1 6) ∧ f.integ = .good
        ∧ f.entry = { octets := e.take 8, check := BitVec.ofNat 16 (fieldNat e 8 2) }
        ∧ (f.localPort.map fun p => p.val) = (if port < 24 then some port else none)
        ∧ (readFixedEntry e).2 = (if 24 ≤ port ∧ port ≠ 255 then 1 else 0))
    ∧ (∀ c : EntryCheck, c.good = true ↔ crc16 c.octets = c.check.toNat)
    ∧ (∀ (r : Rule) (e : TenantEntry) (f : Tariff) (x : FwdEntry), r.checkGood = r.entry.good
      ∧ e.checkGood = e.entry.good ∧ f.checkGood = f.entry.good ∧ x.checkGood = (x.intact && x.entry.good))
    ∧ (∀ e : List Byte,
      let sources : List EventSource := [.portDown, .portUp, .portDegraded, .peerActive, .peerSevered, .peerLost,
        .isolationOn, .isolationOff, .restraintOn, .restraintOff, .tenantDenied, .diversionStart, .diversionEnd,
        .intervalClosed, .closeDeferred, .integrityFault]
      let action : Option LinkAction :=
        if octetNat e 3 = 1 then some .sendLoad else if octetNat e 3 = 2 then some .sendLink
        else if octetNat e 3 = 3 then some .closeInterval
        else if octetNat e 3 = 4 then some (.exportEvent (if octetNat e 4 = 0 then 0 else 1))
        else if octetNat e 3 = 5 then some (.markInterval ⟨min (octetNat e 4) 7, by omega⟩) else none
      let source : Option EventSource := if octetNat e 1 = 0 then none else sources[octetNat e 1 - 1]?
      let q := octetNat e 2
      let top : Nat := if octetNat e 1 ≤ 3 then 33 else if octetNat e 1 ≤ 6 then 15 else 0
      let lowered : Nat :=
        if (octetNat e 3 = 4 ∧ 1 < octetNat e 4) ∨ (octetNat e 3 = 5 ∧ 7 < octetNat e 4) then 1 else 0
      ((source = none ∨ action = none) → readLinkEntry e = (none, 1))
        ∧ ∀ x a, source = some x → action = some a →
            (0 < top → top ≤ q → q ≠ 255 → readLinkEntry e = (none, lowered + 1))
            ∧ ((q < top ∨ q = 255 ∨ top = 0) →
                let dropped : Nat := if top = 0 ∧ q ≠ 255 then 1 else 0
                ((x = .intervalClosed ∨ x = .closeDeferred) → a = .closeInterval →
                    readLinkEntry e = (none, dropped + lowered + 1))
                ∧ (¬ ((x = .intervalClosed ∨ x = .closeDeferred) ∧ a = .closeInterval) → readLinkEntry e =
                    (some { source := x, qual := if q < top then some q else none, action := a
                            holdOff := octetNat e 5 }, dropped + lowered))))
    ∧ ∀ (s : State) (img : List Byte) (r : Nat), s.loader.phase = .loading →
      structuralFault s.loader.station img = some r →
      let placed (kind : Nat) : Option Sect := (((sectionsOf img).take 8).find? fun d => d.kind == kind).filter fun d =>
        decide (fieldNat img 0 4 = 0x4E534349 ∧ d.offset + d.len ≤ fieldNat img 6 4 ∧ d.offset + d.len ≤ img.length)
      let known (d : Sect) : List (List Byte) := (entriesOf img { d with count := d.len / 5 }).filter fun e =>
        decide (octetNat e 0 = 1 ∨ octetNat e 0 = 2 ∨ octetNat e 0 = 7)
      let named (d : Sect) : List (List Byte) := entriesOf img { d with count := min d.count d.len }
      let unknown := ((sectionsOf img).take 8).filter fun d => decide (d.kind = 0 ∨ 8 < d.kind)
      ∃ t, exec (.imageLoadComplete img) s = .next t
        ∧ (placed 1 = none → t.params = {})
        ∧ (∀ d, placed 1 = some d →
            let q := (readParams (known d)).1
            t.params = { serial := q.serial, bitRate := q.bitRate, helloPeriod := q.helloPeriod })
        ∧ (s.loader.clamps = 0 → t.loader.clamps.toNat =
            ((placed 1).map fun d => (readParams (known d)).2).getD 0
              + ((placed 8).map fun d => if d.count ≤ 4 then s.collectorClamps (named d) else 0).getD 0
              + (if 5 ≤ r then unknown.length else 0))
        ∧ ((∀ d, placed 8 = some d → 4 < d.count) →
            t.orders = { s.orders with anySource := true })
        ∧ (∀ d, placed 8 = some d → d.count ≤ 4 → s.orders.collectors = [] →
            t.orders.anySource = s.orders.anySource ∧ t.orders.collectors.Nodup
            ∧ ∀ st, st ∈ t.orders.collectors ↔ s.collectorsOf (named d) st)

/-- R189 and R197: the structural faults, in the order of the rule: the first that applies is the one found, and there is none
when none applies. That an image which the flash delivers shorter than its length is fault 5 is the model's choice (log
entry 21). -/
def Obligations.StructuralFaultsAreFoundInOrder : Prop :=
  ∀ (strap : Station) (img : List Byte),
    let total := fieldNat img 6 4
    let count := octetNat img 10
    let ds := (sectionsOf img).filter fun d => decide (1 ≤ d.kind ∧ d.kind ≤ 8)
    (strap = 15#4 → structuralFault strap img = some 1)
      ∧ (strap ≠ 15#4 → fieldNat img 0 4 ≠ 0x4E534349 → structuralFault strap img = some 2)
      ∧ (strap ≠ 15#4 → fieldNat img 0 4 = 0x4E534349 →
          (fieldNat img 4 2 ≠ 1 → structuralFault strap img = some 3)
          ∧ (fieldNat img 4 2 = 1 →
              ((262144 < total ∨ total < 20 ∨ 8 < count ∨ total < 16 + 12 * count) →
                structuralFault strap img = some 4)
              ∧ (total ≤ 262144 → 20 ≤ total → count ≤ 8 → 16 + 12 * count ≤ total →
                  let broken : Prop :=
                    img.length < total ∨ fieldNat img (total - 4) 4 ≠ imageCheck (img.take (total - 4))
                  (broken → structuralFault strap img = some 5)
                  ∧ (¬ broken → sectionsMisplaced img ds → structuralFault strap img = some 6)
                  ∧ (¬ broken → ¬ sectionsMisplaced img ds → (∃ d ∈ ds, sectionOverfull img d) →
                      structuralFault strap img = some 7)
                  ∧ (¬ broken → ¬ sectionsMisplaced img ds → (∀ d ∈ ds, ¬ sectionOverfull img d) →
                      ((∃ d ∈ ds, sectionCorrupt img d) → structuralFault strap img = some 8)
                      ∧ ((∀ d ∈ ds, ¬ sectionCorrupt img d) → structuralFault strap img = none)))))

/-- R192, R74, R98, R166 and R170: a full reset leaves every block as right after power-on, under the sampled straps. The model's
choices: the queue of waiting commands is kept (log entry 3), and so is the count of strap levels sampled at restarts (log
entry 5). -/
def Obligations.FullResetClearsTheStation : Prop :=
  ∀ (s : State) (straps : BitVec 4),
    exec (.fullReset straps) s = .next { State.reset with
        pending := s.pending
        loader := { State.reset.loader with station := straps, strapReads := s.loader.strapReads } }
      ∧ State.reset.loader.phase = .loading ∧ State.reset.time.now = 0 ∧ State.reset.loader.restartCount = 0
      ∧ State.reset.buffer.free = 12288 ∧ State.reset.params.classLimit = 1024
      ∧ (∀ p : Port, State.reset.port p = { link := .down, penalty := 0, carrier := false, badFrames := 0 }
          ∧ State.reset.buffer.ports[p] = { classes := Vector.replicate 4 { copies := [], occ := 0, num := 0 } })
      ∧ State.reset.fwd.table = [] ∧ State.reset.fwd.queue = [] ∧ State.reset.fwd.period = 0
      ∧ (∀ n : SlotNo, State.reset.slot n = none) ∧ State.reset.peers.isolated = false
      ∧ State.reset.restraint.on = false ∧ State.reset.restraint.list = [] ∧ State.reset.load.share = 0
      ∧ State.reset.meter.number = 1 ∧ State.reset.meter.span = 1 ∧ State.reset.meter.queue = []
      ∧ (∀ k, State.reset.acc k = {}) ∧ (∀ c : Fin 2, (State.reset.chan c).state = .idle)
      ∧ State.reset.line.answers = [] ∧ State.reset.line.conflict = false ∧ State.reset.links = []

/-- R194: the end of a read of the front item, of any of the four kinds: restored and GOOD with a good check, read again after
the first two failures, and FAILED at the third, counted under REFETCH_FAILED. The item then leaves the queue, and the first
WAITING entry, by the order of R194, is queued. R23: a restored FIXED entry takes the entry of its key, the lowest free slot of
its bucket, the slot of R21's victim, or that of the LEARNED entry with the greatest age, with the LEAVE of a withdrawn key and
the JOIN. The model's choices: the front item is restored whatever number octet the read carries (log entry 25), the LEAVE is
queued before the JOIN (log entry 46), an entry of the key that belongs to another FIXED entry is taken over too (log entry 51),
and with no item in the queue, or outside JOINING and RUNNING, the command changes nothing (log entry 44). -/
def Obligations.RefetchReadRestoresOrFails : Prop :=
  (∀ (s : State) (e : List Byte), (s.loader.refetch = [] ∨ s.acting = false) →
      exec (.refetchReadComplete e) s = .next s)
    ∧ ∀ (s : State) (e : List Byte) (i : CfgItem) (is : List CfgItem), s.acting = true → s.loader.refetch = i :: is →
      let n := cfgOctets i.kind
      let good : Prop := e.length = n ∧ fieldNat e (n - 2) 2 = crc16 (e.take (n - 2))
      (¬ good → s.loader.failures < 2 → exec (.refetchReadComplete e) s =
          .next { s with loader := { s.loader with failures := s.loader.failures + 1 } })
      ∧ (¬ good → 2 ≤ s.loader.failures → s.tablesWf → s.integOf i = some .queued →
          ∃ t, exec (.refetchReadComplete e) s = .next t
            ∧ Frame [.rules, .tenants, .tariffs, .fixed, .loader] s t ∧ t.integOf i = some .failed ∧ Promoted i is s t
            ∧ t.loader = { s.loader with
                refetch := t.loader.refetch, failures := 0, refetchFailed := satInc s.loader.refetchFailed })
      ∧ (good → s.tablesWf → s.integOf i = some .queued →
          let f := (readFixedEntry e).1
          let b := bucketOf f.tenant f.addr
          (i.kind = .fixed → bucketFaulty b s = false ∧ mapWf s.fwd.table = true) →
          ∃ t, exec (.refetchReadComplete e) s = .next t ∧ Promoted i is s t ∧ t.integOf i = some .good
            ∧ t.loader = { s.loader with refetch := t.loader.refetch, failures := 0 }
            ∧ (i.kind ≠ .fixed → Frame [.rules, .tenants, .tariffs, .fixed, .loader] s t)
            ∧ (i.kind = .rule → mapFind t.rules i.number = some (readRule e).1)
            ∧ (i.kind = .tenant → mapFind t.tenants i.number = some (readTenantEntry e).1)
            ∧ (i.kind = .tariff → t.tariff i.number =
                { fee := fieldNat e 1 2, base := fieldNat e 3 2, peak := fieldNat e 5 2, detour := fieldNat e 7 2
                  inbound := fieldNat e 9 2
                  entry := { octets := e.take 11, check := BitVec.ofNat 16 (fieldNat e 11 2) } })
            ∧ (i.kind = .fixed →
                let restored : FwdEntry :=
                  { tenant := f.tenant, addr := f.addr, origin := .fixed i.number, localPort := f.localPort, age := 0
                    announced := false, holders := [], entry := f.entry }
                let join : List (ReachOp × Tenant × Addr) :=
                  if f.localPort.isSome = true then [(.join, f.tenant, f.addr)] else []
                let leave (g : FwdEntry) : List (ReachOp × Tenant × Addr) :=
                  if g.localPort.isSome = true
                      ∧ (g.announced = true ∨ ∃ x ∈ s.fwd.queue, x.tenant = g.tenant ∧ x.addr = g.addr) then
                    [(.leave, g.tenant, g.addr)] else []
                let takes (k : Nat) : Prop := t.unannounced k = some restored
                  ∧ ∀ j, j ≠ k → t.unannounced j = s.unannounced j
                let full : Prop := ∀ j ∈ bucketSlots b, (mapFind s.fwd.table j).isSome = true
                Frame [.rules, .tenants, .tariffs, .fixed, .loader, .fwd, .line] s t
                ∧ mapFind t.fixed i.number = some f
                ∧ (∀ g, s.entryAt f.tenant f.addr = some g →
                    (∃ a, t.entryAt f.tenant f.addr = some
                      { g with
                        origin := .fixed i.number, localPort := f.localPort, age := 0, announced := a
                        entry := f.entry })
                    ∧ QueuesReach (if f.localPort.isSome = true then join else leave g) s t)
                ∧ (s.entryAt f.tenant f.addr = none →
                    (∀ k ∈ bucketSlots b, mapFind s.fwd.table k = none →
                        (∀ j ∈ bucketSlots b, j < k → (mapFind s.fwd.table j).isSome = true) →
                        takes k ∧ QueuesReach join s t)
                    ∧ (∀ k g, full → s.isVictim b k g → takes k ∧ QueuesReach join s t)
                    ∧ (∀ k g, full → (∀ j ∈ bucketSlots b, ∀ h, mapFind s.fwd.table j = some h →
                        h.origin = .learned → h.localPort ≠ none) → k ∈ bucketSlots b →
                        mapFind s.fwd.table k = some g → g.origin = .learned →
                        (∀ j ∈ bucketSlots b, ∀ h, mapFind s.fwd.table j = some h → h.origin = .learned →
                          h.age < g.age ∨ (h.age = g.age ∧ k ≤ j)) →
                        takes k ∧ QueuesReach (leave g ++ join) s t))))

/-! ## Arithmetic -/

/-- R152, R155 and R156: the counts, charge units and residue of an accumulator after a rated frame, exactly: no count is carried
above its largest value, and SATURATED tells that one would have been. -/
def Obligations.RatingIsExact : Prop :=
  ∀ (a : Accumulator) (fee rate len : Nat),
    let n := fee * 1024 + len * rate + a.residue.toNat
    let up := (a.outbound len).rate fee rate len
    let down := (a.inbound len).rate fee rate len
    up.outF.toNat = min (a.outF.toNat + 1) (2 ^ 40 - 1) ∧ up.outO.toNat = min (a.outO.toNat + len) (2 ^ 48 - 1)
      ∧ up.inF = a.inF ∧ up.inO = a.inO ∧ up.drops = a.drops
      ∧ up.charge.toNat = min (a.charge.toNat + n / 1024) (2 ^ 48 - 1)
      ∧ (a.charge.toNat < 2 ^ 48 - 1 → up.residue.toNat = n % 1024)
      ∧ (a.charge.toNat = 2 ^ 48 - 1 → up.residue = a.residue)
      ∧ (up.saturated = true ↔ a.saturated = true ∨ 2 ^ 40 ≤ a.outF.toNat + 1 ∨ 2 ^ 48 ≤ a.outO.toNat + len
          ∨ 2 ^ 48 ≤ a.charge.toNat + n / 1024)
      ∧ down.inF.toNat = min (a.inF.toNat + 1) (2 ^ 40 - 1) ∧ down.inO.toNat = min (a.inO.toNat + len) (2 ^ 48 - 1)
      ∧ (down.saturated = true ↔ a.saturated = true ∨ 2 ^ 40 ≤ a.inF.toNat + 1 ∨ 2 ^ 48 ≤ a.inO.toNat + len
          ∨ 2 ^ 48 ≤ a.charge.toNat + n / 1024)
      ∧ down.outF = a.outF ∧ down.outO = a.outO ∧ down.charge = up.charge ∧ down.residue = up.residue
      ∧ up.suspect = a.suspect ∧ up.restrained = a.restrained ∧ up.tariffFault = a.tariffFault

/-- R13 and R14: the flow bucket is the ten lowest bits of the 16-bit check over tenant, addresses and, with deep hash, the 12
octets after the EtherType; the check is the bit-serial one of R14. -/
def Obligations.FlowBucketIsTheCyclicCheck : Prop :=
  (∀ octets : List Byte,
    crc16 octets = ((octets.flatMap bitsUp).foldl (stepUp (0x1021#16)) (0xFFFF#16)).toNat)
    ∧ (∀ octets : List Byte,
        imageCheck octets = (~~~ (octets.flatMap bitsUp).foldl (stepUp (0x04C11DB7#32)) (0xFFFFFFFF#32)).toNat)
    ∧ (∀ octets : List Byte, frameCheck octets =
        (~~~ ((octets.flatMap fun b => (bitsUp b).reverse).foldl (stepUp (0x04C11DB7#32)) (0xFFFFFFFF#32)).reverse).toNat)
    ∧ ∀ (t : Tenant) (l : List Byte),
        flowBucket false t l = crc16 (t :: (l.take 12)) % 1024
        ∧ (fieldNat l 12 2 ≠ 0x8100 → flowBucket true t l = crc16 (t :: (l.take 12 ++ (l.drop 14).take 12)) % 1024)
        ∧ (fieldNat l 12 2 = 0x8100 → flowBucket true t l = crc16 (t :: (l.take 12 ++ (l.drop 18).take 12)) % 1024)

/-! ## Laws of every step -/

/-- R104, R95 and R79, kept by every step. -/
def Obligations.RestraintAndLoadLawsAreKept : Prop :=
  ∀ s t : State, step s = .next t →
    (s.restraintLaw → t.restraintLaw) ∧ (s.shareLaw → t.shareLaw) ∧ (s.indexLaw → t.indexLaw)

/-- R16, R17 and R24, kept by every step. -/
def Obligations.ForwardingLawsAreKept : Prop :=
  ∀ s t : State, step s = .next t → (s.tableLaw → t.tableLaw) ∧ (s.reachLaw → t.reachLaw)

/-- R163 and R180, kept by every step. -/
def Obligations.IntervalLawsAreKept : Prop :=
  ∀ s t : State, step s = .next t → (s.intervalLaw → t.intervalLaw) ∧ (s.cursorLaw → t.cursorLaw)

/-- R158 and R165: in a step other than a full reset, no count of a live accumulator whose check is good decreases unless a
close moves it (the live interval number then changes), and the sums of R165 do not decrease unless a pending interval leaves
the queue. A boundary of the meter, which closes or defers, and a restart leave each sum as it was. -/
def Obligations.MeterLawsAreKept : Prop :=
  (∀ s t : State, step s = .next t → s.accLaw → s.intervalLaw →
    t.accLaw
      ∧ ((∀ straps, s.pending.head? ≠ some (.fullReset straps)) →
          ∀ (x : Tenant) (b : Cls), (s.acc (accKey x b)).checkGood = true →
            let a := s.acc (accKey x b)
            let a' := t.acc (accKey x b)
            (t.meter.number = s.meter.number →
                a.outF.toNat ≤ a'.outF.toNat ∧ a.outO.toNat ≤ a'.outO.toNat ∧ a.inF.toNat ≤ a'.inF.toNat
                ∧ a.inO.toNat ≤ a'.inO.toNat ∧ a.drops.toNat ≤ a'.drops.toNat ∧ a.charge.toNat ≤ a'.charge.toNat)
            ∧ ((∀ i ∈ s.meter.queue, i ∈ t.meter.queue) →
                ∀ f ∈ meterCounts, s.meterSum f x b ≤ t.meterSum f x b)))
    ∧ (∀ s : State, s.accLaw → ∀ (x : Tenant) (b : Cls), (s.acc (accKey x b)).checkGood = true →
        ∀ f ∈ meterCounts, (boundary s).st.meterSum f x b = s.meterSum f x b
          ∧ s.restarted.meterSum f x b = s.meterSum f x b)
    ∧ State.reset.accLaw

/-- R72, kept by every step. -/
def Obligations.CellsAreConserved : Prop :=
  ∀ s t : State, s.cellLaw → step s = .next t → t.cellLaw

/-- R149, kept by every step. -/
def Obligations.SilenceLawIsKept : Prop :=
  ∀ s t : State, s.silenceLaw → step s = .next t → t.silenceLaw

/-- The state after a full reset keeps every law. -/
def Obligations.ResetKeepsTheLaws : Prop := State.reset.laws

end
end

