-- ==== Sys2Proof/Laws/Frame.lean ====
section
/-! SUPPORT. How frames (Safety.lean) compose, and what they keep. -/

namespace Sys2Proof.Machine

theorem Block.same_refl (b : Block) (s : State) : b.same s s := by cases b <;> rfl

theorem Block.same_trans {b : Block} {s t u : State} (h : b.same s t) (k : b.same t u) : b.same s u := by
  cases b <;> simp_all [Block.same]

theorem Frame.refl (l : List Block) (s : State) : Frame l s s := fun b _ => b.same_refl s

theorem Frame.mono {l m : List Block} {s t : State} (h : Frame l s t) (k : l ⊆ m) : Frame m s t :=
  fun b hb => h b fun hl => hb (k hl)

theorem Frame.trans {l : List Block} {s t u : State} (h : Frame l s t) (k : Frame l t u) : Frame l s u :=
  fun b hb => Block.same_trans (h b hb) (k b hb)

/-- One operation after another, within a wider list. -/
theorem Frame.seq {l m n : List Block} {s t u : State} (h : Frame l s t) (k : Frame m t u)
    (hl : l ⊆ n) (hm : m ⊆ n) : Frame n s u := (h.mono hl).trans (k.mono hm)

theorem Frame.andThen {l : List Block} {s : State} {o : Out} {f : State → Out} (h : Frame l s o.st)
    (k : ∀ t, Frame l t (f t).st) : Frame l s (o.andThen f).st := h.trans (k o.st)

theorem Frame.also {l : List Block} {s : State} {o : Out} {f : State → State} (h : Frame l s o.st)
    (k : ∀ t, Frame l t (f t)) : Frame l s (o.also f).st := h.trans (k o.st)

theorem Frame.eachOut {α : Type} {l : List Block} {f : α → State → Out} (k : ∀ a t, Frame l t (f a t).st)
    (as : List α) (s : State) : Frame l s (eachOut f as s).st := by
  induction as generalizing s with
  | nil => exact .refl _ _
  | cons a as ih => exact (k a s).trans (ih _)

theorem Frame.eachState {α : Type} {l : List Block} {f : α → State → State} (k : ∀ a t, Frame l t (f a t))
    (as : List α) (s : State) : Frame l s (eachState f as s) := by
  induction as generalizing s with
  | nil => exact .refl _ _
  | cons a as ih => exact (k a s).trans (ih _)

/-! ## The blocks that a frame keeps -/

theorem Frame.pending {l : List Block} {s t : State} (h : Frame l s t) (k : Block.pending ∉ l) :
    t.pending = s.pending := h .pending k

theorem Frame.ports {l : List Block} {s t : State} (h : Frame l s t) (k : Block.ports ∉ l) :
    t.ports = s.ports := h .ports k

theorem Frame.buffer {l : List Block} {s t : State} (h : Frame l s t) (k : Block.buffer ∉ l) :
    t.buffer = s.buffer := h .buffer k

theorem Frame.rules {l : List Block} {s t : State} (h : Frame l s t) (k : Block.rules ∉ l) :
    t.rules = s.rules := h .rules k

theorem Frame.tenants {l : List Block} {s t : State} (h : Frame l s t) (k : Block.tenants ∉ l) :
    t.tenants = s.tenants := h .tenants k

theorem Frame.tariffs {l : List Block} {s t : State} (h : Frame l s t) (k : Block.tariffs ∉ l) :
    t.tariffs = s.tariffs := h .tariffs k

theorem Frame.fixed {l : List Block} {s t : State} (h : Frame l s t) (k : Block.fixed ∉ l) :
    t.fixed = s.fixed := h .fixed k

theorem Frame.fwd {l : List Block} {s t : State} (h : Frame l s t) (k : Block.fwd ∉ l) :
    t.fwd = s.fwd := h .fwd k

theorem Frame.peers {l : List Block} {s t : State} (h : Frame l s t) (k : Block.peers ∉ l) :
    t.peers = s.peers := h .peers k

theorem Frame.load {l : List Block} {s t : State} (h : Frame l s t) (k : Block.load ∉ l) :
    t.load = s.load := h .load k

theorem Frame.restraint {l : List Block} {s t : State} (h : Frame l s t) (k : Block.restraint ∉ l) :
    t.restraint = s.restraint := h .restraint k

theorem Frame.line {l : List Block} {s t : State} (h : Frame l s t) (k : Block.line ∉ l) :
    t.line = s.line := h .line k

theorem Frame.meter {l : List Block} {s t : State} (h : Frame l s t) (k : Block.meter ∉ l) :
    t.meter = s.meter := h .meter k

theorem Frame.chans {l : List Block} {s t : State} (h : Frame l s t) (k : Block.chans ∉ l) :
    t.chans = s.chans := h .chans k

theorem Frame.orders {l : List Block} {s t : State} (h : Frame l s t) (k : Block.orders ∉ l) :
    t.orders = s.orders := h .orders k

theorem Frame.links {l : List Block} {s t : State} (h : Frame l s t) (k : Block.links ∉ l) :
    t.links = s.links := h .links k

theorem Frame.params {l : List Block} {s t : State} (h : Frame l s t) (k : Block.params ∉ l) :
    t.params = s.params := h .params k

theorem Frame.time {l : List Block} {s t : State} (h : Frame l s t) (k : Block.time ∉ l) :
    t.time = s.time := h .time k

theorem Frame.loader {l : List Block} {s t : State} (h : Frame l s t) (k : Block.loader ∉ l) :
    t.loader = s.loader := h .loader k

end Sys2Proof.Machine
end

