-- ==== Sys2Proof/Laws/Frames.lean ====
section
/-! SUPPORT. The frame of every shared operation: the blocks that it may change. -/

namespace Sys2Proof.Machine

/-! ## Ops -/

theorem reachTime_frame (t : Time) (s : State) : Frame [.time] s (reachTime t s) := by
  unfold reachTime; split
  · exact .refl _ _
  · intro b hb; cases b <;> first | rfl | simp at hb

theorem setPort_frame (p : Port) (f : PortUnit → PortUnit) (s : State) : Frame [.ports] s (setPort p f s) := by
  intro b hb; cases b <;> first | rfl | simp at hb

theorem setSlot_frame (n : SlotNo) (x : Option PeerSlot) (s : State) : Frame [.peers] s (setSlot n x s) := by
  intro b hb; cases b <;> first | rfl | simp at hb

theorem modifySlot_frame (n : SlotNo) (f : PeerSlot → PeerSlot) (s : State) :
    Frame [.peers] s (modifySlot n f s) := setSlot_frame _ _ _

theorem countDrop_frame (p : Port) (r : DropReason) (s : State) : Frame [.ports] s (countDrop p r s) :=
  setPort_frame _ _ _

theorem integrityFault_frame (s : State) : Frame [.loader] s (integrityFault s).st := by
  intro b hb; cases b <;> first | rfl | simp at hb

/-- The blocks that an integrity fault on a configuration entry may change. -/
abbrev cfgBlocks : List Block := [.rules, .tenants, .tariffs, .fixed, .loader]

theorem setInteg_frame (i : CfgItem) (v : Integrity) (s : State) :
    Frame [.rules, .tenants, .tariffs, .fixed] s (setInteg i v s) := by
  unfold setInteg
  split <;> (intro b hb; cases b <;> first | rfl | simp at hb)

theorem requestRefetch_frame (i : CfgItem) (s : State) : Frame cfgBlocks s (requestRefetch i s) := by
  unfold requestRefetch
  split
  · refine Frame.seq (l := [.loader]) (m := [.rules, .tenants, .tariffs, .fixed]) ?_ (setInteg_frame _ _ _)
      (by decide) (by decide)
    intro b hb; cases b <;> first | rfl | simp at hb
  · exact (setInteg_frame _ _ _).mono (by decide)

theorem configFault_frame (i : CfgItem) (s : State) : Frame cfgBlocks s (configFault i s).st :=
  (requestRefetch_frame i s).seq (integrityFault_frame _) (by decide) (by decide)

/-! ## Forwarding table -/

theorem putEntry_frame (i : Nat) (e : FwdEntry) (s : State) : Frame [.fwd] s (putEntry i e s) := by
  intro b hb; cases b <;> first | rfl | simp at hb

theorem dropEntry_frame (i : Nat) (s : State) : Frame [.fwd] s (dropEntry i s) := by
  intro b hb; cases b <;> first | rfl | simp at hb

theorem enqueueReach_frame (op : ReachOp) (t : Tenant) (a : Addr) (s : State) :
    Frame [.fwd] s (enqueueReach op t a s) := by
  unfold enqueueReach
  split
  · intro b hb; cases b <;> first | rfl | simp at hb
  · split
    · intro b hb; cases b <;> first | rfl | simp at hb
    · split <;> (intro b hb; cases b <;> first | rfl | simp at hb)

theorem composeReach_frame (s : State) : Frame [.fwd, .line] s (composeReach s) := by
  unfold composeReach
  split
  · intro b hb; cases b <;> first | rfl | simp at hb
  · exact .refl _ _

theorem queueReach_frame (op : ReachOp) (t : Tenant) (a : Addr) (s : State) :
    Frame [.fwd, .line] s (queueReach op t a s) :=
  (enqueueReach_frame op t a s).seq (composeReach_frame _) (by decide) (by decide)

theorem withdrawKey_frame (t : Tenant) (a : Addr) (x : Bool) (s : State) :
    Frame [.fwd, .line] s (withdrawKey t a x s) := by
  unfold withdrawKey
  split
  · exact queueReach_frame _ _ _ _
  · exact .refl _ _

/-- The blocks that a read of the forwarding table may change. -/
abbrev tableBlocks : List Block := .fwd :: .line :: cfgBlocks

theorem entryFault_frame (i : Nat) (e : FwdEntry) (s : State) : Frame tableBlocks s (entryFault i e s).st := by
  have h : Frame [.fwd, .line] s
      (if e.localPort.isSome then queueReach .leave e.tenant e.addr (dropEntry i s) else dropEntry i s) := by
    split
    · exact (dropEntry_frame i s).seq (queueReach_frame _ _ _ _) (by decide) (by decide)
    · exact (dropEntry_frame i s).mono (by decide)
  unfold entryFault
  cases e.origin with
  | learned => exact h.seq (integrityFault_frame _) (by decide) (by decide)
  | fixed n => exact h.seq (configFault_frame _ _) (by decide) (by decide)

theorem testSlot_frame (i : Nat) (s : State) : Frame tableBlocks s (testSlot i s).st := by
  unfold testSlot
  split
  · split
    · exact .refl _ _
    · exact entryFault_frame _ _ _
  · exact .refl _ _

theorem testBucket_frame (b : Nat) (s : State) : Frame tableBlocks s (testBucket b s).st :=
  Frame.eachOut testSlot_frame _ _

theorem lookup_frame (t : Tenant) (a : Addr) (s : State) : Frame tableBlocks s (lookup t a s).2.st := by
  unfold lookup
  dsimp only
  split
  · exact testBucket_frame _ _
  · split <;> exact .refl _ _

theorem learnKey_frame (p : Fin 24) (t : Tenant) (a : Addr) (s : State) :
    Frame [.fwd, .line] s (learnKey p t a s) := by
  unfold learnKey
  split
  · split
    · exact .refl _ _
    · split
      · dsimp only
        split
        · exact (putEntry_frame _ _ _).mono (by decide)
        · exact (putEntry_frame _ _ _).seq (queueReach_frame _ _ _ _) (by decide) (by decide)
      · exact .refl _ _
  · split
    · exact (putEntry_frame _ _ _).seq (queueReach_frame _ _ _ _) (by decide) (by decide)
    · intro b hb; cases b <;> first | rfl | simp at hb

theorem learn_frame (p : Fin 24) (t : Tenant) (a : Addr) (s : State) : Frame tableBlocks s (learn p t a s).st :=
  (testBucket_frame _ s).also fun _ => (learnKey_frame _ _ _ _).mono (by decide)

theorem joinKey_frame (h : Holder) (t : Tenant) (a : Addr) (s : State) : Frame [.fwd] s (joinKey h t a s) := by
  unfold joinKey
  split
  · intro b hb; cases b <;> first | rfl | simp at hb
  · split
    · exact putEntry_frame _ _ _
    · intro b hb; cases b <;> first | rfl | simp at hb

theorem removeEmpty_frame (i : Nat) (s : State) : Frame [.fwd] s (removeEmpty i s) := by
  unfold removeEmpty
  split
  · split
    · exact dropEntry_frame _ _
    · exact .refl _ _
  · exact .refl _ _

theorem leaveKey_frame (st : Station) (t : Tenant) (a : Addr) (s : State) : Frame [.fwd] s (leaveKey st t a s) := by
  unfold leaveKey
  split
  · split
    · split
      · exact (putEntry_frame _ _ _).trans (removeEmpty_frame _ _)
      · exact .refl _ _
    · exact .refl _ _
  · exact .refl _ _

theorem applyItem_frame (st : Station) (it : ReachItem) (s : State) : Frame tableBlocks s (applyItem st it s).st := by
  refine (testBucket_frame _ s).also fun t => ?_
  split
  · split
    · exact (joinKey_frame _ _ _ _).mono (by decide)
    · exact .refl _ _
  · exact (leaveKey_frame _ _ _ _).mono (by decide)

theorem takeReach_frame (st : Station) (r : ReachRx) (s : State) : Frame tableBlocks s (takeReach st r s).st := by
  unfold takeReach
  split
  · exact Frame.eachOut (applyItem_frame st) _ _
  · intro b hb; cases b <;> first | rfl | simp at hb

theorem announceFixed_frame (f : FixedCfg) (s : State) : Frame [.fwd, .line] s (announceFixed f s) := by
  unfold announceFixed
  split
  · exact queueReach_frame _ _ _ _
  · exact .refl _ _

theorem displaceFixed_frame (n : Nat) (f : FixedCfg) (i : Nat) (s : State) :
    Frame [.fwd, .line] s (displaceFixed n f i s) := by
  unfold displaceFixed
  split
  · refine Frame.trans ?_ (announceFixed_frame _ _)
    split
    · exact (putEntry_frame _ _ _).seq (withdrawKey_frame _ _ _ _) (by decide) (by decide)
    · exact (putEntry_frame _ _ _).mono (by decide)
  · exact .refl _ _

theorem reinsertFixed_frame (n : Nat) (f : FixedCfg) (s : State) :
    Frame [.fwd, .line] s (reinsertFixed n f s) := by
  unfold reinsertFixed
  dsimp only
  split
  · split
    · split
      · exact (putEntry_frame _ _ _).seq (announceFixed_frame _ _) (by decide) (by decide)
      · split
        · exact (putEntry_frame _ _ _).seq (withdrawKey_frame _ _ _ _) (by decide) (by decide)
        · exact (putEntry_frame _ _ _).mono (by decide)
    · exact .refl _ _
  · split
    · exact (putEntry_frame _ _ _).seq (announceFixed_frame _ _) (by decide) (by decide)
    · split
      · exact displaceFixed_frame _ _ _ _
      · exact .refl _ _

theorem advanceSweep_frame (i : Nat) (s : State) : Frame [.fwd] s (advanceSweep i s) := by
  unfold advanceSweep
  split
  · intro b hb; cases b <;> first | rfl | simp at hb
  · split <;> (intro b hb; cases b <;> first | rfl | simp at hb)

theorem announceEntry_frame (i : Nat) (s : State) : Frame [.fwd, .line] s (announceEntry i s) := by
  unfold announceEntry
  split
  · split
    · split
      · exact queueReach_frame _ _ _ _
      · exact .refl _ _
    · exact .refl _ _
  · exact .refl _ _

theorem visitSweep_frame (s : State) : Frame tableBlocks s (visitSweep s).st := by
  unfold visitSweep
  split
  · split
    · exact (testSlot_frame _ s).also fun _ =>
        (announceEntry_frame _ _).seq (advanceSweep_frame _ _) (by decide) (by decide)
    · exact .refl _ _
  · exact .refl _ _

theorem endRefresh_frame (s : State) : Frame [.fwd] s (endRefresh s) := by
  unfold endRefresh
  dsimp only
  split <;> (intro b hb; cases b <;> first | rfl | simp at hb)

theorem ageLocal_frame (i : Nat) (s : State) : Frame [.fwd, .line] s (ageLocal i s) := by
  unfold ageLocal
  split
  · split
    · dsimp only
      split
      · exact (putEntry_frame _ _ _).seq (withdrawKey_frame _ _ _ _) (by decide) (by decide)
      · exact (putEntry_frame _ _ _).mono (by decide)
    · exact .refl _ _
  · exact .refl _ _

theorem expireHolders_frame (i : Nat) (s : State) : Frame [.fwd] s (expireHolders i s) := by
  intro b hb; cases b <;> first | rfl | simp at hb

theorem ageSlot_frame (i : Nat) (s : State) : Frame tableBlocks s (ageSlot i s).st := by
  unfold ageSlot
  split
  · split
    · exact ((ageLocal_frame i s).seq (expireHolders_frame i _) (n := tableBlocks) (by decide) (by decide)).trans
        ((removeEmpty_frame i _).mono (by decide))
    · exact entryFault_frame _ _ _
  · exact .refl _ _

theorem visitAging_frame (s : State) : Frame tableBlocks s (visitAging s).st := by
  unfold visitAging
  split
  · refine (Frame.eachOut ageSlot_frame _ s).also fun t => ?_
    dsimp only
    split <;> (intro b hb; cases b <;> first | rfl | simp at hb)
  · exact .refl _ _

/-! ## Notices, load unit, restraint unit -/

theorem composeLink_frame (s : State) : Frame [.line] s (composeLink s) := by
  unfold composeLink
  split
  · intro b hb; cases b <;> first | rfl | simp at hb
  · exact .refl _ _

theorem composeLoad_frame (s : State) : Frame [.line] s (composeLoad s) := by
  unfold composeLoad
  split
  · intro b hb; cases b <;> first | rfl | simp at hb
  · exact .refl _ _

theorem composeHello_frame (s : State) : Frame [.line] s (composeHello s) := by
  unfold composeHello
  split
  · intro b hb; cases b <;> first | rfl | simp at hb
  · exact .refl _ _

theorem updateLoads_frame (s : State) : Frame [.load] s (updateLoads s) := by
  have h : ∀ i t, Frame [.load] t (updateIndex i t) := fun i t b hb => by
    cases b <;> first | rfl | simp at hb
  have k : ∀ u t, Frame [.load] t (updatePeak u t) := fun u t b hb => by
    cases b <;> first | rfl | simp at hb
  have m : Frame [.load] (eachState updateIndex allIndices s)
      { eachState updateIndex allIndices s with
        load := { (eachState updateIndex allIndices s).load with
          uplink := (eachState updateIndex allIndices s).uplinkIndex } } := fun b hb => by
    cases b <;> first | rfl | simp at hb
  exact ((Frame.eachState h allIndices s).trans m).trans (Frame.eachState k allU _)

theorem setDiversion_frame (p : Option Station) (n : Nat) (s : State) : Frame [.load] s (setDiversion p n s).st := by
  unfold setDiversion
  dsimp only
  split
  · intro b hb; cases b <;> first | rfl | simp at hb
  · split <;> (intro b hb; cases b <;> first | rfl | simp at hb)

theorem updateDiversion_frame (s : State) : Frame [.load] s (updateDiversion s).st := by
  unfold updateDiversion
  split
  · exact setDiversion_frame _ _ _
  · split
    · exact setDiversion_frame _ _ _
    · split <;> exact setDiversion_frame _ _ _

theorem isolationRule_frame (s : State) : Frame [.load] s (isolationRule s).st := by
  unfold isolationRule
  split <;> exact setDiversion_frame _ _ _

theorem sampleLoad_frame (s : State) : Frame [.load] s (sampleLoad s).st := by
  unfold sampleLoad
  dsimp only
  split
  · exact (updateLoads_frame s).trans (isolationRule_frame _)
  · exact (updateLoads_frame s).trans (updateDiversion_frame _)

theorem dropLostDiversion_frame (s : State) : Frame [.load] s (dropLostDiversion s).st := by
  unfold dropLostDiversion
  split
  · split
    · exact .refl _ _
    · exact setDiversion_frame _ _ _
  · exact .refl _ _

theorem isolationTurned_frame (x : Bool) (s : State) : Frame [.load] s (isolationTurned x s).st := by
  unfold isolationTurned
  split
  · exact isolationRule_frame _
  · exact setDiversion_frame _ _ _

theorem takeLoad_frame (st : Station) (r : LoadRx) (s : State) : Frame [.peers, .load] s (takeLoad st r s) := by
  unfold takeLoad
  split
  · split
    · exact (modifySlot_frame _ _ _).mono (by decide)
    · intro b hb; cases b <;> first | rfl | simp at hb
  · intro b hb; cases b <;> first | rfl | simp at hb

theorem decideMode_frame (s : State) : Frame [.restraint] s (decideMode s).st := by
  unfold decideMode
  split
  · split
    · intro b hb; cases b <;> first | rfl | simp at hb
    · exact .refl _ _
  · split
    · intro b hb; cases b <;> first | rfl | simp at hb
    · exact .refl _ _

theorem considerTenant_frame (t : Tenant) (s : State) : Frame [.restraint] s (considerTenant t s).st := by
  unfold considerTenant
  split
  · split
    · intro b hb; cases b <;> first | rfl | simp at hb
    · intro b hb; cases b <;> first | rfl | simp at hb
  · exact .refl _ _

theorem restraintEntries_frame (s : State) : Frame [.restraint] s (restraintEntries s).st :=
  Frame.eachOut considerTenant_frame _ _

theorem restraintExits_frame (s : State) : Frame [.restraint] s (restraintExits s) := by
  intro b hb; cases b <;> first | rfl | simp at hb

theorem advanceSlot_frame (s : State) : Frame [.restraint] s (advanceSlot s) := by
  intro b hb; cases b <;> first | rfl | simp at hb

theorem sampleRestraint_frame (s : State) : Frame [.restraint] s (sampleRestraint s).st := by
  refine Frame.andThen ((advanceSlot_frame s).trans (decideMode_frame _)) fun t => ?_
  split
  · exact (restraintExits_frame t).trans (restraintEntries_frame _)
  · exact .refl _ _

/-! ## Meter -/

theorem putAcc_frame (k : Nat) (a : Accumulator) (s : State) : Frame [.meter] s (putAcc k a s) := by
  intro b hb; cases b <;> first | rfl | simp at hb

theorem testAcc_frame (k : Nat) (s : State) : Frame [.meter, .loader] s (testAcc k s).st := by
  unfold testAcc
  split
  · exact .refl _ _
  · exact (putAcc_frame _ _ s).seq (integrityFault_frame _) (by decide) (by decide)

theorem changeAcc_frame (k : Nat) (f : Accumulator → Accumulator) (s : State) :
    Frame [.meter, .loader] s (changeAcc k f s).st :=
  (testAcc_frame k s).also fun _ => (putAcc_frame _ _ _).mono (by decide)

theorem readTariff_frame (n : Nat) (s : State) : Frame cfgBlocks s (readTariff n s).2.st := by
  unfold readTariff
  dsimp only
  split
  · split
    · exact .refl _ _
    · exact configFault_frame _ _
  · exact .refl _ _

/-- The blocks that metering a frame may change. -/
abbrev meterBlocks : List Block := .meter :: cfgBlocks

theorem meterFrame_frame (d : Descriptor) (e : Port) (g : Option GroupTag) (s : State) :
    Frame meterBlocks s (meterFrame d e g s).st := by
  unfold meterFrame
  refine Frame.andThen ((testAcc_frame _ s).mono (by decide)) fun t => ?_
  refine Frame.also ((readTariff_frame _ t).mono (by decide)) fun u => ?_
  dsimp only
  split <;> exact (putAcc_frame _ _ _).mono (by decide)

theorem reportNone_frame (d : Descriptor) (s : State) : Frame [.meter, .loader] s (reportNone d s).st := by
  unfold reportNone
  split
  · exact changeAcc_frame _ _ _
  · exact .refl _ _

theorem reportAdmitted_frame (d : Descriptor) (e : Port) (g : Option GroupTag) (s : State) :
    Frame meterBlocks s (reportAdmitted d e g s).st := by
  unfold reportAdmitted
  split
  · exact meterFrame_frame _ _ _ _
  · exact .refl _ _

theorem flagRestrained_frame (d : Descriptor) (s : State) :
    Frame [.meter, .loader] s (flagRestrained d s).st := by
  unfold flagRestrained
  split
  · exact changeAcc_frame _ _ _
  · exact .refl _ _

theorem closeLive_frame (s : State) : Frame [.meter] s (closeLive s).st := by
  intro b hb; cases b <;> first | rfl | simp at hb

theorem closeInterval_frame (s : State) : Frame [.meter, .loader] s (closeInterval s).st :=
  (Frame.eachOut testAcc_frame _ s).andThen fun _ => (closeLive_frame _).mono (by decide)

theorem deferClose_frame (s : State) : Frame [.meter] s (deferClose s).st := by
  intro b hb; cases b <;> first | rfl | simp at hb

theorem boundary_frame (s : State) : Frame [.meter, .loader] s (boundary s).st := by
  unfold boundary
  split
  · split
    · exact closeInterval_frame _
    · exact (deferClose_frame _).mono (by decide)
  · exact .refl _ _

theorem markInterval_frame (c : Fin 8) (s : State) : Frame [.meter] s (markInterval c s) := by
  intro b hb; cases b <;> first | rfl | simp at hb

theorem removeInterval_frame (n : Count) (s : State) : Frame [.meter, .loader] s (removeInterval n s).st := by
  have h : Frame [.meter] s
      { s with meter := { s.meter with queue := s.meter.queue.filter fun i => i.number != n } } := by
    intro b hb; cases b <;> first | rfl | simp at hb
  unfold removeInterval
  dsimp only
  split
  · exact h.seq (closeInterval_frame _) (by decide) (by decide)
  · exact h.mono (by decide)

/-! ## Export channels -/

theorem setChan_frame (c : Fin 2) (f : Channel → Channel) (s : State) : Frame [.chans] s (setChan c f s) := by
  intro b hb; cases b <;> first | rfl | simp at hb

theorem fillEnd_frame (s : State) : Frame [.line, .chans] s (fillEnd s) := by
  unfold fillEnd
  split
  · split
    · exact .refl _ _
    · refine Frame.trans ?_ ((setChan_frame _ _ _).mono (by decide))
      intro b hb; cases b <;> first | rfl | simp at hb
  · exact .refl _ _

theorem readyEnd_frame (c : Fin 2) (s : State) : Frame [.line, .chans] s (readyEnd c s) := by
  unfold readyEnd
  dsimp only
  split
  · refine Frame.trans ?_ (fillEnd_frame _)
    intro b hb; cases b <;> first | rfl | simp at hb
  · exact .refl _ _

theorem fillRecord_frame (s : State) : Frame [.line, .chans] s (fillRecord s) := by
  unfold fillRecord
  split
  · split
    · exact .refl _ _
    · dsimp only
      split
      · exact .refl _ _
      · refine Frame.trans ?_ ((setChan_frame _ _ _).mono (by decide))
        intro b hb; cases b <;> first | rfl | simp at hb
  · exact .refl _ _

theorem readAccount_frame (t : Tenant) (s : State) : Frame cfgBlocks s (readAccount t s).2.st := by
  unfold readAccount
  split
  · exact .refl _ _
  · split
    · split
      · exact .refl _ _
      · exact configFault_frame _ _
    · exact .refl _ _

theorem examine_frame (b : Bool) (r : Record) (x : Channel) (s : State) :
    Frame cfgBlocks s (examine b r x s).2.st := by
  unfold examine
  split
  · exact .refl _ _
  · split
    · exact .refl _ _
    · split
      · dsimp only
        split <;> exact readAccount_frame _ _
      · exact .refl _ _

theorem examineAll_frame (n : Nat) (rs : List Record) (b : Bool) (x : Channel) (s : State) :
    Frame cfgBlocks s (examineAll n rs b x s).2.st := by
  induction rs generalizing b x s with
  | nil => exact .refl _ _
  | cons r rs ih =>
    unfold examineAll
    split
    · exact .refl _ _
    · split
      · exact .refl _ _
      · dsimp only
        split
        · exact examine_frame _ _ _ _
        · exact (examine_frame _ _ _ _).trans (ih _ _ _)

/-- The blocks that the production of records may change. -/
abbrev exportBlocks : List Block := .line :: .chans :: cfgBlocks

theorem produce_frame (b : Bool) (c : Fin 2) (s : State) : Frame exportBlocks s (produce b c s).st := by
  unfold produce
  dsimp only
  split
  · refine Frame.also ((examineAll_frame _ _ _ _ s).mono (by decide)) fun t => ?_
    exact (((setChan_frame _ _ t).seq (readyEnd_frame _ _) (n := exportBlocks) (by decide) (by decide)).trans
      ((fillRecord_frame _).mono (by decide)))
  · exact .refl _ _

theorem channelFreed_frame (c : Fin 2) (s : State) : Frame exportBlocks s (channelFreed c s).st :=
  (produce_frame _ c s).also fun _ =>
    (readyEnd_frame _ _).seq (fillRecord_frame _) (by decide) (by decide)

theorem askWithdrawal_frame (s : State) : Frame [.line] s (askWithdrawal s) := by
  intro b hb; cases b <;> first | rfl | simp at hb

theorem returnRecords_frame (c : Fin 2) (s : State) : Frame [.line, .chans] s (returnRecords c s) := by
  unfold returnRecords
  split
  · exact (setChan_frame _ _ _).mono (by decide)
  · split
    · exact (setChan_frame _ _ _).seq (askWithdrawal_frame _) (by decide) (by decide)
    · split
      · refine Frame.seq (l := [.line]) ?_ (setChan_frame _ _ _) (by decide) (by decide)
        intro b hb; cases b <;> first | rfl | simp at hb
      · exact (setChan_frame _ _ _).mono (by decide)

theorem holdChannel_frame (c : Fin 2) (s : State) : Frame [.line, .chans] s (holdChannel c s) :=
  ((setChan_frame _ _ s).seq (returnRecords_frame _ _) (n := [.line, .chans]) (by decide) (by decide)).trans
    (fillRecord_frame _)

theorem haltChannel_frame (c : Fin 2) (s : State) : Frame [.line, .chans] s (haltChannel c s) := by
  unfold haltChannel
  dsimp only
  refine Frame.trans (Frame.trans (Frame.trans ?_ ((setChan_frame _ _ _).mono (by decide)))
    (readyEnd_frame _ _)) (fillRecord_frame _)
  split
  · exact returnRecords_frame _ _
  · exact .refl _ _

theorem exportEvent_frame (c : Fin 2) (s : State) : Frame [.line, .chans] s (exportEvent c s) := by
  unfold exportEvent
  dsimp only
  split
  · exact ((setChan_frame _ _ s).seq (readyEnd_frame _ _) (n := [.line, .chans]) (by decide) (by decide)).trans
      (fillRecord_frame _)
  · exact .refl _ _

theorem recordSent_frame (c : Fin 2) (s : State) : Frame exportBlocks s (recordSent c s).st :=
  (setChan_frame _ _ s).seq (channelFreed_frame _ _) (by decide) (by decide)

theorem recordLost_frame (c : Fin 2) (n : Nat) (s : State) : Frame exportBlocks s (recordLost c n s).st :=
  (setChan_frame _ _ s).seq (channelFreed_frame _ _) (by decide) (by decide)

theorem recordWithdrawn_frame (c : Fin 2) (s : State) : Frame exportBlocks s (recordWithdrawn c s).st :=
  (setChan_frame _ _ s).seq (channelFreed_frame _ _) (by decide) (by decide)

theorem endGone_frame (c : Fin 2) (s : State) : Frame [.line, .chans] s (endGone c s) :=
  (setChan_frame _ _ s).seq (fillEnd_frame _) (by decide) (by decide)

theorem conflictChannel_frame (c : Fin 2) (s : State) : Frame [.chans] s (conflictChannel c s) :=
  setChan_frame _ _ _

/-! ## Buffer manager and path selector -/

theorem setQueues_frame (p : Port) (f : PortQueues → PortQueues) (s : State) :
    Frame [.buffer] s (setQueues p f s) := by
  intro b hb; cases b <;> first | rfl | simp at hb

theorem holdCells_frame (x : Copy) (s : State) : Frame [.buffer] s (holdCells x s) := by
  intro b hb; cases b <;> first | rfl | simp at hb

theorem returnCells_frame (x : Copy) (s : State) : Frame [.buffer] s (returnCells x s) := by
  intro b hb; cases b <;> first | rfl | simp at hb

theorem startTransmission_frame (p : Port) (s : State) : Frame [.buffer] s (startTransmission p s) := by
  unfold startTransmission
  split
  · exact setQueues_frame _ _ _
  · exact .refl _ _

theorem endTransmission_frame (p : Port) (s : State) : Frame [.buffer] s (endTransmission p s) := by
  unfold endTransmission
  split
  · exact .refl _ _
  · split
    · exact .refl _ _
    · exact ((setQueues_frame _ _ s).trans (returnCells_frame _ _)).trans (startTransmission_frame _ _)

theorem enqueueCopy_frame (p : Port) (c : Cls) (x : Copy) (s : State) : Frame [.buffer] s (enqueueCopy p c x s) :=
  ((setQueues_frame _ _ s).trans (holdCells_frame _ _)).trans (startTransmission_frame _ _)

theorem admitCopies_frame (d : Descriptor) (l : List Byte) (cs : List CopyPlan) (s : State) :
    Frame [.ports, .buffer] s (admitCopies d l cs s).2 := by
  induction cs generalizing s with
  | nil => exact .refl _ _
  | cons c cs ih =>
    unfold admitCopies
    dsimp only
    split
    · exact ((countDrop_frame _ _ _).mono (by decide)).trans (ih _)
    · exact ((enqueueCopy_frame _ _ _ _).mono (by decide)).trans (ih _)

theorem flushCopy_frame (p : Port) (x : Copy) (s : State) : Frame [.ports, .buffer] s (flushCopy p x s) :=
  (returnCells_frame x s).seq (countDrop_frame _ _ _) (by decide) (by decide)

theorem flushPort_frame (p : Port) (s : State) : Frame [.ports, .buffer] s (flushPort p s) :=
  (Frame.eachState (flushCopy_frame p) _ s).trans ((setQueues_frame _ _ _).mono (by decide))

theorem makePortHello_frame (x : XIndex) (s : State) : Frame [.ports, .buffer] s (makePortHello x s) := by
  unfold makePortHello
  split
  · exact .refl _ _
  · split
    · exact .refl _ _
    · split
      · exact (countDrop_frame _ _ _).mono (by decide)
      · exact (enqueueCopy_frame _ _ _ _).mono (by decide)

theorem decideBy_frame (d : Descriptor) (s : State) (f : Option FwdEntry → State → Decision) :
    Frame tableBlocks s (decideBy d s f).2.st := lookup_frame _ _ _

theorem decideFrame_frame (d : Descriptor) (s : State) : Frame tableBlocks s (decideFrame d s).2.st := by
  unfold decideFrame
  split
  · unfold decideEdge
    split
    · split
      · exact .refl _ _
      · exact decideBy_frame _ _ _
    · split
      · exact .refl _ _
      · exact decideBy_frame _ _ _
  · unfold decideCross
    split
    · exact .refl _ _
    · split
      · exact .refl _ _
      · split
        · exact .refl _ _
        · exact decideBy_frame _ _ _

/-! ## Port units and peer table -/

theorem changeSlot_frame (n : SlotNo) (f : PeerSlot → PeerSlot) (e : EventSource) (st : Station) (s : State) :
    Frame [.peers] s (changeSlot n f e st s).st := modifySlot_frame _ _ _

theorem followSlot_frame (n : SlotNo) (s : State) : Frame [.peers] s (followSlot n s).st := by
  unfold followSlot
  split
  · exact .refl _ _
  · dsimp only
    split
    · split
      · exact .refl _ _
      · exact changeSlot_frame _ _ _ _ _
    · split
      · exact changeSlot_frame _ _ _ _ _
      · exact .refl _ _
    · split
      · exact changeSlot_frame _ _ _ _ _
      · exact .refl _ _
    · exact .refl _ _

theorem recomputeRelays_frame (s : State) : Frame [.peers] s (recomputeRelays s) :=
  Frame.eachState (fun _ t => modifySlot_frame _ _ t) _ _

theorem turnIsolated_frame (x : Bool) (s : State) : Frame [.peers, .load] s (turnIsolated x s).st := by
  unfold turnIsolated
  refine Frame.andThen ?_ fun t => (isolationTurned_frame x t).mono (by decide)
  intro b hb; cases b <;> first | rfl | simp at hb

theorem judgeIsolated_frame (n : Nat) (s : State) : Frame [.peers, .load] s (judgeIsolated n s).st := by
  unfold judgeIsolated
  split
  · exact turnIsolated_frame _ _
  · split
    · exact turnIsolated_frame _ _
    · exact .refl _ _

theorem reportView_frame (o s : State) : Frame [.line] s (reportView o s) := by
  unfold reportView
  split
  · exact .refl _ _
  · exact composeLink_frame _

/-- The blocks that the consequences of a change of view may change. -/
abbrev viewBlocks : List Block := [.peers, .load, .line]

theorem settleView_frame (o s : State) : Frame viewBlocks s (settleView o s).st := by
  unfold settleView
  refine Frame.also (Frame.andThen (Frame.andThen (Frame.also ?_ fun t => ?_) fun t => ?_) fun t => ?_) fun t => ?_
  · exact (Frame.eachOut followSlot_frame _ s).mono (by decide)
  · exact (recomputeRelays_frame t).mono (by decide)
  · exact (dropLostDiversion_frame t).mono (by decide)
  · exact (judgeIsolated_frame _ t).mono (by decide)
  · exact (reportView_frame _ t).mono (by decide)

theorem withView_frame {l : List Block} {f : State → Out} {s : State} (h : Frame l s (f s).st) (k : viewBlocks ⊆ l) :
    Frame l s (withView f s).st := h.andThen fun t => (settleView_frame s t).mono k

/-- The blocks that a change of a port may change. -/
abbrev portBlocks : List Block := .ports :: .buffer :: viewBlocks

theorem portToUp_frame (p : Port) (s : State) : Frame [.ports] s (portToUp p s).st := setPort_frame _ _ _

theorem startHold_frame (p : Port) (s : State) : Frame [.ports] s (startHold p s) := setPort_frame _ _ _

theorem portToHeld_frame (p : Port) (s : State) : Frame [.ports, .buffer] s (portToHeld p s).st := by
  unfold portToHeld
  refine Frame.also ?_ (flushPort_frame p)
  exact ((startHold_frame p s).trans (setPort_frame _ _ _)).mono (by decide)

theorem takeCarrierUp_frame (p : Port) (s : State) : Frame portBlocks s (takeCarrierUp p s).st := by
  unfold takeCarrierUp
  dsimp only
  split
  · exact (setPort_frame _ _ s).seq (withView_frame (l := portBlocks) ((portToUp_frame _ _).mono (by decide))
      (by decide)) (by decide) (by decide)
  · exact (setPort_frame _ _ s).mono (by decide)

theorem takeCarrierDown_frame (p : Port) (s : State) : Frame portBlocks s (takeCarrierDown p s).st := by
  have k : Frame portBlocks s (setPort p (fun u => { u with carrier := false }) s) :=
    (setPort_frame _ _ s).mono (by decide)
  unfold takeCarrierDown
  dsimp only
  split
  · split
    · exact k.trans (withView_frame ((portToHeld_frame _ _).mono (by decide)) (by decide))
    · exact k.trans (withView_frame ((portToHeld_frame _ _).mono (by decide)) (by decide))
    · exact k.trans ((startHold_frame _ _).mono (by decide))
    · exact k
  · exact k

theorem endHold_frame (p : Port) (s : State) : Frame [.ports] s (endHold p s).st := by
  unfold endHold
  split
  · split
    · exact portToUp_frame _ _
    · exact setPort_frame _ _ _
  · exact .refl _ _

theorem expireHold_frame (p : Port) (s : State) : Frame (.time :: portBlocks) s (expireHold p s).st := by
  unfold expireHold
  split
  · exact .refl _ _
  · exact ((reachTime_frame _ s).seq (setPort_frame _ _ _) (n := .time :: portBlocks) (by decide) (by decide)).trans
      (withView_frame ((endHold_frame _ _).mono (by decide)) (by decide))

theorem expireDecay_frame (p : Port) (s : State) : Frame [.time, .ports] s (expireDecay p s) := by
  unfold expireDecay
  split
  · exact .refl _ _
  · exact (reachTime_frame _ s).seq (setPort_frame _ _ _) (by decide) (by decide)

theorem comparePort_frame (p : Port) (s : State) : Frame [.ports] s (comparePort p s).st := by
  unfold comparePort
  dsimp only
  split
  · exact setPort_frame _ _ _
  · split
    · exact setPort_frame _ _ _
    · exact .refl _ _

theorem portSecond_frame (p : Port) (s : State) : Frame portBlocks s (portSecond p s).st := by
  unfold portSecond
  refine Frame.also ?_ fun t => (setPort_frame _ _ t).mono (by decide)
  split
  · exact withView_frame ((comparePort_frame _ _).mono (by decide)) (by decide)
  · exact .refl _ _

theorem takePortHello_frame (x : XIndex) (l : List Byte) (s : State) :
    Frame portBlocks s (takePortHello x l s).st := by
  unfold takePortHello
  split
  · exact withView_frame ((setPort_frame _ _ _).mono (by decide)) (by decide)
  · exact .refl _ _

theorem expireLapse_frame (x : XIndex) (s : State) : Frame (.time :: portBlocks) s (expireLapse x s).st := by
  unfold expireLapse
  split
  · exact .refl _ _
  · exact ((reachTime_frame _ s).mono (by decide)).trans
      (withView_frame ((setPort_frame _ _ _).mono (by decide)) (by decide))

theorem nextGen_frame (s : State) : Frame [.peers] s (nextGen s) := by
  intro b hb; cases b <;> first | rfl | simp at hb

theorem helloNew_frame (st : Station) (h : HelloRx) (s : State) : Frame viewBlocks s (helloNew st h s).st := by
  unfold helloNew
  split
  · split
    · intro b hb; cases b <;> first | rfl | simp at hb
    · exact withView_frame (((nextGen_frame s).trans (setSlot_frame _ _ _)).mono (by decide)) (by decide)
  · exact .refl _ _

theorem slotToLost_frame (n : SlotNo) (x : PeerSlot) (s : State) : Frame [.peers] s (slotToLost n x s).st :=
  changeSlot_frame _ _ _ _ _

theorem slotReturns_frame (n : SlotNo) (r : Bool) (s : State) : Frame [.peers] s (slotReturns n r s).st :=
  (nextGen_frame s).trans (modifySlot_frame _ _ _)

theorem helloKnown_frame (n : SlotNo) (x : PeerSlot) (h : HelloRx) (s : State) :
    Frame viewBlocks s (helloKnown n x h s).st := by
  have lost : ∀ t, Frame viewBlocks t (withView (slotToLost n x) t).st := fun t =>
    withView_frame ((slotToLost_frame _ _ _).mono (by decide)) (by decide)
  have back : ∀ r t, Frame viewBlocks t (withView (slotReturns n r) t).st := fun r t =>
    withView_frame ((slotReturns_frame _ _ _).mono (by decide)) (by decide)
  unfold helloKnown
  split
  · exact .refl _ _
  · split
    · split
      · exact back _ _
      · exact .refl _ _
    · split
      · exact withView_frame (((modifySlot_frame _ _ _).trans (slotToLost_frame _ _ _)).mono (by decide))
          (by decide)
      · split
        · exact lost s
        · split
          · exact (lost s).andThen (back false)
          · exact (modifySlot_frame _ _ _).mono (by decide)

theorem takeHello_frame (st : Station) (h : HelloRx) (s : State) : Frame viewBlocks s (takeHello st h s).st := by
  unfold takeHello
  split
  · split
    · exact helloNew_frame _ _ _
    · split
      · exact .refl _ _
      · exact helloKnown_frame _ _ _ _
  · exact .refl _ _

theorem takeLink_frame (st : Station) (r : LinkRx) (s : State) : Frame viewBlocks s (takeLink st r s).st := by
  unfold takeLink
  split
  · split
    · exact .refl _ _
    · exact withView_frame ((modifySlot_frame _ _ _).mono (by decide)) (by decide)
  · intro b hb; cases b <;> first | rfl | simp at hb

theorem refreshHeard_frame (st : Station) (s : State) : Frame [.peers] s (refreshHeard st s) := by
  unfold refreshHeard
  split
  · exact .refl _ _
  · exact modifySlot_frame _ _ _

theorem expireSilence_frame (n : SlotNo) (s : State) : Frame (.time :: viewBlocks) s (expireSilence n s).st := by
  unfold expireSilence
  split
  · exact .refl _ _
  · split
    · exact .refl _ _
    · dsimp only
      have k := fun t f => (reachTime_frame t s).seq (modifySlot_frame n f _) (n := .time :: viewBlocks)
        (by decide) (by decide)
      split
      · exact (k _ _).trans (withView_frame ((slotToLost_frame _ _ _).mono (by decide)) (by decide))
      · exact k _ _

theorem expireJoin_frame (n : SlotNo) (s : State) : Frame (.time :: viewBlocks) s (expireJoin n s).st := by
  unfold expireJoin
  split
  · exact .refl _ _
  · split
    · exact .refl _ _
    · dsimp only
      have k := fun t f => (reachTime_frame t s).seq (modifySlot_frame n f _) (n := .time :: viewBlocks)
        (by decide) (by decide)
      split
      · exact (k _ _).trans (withView_frame ((changeSlot_frame _ _ _ _ _).mono (by decide)) (by decide))
      · exact k _ _

theorem expireLinger_frame (n : SlotNo) (s : State) : Frame (.time :: viewBlocks) s (expireLinger n s).st := by
  unfold expireLinger
  split
  · exact .refl _ _
  · split
    · exact .refl _ _
    · dsimp only
      have k := fun t f => (reachTime_frame t s).seq (modifySlot_frame n f _) (n := .time :: viewBlocks)
        (by decide) (by decide)
      split
      · exact (k _ _).trans (withView_frame ((setSlot_frame _ _ _).mono (by decide)) (by decide))
      · exact k _ _

theorem expireFreshness_frame (n : SlotNo) (s : State) : Frame [.time, .peers] s (expireFreshness n s) := by
  unfold expireFreshness
  split
  · exact .refl _ _
  · exact (reachTime_frame _ _).seq (modifySlot_frame _ _ _) (by decide) (by decide)

theorem freeSlotNow_frame (n : SlotNo) (s : State) : Frame [.peers] s (freeSlotNow n s).st := by
  unfold freeSlotNow
  split
  · exact .refl _ _
  · dsimp only
    split <;> exact setSlot_frame _ _ _

/-! ## Frames -/

theorem searchRules_frame (p : Port) (v : FrameView) (rs : List (Nat × Rule)) (s : State) :
    Frame cfgBlocks s (searchRules p v rs s).2.st := by
  induction rs generalizing s with
  | nil => exact .refl _ _
  | cons x rs ih =>
    obtain ⟨n, r⟩ := x
    unfold searchRules
    split
    · split
      · split
        · exact .refl _ _
        · exact ih _
      · exact (configFault_frame _ _).trans (ih _)
    · exact ih _

theorem readTenant_frame (t : Tenant) (s : State) : Frame cfgBlocks s (readTenant t s).2.st := by
  unfold readTenant
  split
  · exact .refl _ _
  · split
    · split
      · exact .refl _ _
      · exact configFault_frame _ _
    · exact .refl _ _

theorem dropIngress_frame (p : Port) (r : DropReason) (s : State) : Frame [.ports] s (dropIngress p r s) := by
  unfold dropIngress
  split
  · exact (countDrop_frame _ _ _).trans (setPort_frame _ _ _)
  · exact countDrop_frame _ _ _

/-- The blocks that the forwarding of a frame may change. -/
abbrev frameBlocks : List Block := .ports :: .buffer :: .meter :: tableBlocks

theorem admitFrame_frame (d : Descriptor) (l : List Byte) (cs : List CopyPlan) (s : State) :
    Frame frameBlocks s (admitFrame d l cs s).st := by
  have k : Frame frameBlocks s (admitCopies d l cs s).2 := (admitCopies_frame d l cs s).mono (by decide)
  unfold admitFrame
  dsimp only
  split
  · exact k.trans ((reportAdmitted_frame _ _ _ _).mono (by decide))
  · exact k.trans ((reportNone_frame _ _).mono (by decide))

theorem restrainFrame_frame (d : Descriptor) (r : DropReason) (s : State) :
    Frame frameBlocks s (restrainFrame d r s).st := by
  refine Frame.andThen ?_ fun t => (flagRestrained_frame d t).mono (by decide)
  exact (countDrop_frame _ _ _).seq (reportNone_frame _ _) (by decide) (by decide)

theorem deliver_frame (d : Descriptor) (l : List Byte) (x : Decision) (s : State) :
    Frame frameBlocks s (deliver d l x s).st := by
  unfold deliver
  split
  · exact (countDrop_frame _ _ _).seq (reportNone_frame _ _) (by decide) (by decide)
  · unfold offerCopies
    split
    · exact .refl _ _
    · split
      · exact restrainFrame_frame _ _ _
      · exact admitFrame_frame _ _ _ _

theorem forwardFrame_frame (d : Descriptor) (l : List Byte) (s : State) :
    Frame frameBlocks s (forwardFrame d l s).st :=
  Frame.andThen ((decideFrame_frame d s).mono (by decide)) fun t => deliver_frame _ _ _ t

theorem learnFrame_frame (d : Descriptor) (a : Addr) (s : State) : Frame tableBlocks s (learnFrame d a s).st := by
  unfold learnFrame
  split
  · split
    · exact .refl _ _
    · exact learn_frame _ _ _ _
  · exact .refl _ _

theorem edgeFrame_frame (p : Port) (l : List Byte) (s : State) : Frame frameBlocks s (edgeFrame p l s).st := by
  unfold edgeFrame
  dsimp only
  split
  · exact ((searchRules_frame p _ _ s).mono (by decide)).also fun t => (countDrop_frame _ _ t).mono (by decide)
  · refine Frame.andThen ((searchRules_frame p _ _ s).mono (by decide)) fun t => ?_
    split
    · exact ((readTenant_frame _ t).mono (by decide)).also fun u => (countDrop_frame _ _ u).mono (by decide)
    · refine Frame.andThen ((readTenant_frame _ t).mono (by decide)) fun u => ?_
      exact Frame.andThen ((learnFrame_frame _ _ u).mono (by decide)) fun v => forwardFrame_frame _ _ v

theorem crossFrame_frame (p : Port) (l : List Byte) (s : State) : Frame frameBlocks s (crossFrame p l s).st := by
  unfold crossFrame
  split
  · exact (countDrop_frame _ _ s).mono (by decide)
  · split
    · exact (countDrop_frame _ _ s).mono (by decide)
    · split
      · exact (countDrop_frame _ _ s).mono (by decide)
      · dsimp only
        split
        · exact ((readTenant_frame _ s).mono (by decide)).also fun u => (countDrop_frame _ _ u).mono (by decide)
        · exact Frame.andThen ((readTenant_frame _ s).mono (by decide)) fun u => forwardFrame_frame _ _ u

/-- The blocks that a received frame may change. -/
abbrev rxBlocks : List Block := .peers :: .load :: frameBlocks

theorem takeFrame_frame (p : Port) (l : List Byte) (s : State) : Frame rxBlocks s (takeFrame p l s).st := by
  unfold takeFrame
  split
  · exact .refl _ _
  · split
    · exact (dropIngress_frame _ _ _).mono (by decide)
    · split
      · split
        · exact (takePortHello_frame _ _ _).mono (by decide)
        · exact (crossFrame_frame _ _ _).mono (by decide)
      · exact (edgeFrame_frame _ _ _).mono (by decide)

/-! ## Event links -/

/-- The blocks that the action of an event link may change. -/
abbrev actBlocks : List Block := [.line, .meter, .chans, .loader]

theorem act_frame (a : LinkAction) (s : State) : Frame actBlocks s (act a s).st := by
  unfold act
  split
  · exact (composeLoad_frame _).mono (by decide)
  · exact (composeLink_frame _).mono (by decide)
  · exact (boundary_frame _).mono (by decide)
  · exact (exportEvent_frame _ _).mono (by decide)
  · exact (markInterval_frame _ _).mono (by decide)

/-- The blocks that the event link table may change. -/
abbrev linkBlocks : List Block := .links :: actBlocks

theorem setLink_frame (n : Nat) (f : EventLink → EventLink) (s : State) : Frame [.links] s (setLink n f s) := by
  intro b hb; cases b <;> first | rfl | simp at hb

theorem fireLink_frame (n : Nat) (l : EventLink) (s : State) : Frame linkBlocks s (fireLink n l s).st :=
  ((act_frame _ s).mono (by decide)).also fun t => (setLink_frame _ _ t).mono (by decide)

theorem hearEvent_frame (e : Event) (n : Nat) (s : State) : Frame linkBlocks s (hearEvent e n s).st := by
  unfold hearEvent
  split
  · exact .refl _ _
  · split
    · split
      · exact fireLink_frame _ _ _
      · exact (setLink_frame _ _ _).mono (by decide)
    · exact .refl _ _

theorem takeEvent_frame (e : Event) (s : State) : Frame linkBlocks s (takeEvent e s).st := by
  unfold takeEvent
  split
  · exact Frame.eachOut (hearEvent_frame e) _ _
  · exact .refl _ _

theorem settleEvents_frame (n : Nat) (es : List Event) (s : State) : Frame linkBlocks s (settleEvents n es s) := by
  induction n generalizing es s with
  | zero => exact .refl _ _
  | succ n ih =>
    exact Frame.eachState (fun e t => (takeEvent_frame e t).trans (ih _ _)) es s

/-- What the events of a command may change. -/
theorem conclude_frame (o : Out) : Frame linkBlocks o.st (conclude o) := settleEvents_frame _ _ _

theorem lowerHoldOff_frame (n : Nat) (s : State) : Frame linkBlocks s (lowerHoldOff n s).st := by
  unfold lowerHoldOff
  split
  · exact .refl _ _
  · split
    · exact .refl _ _
    · split
      · exact fireLink_frame _ _ _
      · exact (setLink_frame _ _ _).mono (by decide)

theorem lowerHoldOffs_frame (s : State) : Frame linkBlocks s (lowerHoldOffs s).st :=
  Frame.eachOut lowerHoldOff_frame _ _

/-- The frame of a command from that of its own changes. -/
theorem done_frame {l : List Block} {s t : State} {o : Out} (h : Frame l s o.st) (k : linkBlocks ⊆ l)
    (e : done o = .next t) : Frame l s t := by
  cases e
  exact h.trans ((conclude_frame o).mono k)

end Sys2Proof.Machine
end

