-- ==== Sys2Proof/Laws/State.lean ====
section
/-! SUPPORT. What each update of the state leaves in each field, and reading back what was written. -/

namespace Sys2Proof.Machine

/-! ## setPort -/

@[simp] theorem setPort_pending (p : Port) (f : PortUnit → PortUnit) (s : State) :
    (setPort p f s).pending = s.pending := rfl

@[simp] theorem setPort_buffer (p : Port) (f : PortUnit → PortUnit) (s : State) :
    (setPort p f s).buffer = s.buffer := rfl

@[simp] theorem setPort_rules (p : Port) (f : PortUnit → PortUnit) (s : State) :
    (setPort p f s).rules = s.rules := rfl

@[simp] theorem setPort_tenants (p : Port) (f : PortUnit → PortUnit) (s : State) :
    (setPort p f s).tenants = s.tenants := rfl

@[simp] theorem setPort_tariffs (p : Port) (f : PortUnit → PortUnit) (s : State) :
    (setPort p f s).tariffs = s.tariffs := rfl

@[simp] theorem setPort_fixed (p : Port) (f : PortUnit → PortUnit) (s : State) :
    (setPort p f s).fixed = s.fixed := rfl

@[simp] theorem setPort_fwd (p : Port) (f : PortUnit → PortUnit) (s : State) : (setPort p f s).fwd = s.fwd := rfl

@[simp] theorem setPort_peers (p : Port) (f : PortUnit → PortUnit) (s : State) :
    (setPort p f s).peers = s.peers := rfl

@[simp] theorem setPort_load (p : Port) (f : PortUnit → PortUnit) (s : State) : (setPort p f s).load = s.load := rfl

@[simp] theorem setPort_restraint (p : Port) (f : PortUnit → PortUnit) (s : State) :
    (setPort p f s).restraint = s.restraint := rfl

@[simp] theorem setPort_line (p : Port) (f : PortUnit → PortUnit) (s : State) : (setPort p f s).line = s.line := rfl

@[simp] theorem setPort_meter (p : Port) (f : PortUnit → PortUnit) (s : State) :
    (setPort p f s).meter = s.meter := rfl

@[simp] theorem setPort_chans (p : Port) (f : PortUnit → PortUnit) (s : State) :
    (setPort p f s).chans = s.chans := rfl

@[simp] theorem setPort_orders (p : Port) (f : PortUnit → PortUnit) (s : State) :
    (setPort p f s).orders = s.orders := rfl

@[simp] theorem setPort_links (p : Port) (f : PortUnit → PortUnit) (s : State) :
    (setPort p f s).links = s.links := rfl

@[simp] theorem setPort_params (p : Port) (f : PortUnit → PortUnit) (s : State) :
    (setPort p f s).params = s.params := rfl

@[simp] theorem setPort_time (p : Port) (f : PortUnit → PortUnit) (s : State) : (setPort p f s).time = s.time := rfl

@[simp] theorem setPort_loader (p : Port) (f : PortUnit → PortUnit) (s : State) :
    (setPort p f s).loader = s.loader := rfl

/-! ## setQueues -/

@[simp] theorem setQueues_pending (p : Port) (f : PortQueues → PortQueues) (s : State) :
    (setQueues p f s).pending = s.pending := rfl

@[simp] theorem setQueues_ports (p : Port) (f : PortQueues → PortQueues) (s : State) :
    (setQueues p f s).ports = s.ports := rfl

@[simp] theorem setQueues_rules (p : Port) (f : PortQueues → PortQueues) (s : State) :
    (setQueues p f s).rules = s.rules := rfl

@[simp] theorem setQueues_tenants (p : Port) (f : PortQueues → PortQueues) (s : State) :
    (setQueues p f s).tenants = s.tenants := rfl

@[simp] theorem setQueues_tariffs (p : Port) (f : PortQueues → PortQueues) (s : State) :
    (setQueues p f s).tariffs = s.tariffs := rfl

@[simp] theorem setQueues_fixed (p : Port) (f : PortQueues → PortQueues) (s : State) :
    (setQueues p f s).fixed = s.fixed := rfl

@[simp] theorem setQueues_fwd (p : Port) (f : PortQueues → PortQueues) (s : State) :
    (setQueues p f s).fwd = s.fwd := rfl

@[simp] theorem setQueues_peers (p : Port) (f : PortQueues → PortQueues) (s : State) :
    (setQueues p f s).peers = s.peers := rfl

@[simp] theorem setQueues_load (p : Port) (f : PortQueues → PortQueues) (s : State) :
    (setQueues p f s).load = s.load := rfl

@[simp] theorem setQueues_restraint (p : Port) (f : PortQueues → PortQueues) (s : State) :
    (setQueues p f s).restraint = s.restraint := rfl

@[simp] theorem setQueues_line (p : Port) (f : PortQueues → PortQueues) (s : State) :
    (setQueues p f s).line = s.line := rfl

@[simp] theorem setQueues_meter (p : Port) (f : PortQueues → PortQueues) (s : State) :
    (setQueues p f s).meter = s.meter := rfl

@[simp] theorem setQueues_chans (p : Port) (f : PortQueues → PortQueues) (s : State) :
    (setQueues p f s).chans = s.chans := rfl

@[simp] theorem setQueues_orders (p : Port) (f : PortQueues → PortQueues) (s : State) :
    (setQueues p f s).orders = s.orders := rfl

@[simp] theorem setQueues_links (p : Port) (f : PortQueues → PortQueues) (s : State) :
    (setQueues p f s).links = s.links := rfl

@[simp] theorem setQueues_params (p : Port) (f : PortQueues → PortQueues) (s : State) :
    (setQueues p f s).params = s.params := rfl

@[simp] theorem setQueues_time (p : Port) (f : PortQueues → PortQueues) (s : State) :
    (setQueues p f s).time = s.time := rfl

@[simp] theorem setQueues_loader (p : Port) (f : PortQueues → PortQueues) (s : State) :
    (setQueues p f s).loader = s.loader := rfl

/-! ## holdCells -/

@[simp] theorem holdCells_pending (x : Copy) (s : State) : (holdCells x s).pending = s.pending := rfl

@[simp] theorem holdCells_ports (x : Copy) (s : State) : (holdCells x s).ports = s.ports := rfl

@[simp] theorem holdCells_rules (x : Copy) (s : State) : (holdCells x s).rules = s.rules := rfl

@[simp] theorem holdCells_tenants (x : Copy) (s : State) : (holdCells x s).tenants = s.tenants := rfl

@[simp] theorem holdCells_tariffs (x : Copy) (s : State) : (holdCells x s).tariffs = s.tariffs := rfl

@[simp] theorem holdCells_fixed (x : Copy) (s : State) : (holdCells x s).fixed = s.fixed := rfl

@[simp] theorem holdCells_fwd (x : Copy) (s : State) : (holdCells x s).fwd = s.fwd := rfl

@[simp] theorem holdCells_peers (x : Copy) (s : State) : (holdCells x s).peers = s.peers := rfl

@[simp] theorem holdCells_load (x : Copy) (s : State) : (holdCells x s).load = s.load := rfl

@[simp] theorem holdCells_restraint (x : Copy) (s : State) : (holdCells x s).restraint = s.restraint := rfl

@[simp] theorem holdCells_line (x : Copy) (s : State) : (holdCells x s).line = s.line := rfl

@[simp] theorem holdCells_meter (x : Copy) (s : State) : (holdCells x s).meter = s.meter := rfl

@[simp] theorem holdCells_chans (x : Copy) (s : State) : (holdCells x s).chans = s.chans := rfl

@[simp] theorem holdCells_orders (x : Copy) (s : State) : (holdCells x s).orders = s.orders := rfl

@[simp] theorem holdCells_links (x : Copy) (s : State) : (holdCells x s).links = s.links := rfl

@[simp] theorem holdCells_params (x : Copy) (s : State) : (holdCells x s).params = s.params := rfl

@[simp] theorem holdCells_time (x : Copy) (s : State) : (holdCells x s).time = s.time := rfl

@[simp] theorem holdCells_loader (x : Copy) (s : State) : (holdCells x s).loader = s.loader := rfl

/-! ## returnCells -/

@[simp] theorem returnCells_pending (x : Copy) (s : State) : (returnCells x s).pending = s.pending := rfl

@[simp] theorem returnCells_ports (x : Copy) (s : State) : (returnCells x s).ports = s.ports := rfl

@[simp] theorem returnCells_rules (x : Copy) (s : State) : (returnCells x s).rules = s.rules := rfl

@[simp] theorem returnCells_tenants (x : Copy) (s : State) : (returnCells x s).tenants = s.tenants := rfl

@[simp] theorem returnCells_tariffs (x : Copy) (s : State) : (returnCells x s).tariffs = s.tariffs := rfl

@[simp] theorem returnCells_fixed (x : Copy) (s : State) : (returnCells x s).fixed = s.fixed := rfl

@[simp] theorem returnCells_fwd (x : Copy) (s : State) : (returnCells x s).fwd = s.fwd := rfl

@[simp] theorem returnCells_peers (x : Copy) (s : State) : (returnCells x s).peers = s.peers := rfl

@[simp] theorem returnCells_load (x : Copy) (s : State) : (returnCells x s).load = s.load := rfl

@[simp] theorem returnCells_restraint (x : Copy) (s : State) : (returnCells x s).restraint = s.restraint := rfl

@[simp] theorem returnCells_line (x : Copy) (s : State) : (returnCells x s).line = s.line := rfl

@[simp] theorem returnCells_meter (x : Copy) (s : State) : (returnCells x s).meter = s.meter := rfl

@[simp] theorem returnCells_chans (x : Copy) (s : State) : (returnCells x s).chans = s.chans := rfl

@[simp] theorem returnCells_orders (x : Copy) (s : State) : (returnCells x s).orders = s.orders := rfl

@[simp] theorem returnCells_links (x : Copy) (s : State) : (returnCells x s).links = s.links := rfl

@[simp] theorem returnCells_params (x : Copy) (s : State) : (returnCells x s).params = s.params := rfl

@[simp] theorem returnCells_time (x : Copy) (s : State) : (returnCells x s).time = s.time := rfl

@[simp] theorem returnCells_loader (x : Copy) (s : State) : (returnCells x s).loader = s.loader := rfl

/-! ## setSlot -/

@[simp] theorem setSlot_pending (n : SlotNo) (x : Option PeerSlot) (s : State) :
    (setSlot n x s).pending = s.pending := rfl

@[simp] theorem setSlot_ports (n : SlotNo) (x : Option PeerSlot) (s : State) : (setSlot n x s).ports = s.ports := rfl

@[simp] theorem setSlot_buffer (n : SlotNo) (x : Option PeerSlot) (s : State) :
    (setSlot n x s).buffer = s.buffer := rfl

@[simp] theorem setSlot_rules (n : SlotNo) (x : Option PeerSlot) (s : State) : (setSlot n x s).rules = s.rules := rfl

@[simp] theorem setSlot_tenants (n : SlotNo) (x : Option PeerSlot) (s : State) :
    (setSlot n x s).tenants = s.tenants := rfl

@[simp] theorem setSlot_tariffs (n : SlotNo) (x : Option PeerSlot) (s : State) :
    (setSlot n x s).tariffs = s.tariffs := rfl

@[simp] theorem setSlot_fixed (n : SlotNo) (x : Option PeerSlot) (s : State) : (setSlot n x s).fixed = s.fixed := rfl

@[simp] theorem setSlot_fwd (n : SlotNo) (x : Option PeerSlot) (s : State) : (setSlot n x s).fwd = s.fwd := rfl

@[simp] theorem setSlot_load (n : SlotNo) (x : Option PeerSlot) (s : State) : (setSlot n x s).load = s.load := rfl

@[simp] theorem setSlot_restraint (n : SlotNo) (x : Option PeerSlot) (s : State) :
    (setSlot n x s).restraint = s.restraint := rfl

@[simp] theorem setSlot_line (n : SlotNo) (x : Option PeerSlot) (s : State) : (setSlot n x s).line = s.line := rfl

@[simp] theorem setSlot_meter (n : SlotNo) (x : Option PeerSlot) (s : State) : (setSlot n x s).meter = s.meter := rfl

@[simp] theorem setSlot_chans (n : SlotNo) (x : Option PeerSlot) (s : State) : (setSlot n x s).chans = s.chans := rfl

@[simp] theorem setSlot_orders (n : SlotNo) (x : Option PeerSlot) (s : State) :
    (setSlot n x s).orders = s.orders := rfl

@[simp] theorem setSlot_links (n : SlotNo) (x : Option PeerSlot) (s : State) : (setSlot n x s).links = s.links := rfl

@[simp] theorem setSlot_params (n : SlotNo) (x : Option PeerSlot) (s : State) :
    (setSlot n x s).params = s.params := rfl

@[simp] theorem setSlot_time (n : SlotNo) (x : Option PeerSlot) (s : State) : (setSlot n x s).time = s.time := rfl

@[simp] theorem setSlot_loader (n : SlotNo) (x : Option PeerSlot) (s : State) :
    (setSlot n x s).loader = s.loader := rfl

/-! ## setChan -/

@[simp] theorem setChan_pending (c : Fin 2) (f : Channel → Channel) (s : State) :
    (setChan c f s).pending = s.pending := rfl

@[simp] theorem setChan_ports (c : Fin 2) (f : Channel → Channel) (s : State) : (setChan c f s).ports = s.ports := rfl

@[simp] theorem setChan_buffer (c : Fin 2) (f : Channel → Channel) (s : State) :
    (setChan c f s).buffer = s.buffer := rfl

@[simp] theorem setChan_rules (c : Fin 2) (f : Channel → Channel) (s : State) : (setChan c f s).rules = s.rules := rfl

@[simp] theorem setChan_tenants (c : Fin 2) (f : Channel → Channel) (s : State) :
    (setChan c f s).tenants = s.tenants := rfl

@[simp] theorem setChan_tariffs (c : Fin 2) (f : Channel → Channel) (s : State) :
    (setChan c f s).tariffs = s.tariffs := rfl

@[simp] theorem setChan_fixed (c : Fin 2) (f : Channel → Channel) (s : State) : (setChan c f s).fixed = s.fixed := rfl

@[simp] theorem setChan_fwd (c : Fin 2) (f : Channel → Channel) (s : State) : (setChan c f s).fwd = s.fwd := rfl

@[simp] theorem setChan_peers (c : Fin 2) (f : Channel → Channel) (s : State) : (setChan c f s).peers = s.peers := rfl

@[simp] theorem setChan_load (c : Fin 2) (f : Channel → Channel) (s : State) : (setChan c f s).load = s.load := rfl

@[simp] theorem setChan_restraint (c : Fin 2) (f : Channel → Channel) (s : State) :
    (setChan c f s).restraint = s.restraint := rfl

@[simp] theorem setChan_line (c : Fin 2) (f : Channel → Channel) (s : State) : (setChan c f s).line = s.line := rfl

@[simp] theorem setChan_meter (c : Fin 2) (f : Channel → Channel) (s : State) : (setChan c f s).meter = s.meter := rfl

@[simp] theorem setChan_orders (c : Fin 2) (f : Channel → Channel) (s : State) :
    (setChan c f s).orders = s.orders := rfl

@[simp] theorem setChan_links (c : Fin 2) (f : Channel → Channel) (s : State) : (setChan c f s).links = s.links := rfl

@[simp] theorem setChan_params (c : Fin 2) (f : Channel → Channel) (s : State) :
    (setChan c f s).params = s.params := rfl

@[simp] theorem setChan_time (c : Fin 2) (f : Channel → Channel) (s : State) : (setChan c f s).time = s.time := rfl

@[simp] theorem setChan_loader (c : Fin 2) (f : Channel → Channel) (s : State) :
    (setChan c f s).loader = s.loader := rfl

/-! ## putAcc -/

@[simp] theorem putAcc_pending (k : Nat) (a : Accumulator) (s : State) : (putAcc k a s).pending = s.pending := rfl

@[simp] theorem putAcc_ports (k : Nat) (a : Accumulator) (s : State) : (putAcc k a s).ports = s.ports := rfl

@[simp] theorem putAcc_buffer (k : Nat) (a : Accumulator) (s : State) : (putAcc k a s).buffer = s.buffer := rfl

@[simp] theorem putAcc_rules (k : Nat) (a : Accumulator) (s : State) : (putAcc k a s).rules = s.rules := rfl

@[simp] theorem putAcc_tenants (k : Nat) (a : Accumulator) (s : State) : (putAcc k a s).tenants = s.tenants := rfl

@[simp] theorem putAcc_tariffs (k : Nat) (a : Accumulator) (s : State) : (putAcc k a s).tariffs = s.tariffs := rfl

@[simp] theorem putAcc_fixed (k : Nat) (a : Accumulator) (s : State) : (putAcc k a s).fixed = s.fixed := rfl

@[simp] theorem putAcc_fwd (k : Nat) (a : Accumulator) (s : State) : (putAcc k a s).fwd = s.fwd := rfl

@[simp] theorem putAcc_peers (k : Nat) (a : Accumulator) (s : State) : (putAcc k a s).peers = s.peers := rfl

@[simp] theorem putAcc_load (k : Nat) (a : Accumulator) (s : State) : (putAcc k a s).load = s.load := rfl

@[simp] theorem putAcc_restraint (k : Nat) (a : Accumulator) (s : State) :
    (putAcc k a s).restraint = s.restraint := rfl

@[simp] theorem putAcc_line (k : Nat) (a : Accumulator) (s : State) : (putAcc k a s).line = s.line := rfl

@[simp] theorem putAcc_chans (k : Nat) (a : Accumulator) (s : State) : (putAcc k a s).chans = s.chans := rfl

@[simp] theorem putAcc_orders (k : Nat) (a : Accumulator) (s : State) : (putAcc k a s).orders = s.orders := rfl

@[simp] theorem putAcc_links (k : Nat) (a : Accumulator) (s : State) : (putAcc k a s).links = s.links := rfl

@[simp] theorem putAcc_params (k : Nat) (a : Accumulator) (s : State) : (putAcc k a s).params = s.params := rfl

@[simp] theorem putAcc_time (k : Nat) (a : Accumulator) (s : State) : (putAcc k a s).time = s.time := rfl

@[simp] theorem putAcc_loader (k : Nat) (a : Accumulator) (s : State) : (putAcc k a s).loader = s.loader := rfl

/-! ## putEntry -/

@[simp] theorem putEntry_pending (i : Nat) (e : FwdEntry) (s : State) : (putEntry i e s).pending = s.pending := rfl

@[simp] theorem putEntry_ports (i : Nat) (e : FwdEntry) (s : State) : (putEntry i e s).ports = s.ports := rfl

@[simp] theorem putEntry_buffer (i : Nat) (e : FwdEntry) (s : State) : (putEntry i e s).buffer = s.buffer := rfl

@[simp] theorem putEntry_rules (i : Nat) (e : FwdEntry) (s : State) : (putEntry i e s).rules = s.rules := rfl

@[simp] theorem putEntry_tenants (i : Nat) (e : FwdEntry) (s : State) : (putEntry i e s).tenants = s.tenants := rfl

@[simp] theorem putEntry_tariffs (i : Nat) (e : FwdEntry) (s : State) : (putEntry i e s).tariffs = s.tariffs := rfl

@[simp] theorem putEntry_fixed (i : Nat) (e : FwdEntry) (s : State) : (putEntry i e s).fixed = s.fixed := rfl

@[simp] theorem putEntry_peers (i : Nat) (e : FwdEntry) (s : State) : (putEntry i e s).peers = s.peers := rfl

@[simp] theorem putEntry_load (i : Nat) (e : FwdEntry) (s : State) : (putEntry i e s).load = s.load := rfl

@[simp] theorem putEntry_restraint (i : Nat) (e : FwdEntry) (s : State) :
    (putEntry i e s).restraint = s.restraint := rfl

@[simp] theorem putEntry_line (i : Nat) (e : FwdEntry) (s : State) : (putEntry i e s).line = s.line := rfl

@[simp] theorem putEntry_meter (i : Nat) (e : FwdEntry) (s : State) : (putEntry i e s).meter = s.meter := rfl

@[simp] theorem putEntry_chans (i : Nat) (e : FwdEntry) (s : State) : (putEntry i e s).chans = s.chans := rfl

@[simp] theorem putEntry_orders (i : Nat) (e : FwdEntry) (s : State) : (putEntry i e s).orders = s.orders := rfl

@[simp] theorem putEntry_links (i : Nat) (e : FwdEntry) (s : State) : (putEntry i e s).links = s.links := rfl

@[simp] theorem putEntry_params (i : Nat) (e : FwdEntry) (s : State) : (putEntry i e s).params = s.params := rfl

@[simp] theorem putEntry_time (i : Nat) (e : FwdEntry) (s : State) : (putEntry i e s).time = s.time := rfl

@[simp] theorem putEntry_loader (i : Nat) (e : FwdEntry) (s : State) : (putEntry i e s).loader = s.loader := rfl

/-! ## dropEntry -/

@[simp] theorem dropEntry_pending (i : Nat) (s : State) : (dropEntry i s).pending = s.pending := rfl

@[simp] theorem dropEntry_ports (i : Nat) (s : State) : (dropEntry i s).ports = s.ports := rfl

@[simp] theorem dropEntry_buffer (i : Nat) (s : State) : (dropEntry i s).buffer = s.buffer := rfl

@[simp] theorem dropEntry_rules (i : Nat) (s : State) : (dropEntry i s).rules = s.rules := rfl

@[simp] theorem dropEntry_tenants (i : Nat) (s : State) : (dropEntry i s).tenants = s.tenants := rfl

@[simp] theorem dropEntry_tariffs (i : Nat) (s : State) : (dropEntry i s).tariffs = s.tariffs := rfl

@[simp] theorem dropEntry_fixed (i : Nat) (s : State) : (dropEntry i s).fixed = s.fixed := rfl

@[simp] theorem dropEntry_peers (i : Nat) (s : State) : (dropEntry i s).peers = s.peers := rfl

@[simp] theorem dropEntry_load (i : Nat) (s : State) : (dropEntry i s).load = s.load := rfl

@[simp] theorem dropEntry_restraint (i : Nat) (s : State) : (dropEntry i s).restraint = s.restraint := rfl

@[simp] theorem dropEntry_line (i : Nat) (s : State) : (dropEntry i s).line = s.line := rfl

@[simp] theorem dropEntry_meter (i : Nat) (s : State) : (dropEntry i s).meter = s.meter := rfl

@[simp] theorem dropEntry_chans (i : Nat) (s : State) : (dropEntry i s).chans = s.chans := rfl

@[simp] theorem dropEntry_orders (i : Nat) (s : State) : (dropEntry i s).orders = s.orders := rfl

@[simp] theorem dropEntry_links (i : Nat) (s : State) : (dropEntry i s).links = s.links := rfl

@[simp] theorem dropEntry_params (i : Nat) (s : State) : (dropEntry i s).params = s.params := rfl

@[simp] theorem dropEntry_time (i : Nat) (s : State) : (dropEntry i s).time = s.time := rfl

@[simp] theorem dropEntry_loader (i : Nat) (s : State) : (dropEntry i s).loader = s.loader := rfl

/-! ## setLink -/

@[simp] theorem setLink_pending (n : Nat) (f : EventLink → EventLink) (s : State) :
    (setLink n f s).pending = s.pending := rfl

@[simp] theorem setLink_ports (n : Nat) (f : EventLink → EventLink) (s : State) :
    (setLink n f s).ports = s.ports := rfl

@[simp] theorem setLink_buffer (n : Nat) (f : EventLink → EventLink) (s : State) :
    (setLink n f s).buffer = s.buffer := rfl

@[simp] theorem setLink_rules (n : Nat) (f : EventLink → EventLink) (s : State) :
    (setLink n f s).rules = s.rules := rfl

@[simp] theorem setLink_tenants (n : Nat) (f : EventLink → EventLink) (s : State) :
    (setLink n f s).tenants = s.tenants := rfl

@[simp] theorem setLink_tariffs (n : Nat) (f : EventLink → EventLink) (s : State) :
    (setLink n f s).tariffs = s.tariffs := rfl

@[simp] theorem setLink_fixed (n : Nat) (f : EventLink → EventLink) (s : State) :
    (setLink n f s).fixed = s.fixed := rfl

@[simp] theorem setLink_fwd (n : Nat) (f : EventLink → EventLink) (s : State) : (setLink n f s).fwd = s.fwd := rfl

@[simp] theorem setLink_peers (n : Nat) (f : EventLink → EventLink) (s : State) :
    (setLink n f s).peers = s.peers := rfl

@[simp] theorem setLink_load (n : Nat) (f : EventLink → EventLink) (s : State) : (setLink n f s).load = s.load := rfl

@[simp] theorem setLink_restraint (n : Nat) (f : EventLink → EventLink) (s : State) :
    (setLink n f s).restraint = s.restraint := rfl

@[simp] theorem setLink_line (n : Nat) (f : EventLink → EventLink) (s : State) : (setLink n f s).line = s.line := rfl

@[simp] theorem setLink_meter (n : Nat) (f : EventLink → EventLink) (s : State) :
    (setLink n f s).meter = s.meter := rfl

@[simp] theorem setLink_chans (n : Nat) (f : EventLink → EventLink) (s : State) :
    (setLink n f s).chans = s.chans := rfl

@[simp] theorem setLink_orders (n : Nat) (f : EventLink → EventLink) (s : State) :
    (setLink n f s).orders = s.orders := rfl

@[simp] theorem setLink_params (n : Nat) (f : EventLink → EventLink) (s : State) :
    (setLink n f s).params = s.params := rfl

@[simp] theorem setLink_time (n : Nat) (f : EventLink → EventLink) (s : State) : (setLink n f s).time = s.time := rfl

@[simp] theorem setLink_loader (n : Nat) (f : EventLink → EventLink) (s : State) :
    (setLink n f s).loader = s.loader := rfl

/-! ## addClamps -/

@[simp] theorem addClamps_pending (n : Nat) (s : State) : (addClamps n s).pending = s.pending := rfl

@[simp] theorem addClamps_ports (n : Nat) (s : State) : (addClamps n s).ports = s.ports := rfl

@[simp] theorem addClamps_buffer (n : Nat) (s : State) : (addClamps n s).buffer = s.buffer := rfl

@[simp] theorem addClamps_rules (n : Nat) (s : State) : (addClamps n s).rules = s.rules := rfl

@[simp] theorem addClamps_tenants (n : Nat) (s : State) : (addClamps n s).tenants = s.tenants := rfl

@[simp] theorem addClamps_tariffs (n : Nat) (s : State) : (addClamps n s).tariffs = s.tariffs := rfl

@[simp] theorem addClamps_fixed (n : Nat) (s : State) : (addClamps n s).fixed = s.fixed := rfl

@[simp] theorem addClamps_fwd (n : Nat) (s : State) : (addClamps n s).fwd = s.fwd := rfl

@[simp] theorem addClamps_peers (n : Nat) (s : State) : (addClamps n s).peers = s.peers := rfl

@[simp] theorem addClamps_load (n : Nat) (s : State) : (addClamps n s).load = s.load := rfl

@[simp] theorem addClamps_restraint (n : Nat) (s : State) : (addClamps n s).restraint = s.restraint := rfl

@[simp] theorem addClamps_line (n : Nat) (s : State) : (addClamps n s).line = s.line := rfl

@[simp] theorem addClamps_meter (n : Nat) (s : State) : (addClamps n s).meter = s.meter := rfl

@[simp] theorem addClamps_chans (n : Nat) (s : State) : (addClamps n s).chans = s.chans := rfl

@[simp] theorem addClamps_orders (n : Nat) (s : State) : (addClamps n s).orders = s.orders := rfl

@[simp] theorem addClamps_links (n : Nat) (s : State) : (addClamps n s).links = s.links := rfl

@[simp] theorem addClamps_params (n : Nat) (s : State) : (addClamps n s).params = s.params := rfl

@[simp] theorem addClamps_time (n : Nat) (s : State) : (addClamps n s).time = s.time := rfl

/-! ## Reading back -/

@[simp] theorem port_setPort (p : Port) (f : PortUnit → PortUnit) (s : State) :
    (setPort p f s).port p = f (s.port p) := by
  simp [State.port, setPort]

theorem port_setPort_ne {p q : Port} (h : q ≠ p) (f : PortUnit → PortUnit) (s : State) :
    (setPort p f s).port q = s.port q := by
  have : ¬ p.val = q.val := fun k => h (Fin.ext k.symm)
  simp [State.port, setPort, this]

@[simp] theorem queues_setQueues (p : Port) (f : PortQueues → PortQueues) (s : State) :
    (setQueues p f s).buffer.ports[p] = f s.buffer.ports[p] := by
  simp [setQueues]

theorem queues_setQueues_ne {p q : Port} (h : q ≠ p) (f : PortQueues → PortQueues) (s : State) :
    (setQueues p f s).buffer.ports[q] = s.buffer.ports[q] := by
  have : ¬ p.val = q.val := fun k => h (Fin.ext k.symm)
  simp [setQueues, this]

@[simp] theorem slot_setSlot (n : SlotNo) (x : Option PeerSlot) (s : State) : (setSlot n x s).slot n = x := by
  simp [State.slot, setSlot]

theorem slot_setSlot_ne {n m : SlotNo} (h : m ≠ n) (x : Option PeerSlot) (s : State) :
    (setSlot n x s).slot m = s.slot m := by
  have : ¬ n.val = m.val := fun k => h (Fin.ext k.symm)
  simp [State.slot, setSlot, this]

@[simp] theorem chan_setChan (c : Fin 2) (f : Channel → Channel) (s : State) :
    (setChan c f s).chan c = f (s.chan c) := by
  simp [State.chan, setChan]

theorem chan_setChan_ne {c d : Fin 2} (h : d ≠ c) (f : Channel → Channel) (s : State) :
    (setChan c f s).chan d = s.chan d := by
  have : ¬ c.val = d.val := fun k => h (Fin.ext k.symm)
  simp [State.chan, setChan, this]

/-! ## The end of a command -/

/-- A command that raised nothing ends with its own changes. -/
@[simp] theorem conclude_of (s : State) : conclude (.of s) = s := rfl

@[simp] theorem conclude_nil (s : State) : conclude ⟨s, []⟩ = s := rfl

theorem done_of (s : State) : done (.of s) = .next s := rfl

@[simp] theorem Out.of_st (s : State) : (Out.of s).st = s := rfl

@[simp] theorem Out.of_evs (s : State) : (Out.of s).evs = [] := rfl

@[simp] theorem Out.also_st (o : Out) (f : State → State) : (o.also f).st = f o.st := rfl

@[simp] theorem Out.also_evs (o : Out) (f : State → State) : (o.also f).evs = o.evs := rfl

@[simp] theorem Out.andThen_st (o : Out) (f : State → Out) : (o.andThen f).st = (f o.st).st := rfl

@[simp] theorem Out.andThen_evs (o : Out) (f : State → Out) : (o.andThen f).evs = o.evs ++ (f o.st).evs := rfl

end Sys2Proof.Machine
end

