-- ==== Sys2Proof/Laws/Maps.lean ====
section
/-! SUPPORT. The sparse maps: reading back, and the canonical form that every map operation keeps. -/

namespace Sys2Proof.Machine

variable {α : Type}

@[simp] theorem mapFind_mapInsert (m : List (Nat × α)) (n : Nat) (x : α) : mapFind (mapInsert m n x) n = some x := by
  induction m with
  | nil => simp [mapInsert, mapFind]
  | cons y m ih =>
    simp only [mapInsert]
    split
    · simp [mapFind]
    · split
      · simp [mapFind]
      · simp only [mapFind]; rw [if_neg (by omega)]; exact ih

theorem mapFind_mapInsert_ne (m : List (Nat × α)) {n k : Nat} (h : k ≠ n) (x : α) :
    mapFind (mapInsert m n x) k = mapFind m k := by
  induction m with
  | nil => simp [mapInsert, mapFind, h.symm]
  | cons y m ih =>
    simp only [mapInsert]
    split
    · simp [mapFind, h.symm]
    · split
      · next e => simp [mapFind, ← e, h.symm]
      · simp only [mapFind, ih]

theorem mapFind_mapErase_ne (m : List (Nat × α)) {n k : Nat} (h : k ≠ n) :
    mapFind (mapErase m n) k = mapFind m k := by
  induction m with
  | nil => rfl
  | cons y m ih =>
    simp only [mapErase]
    split
    · next e => simp [mapFind, e, h.symm]
    · simp only [mapFind, ih]

/-- Every key of a map in canonical form lies above the one in front. -/
theorem mapWf_cons {k : Nat} {v : α} {m : List (Nat × α)} :
    mapWf ((k, v) :: m) = true ↔ (∀ x ∈ m, k < x.1) ∧ mapWf m = true := by
  induction m generalizing k v with
  | nil => simp [mapWf]
  | cons y m ih =>
    simp only [mapWf, Bool.and_eq_true, decide_eq_true_eq, List.mem_cons, forall_eq_or_imp]
    constructor
    · rintro ⟨h, w⟩
      exact ⟨⟨h, fun x hx => lt_trans h ((ih.1 w).1 x hx)⟩, w⟩
    · rintro ⟨⟨h, -⟩, w⟩; exact ⟨h, w⟩

theorem mem_mapInsert {m : List (Nat × α)} {n : Nat} {x : α} {y : Nat × α} (h : y ∈ mapInsert m n x) :
    y = (n, x) ∨ y ∈ m := by
  induction m with
  | nil => simpa [mapInsert] using h
  | cons z m ih =>
    simp only [mapInsert] at h
    split at h
    · simpa using h
    · split at h
      · rcases List.mem_cons.1 h with h | h
        · exact .inl h
        · exact .inr (by simp [h])
      · rcases List.mem_cons.1 h with h | h
        · exact .inr (by simp [h])
        · exact (ih h).imp id fun k => by simp [k]

theorem mem_mapErase {m : List (Nat × α)} {n : Nat} {y : Nat × α} (h : y ∈ mapErase m n) : y ∈ m := by
  induction m with
  | nil => simp [mapErase] at h
  | cons z m ih =>
    simp only [mapErase] at h
    split at h
    · simp [h]
    · rcases List.mem_cons.1 h with h | h
      · simp [h]
      · simp [ih h]

theorem mapInsert_wf {m : List (Nat × α)} (h : mapWf m = true) (n : Nat) (x : α) : mapWf (mapInsert m n x) = true := by
  induction m with
  | nil => rfl
  | cons z m ih =>
    obtain ⟨k, v⟩ := z
    obtain ⟨hk, hm⟩ := mapWf_cons.1 h
    simp only [mapInsert]
    split
    · exact mapWf_cons.2 ⟨by rintro y (_ | ⟨_, hy⟩); · assumption
                             · exact lt_trans ‹_› (hk y hy), h⟩
    · split
      · next e => subst e; exact mapWf_cons.2 ⟨hk, hm⟩
      · refine mapWf_cons.2 ⟨fun y hy => ?_, ih hm⟩
        rcases mem_mapInsert hy with rfl | hy
        · simp only; omega
        · exact hk y hy

theorem mapErase_wf {m : List (Nat × α)} (h : mapWf m = true) (n : Nat) : mapWf (mapErase m n) = true := by
  induction m with
  | nil => rfl
  | cons z m ih =>
    obtain ⟨k, v⟩ := z
    obtain ⟨hk, hm⟩ := mapWf_cons.1 h
    simp only [mapErase]
    split
    · exact hm
    · exact mapWf_cons.2 ⟨fun y hy => hk y (mem_mapErase hy), ih hm⟩

/-- An erased key is absent. -/
theorem mapFind_mapErase {m : List (Nat × α)} (h : mapWf m = true) (n : Nat) : mapFind (mapErase m n) n = none := by
  induction m with
  | nil => rfl
  | cons z m ih =>
    obtain ⟨k, v⟩ := z
    obtain ⟨hk, hm⟩ := mapWf_cons.1 h
    simp only [mapErase]
    split
    · next e =>
      subst e
      have none_of (l : List (Nat × α)) (hl : ∀ x ∈ l, k < x.1) : mapFind l k = none := by
        induction l with
        | nil => rfl
        | cons y l ihl =>
          have := hl y (by simp)
          simp only [mapFind]
          rw [if_neg (by omega)]
          exact ihl fun x hx => hl x (by simp [hx])
      exact none_of m hk
    · next e => simp only [mapFind, if_neg e, ih hm]

theorem mapSet_wf [DecidableEq α] {d : α} {m : List (Nat × α)} (h : mapWf m = true) (n : Nat) (x : α) :
    mapWf (mapSet d m n x) = true := by
  unfold mapSet; split
  · exact mapErase_wf h n
  · exact mapInsert_wf h n x

/-- Reading a key of a map with a default after setting it. -/
theorem mapGet_mapSet [DecidableEq α] {d : α} {m : List (Nat × α)} (h : mapWf m = true) (n : Nat) (x : α) :
    mapGet d (mapSet d m n x) n = x := by
  unfold mapGet mapSet; split
  · next e => simp [mapFind_mapErase h, e]
  · simp

theorem mapGet_mapSet_ne [DecidableEq α] {d : α} (m : List (Nat × α)) {n k : Nat} (h : k ≠ n) (x : α) :
    mapGet d (mapSet d m n x) k = mapGet d m k := by
  unfold mapGet mapSet; split
  · rw [mapFind_mapErase_ne m h]
  · rw [mapFind_mapInsert_ne m h]

theorem mapModify_wf {m : List (Nat × α)} (h : mapWf m = true) (n : Nat) (f : α → α) :
    mapWf (mapModify m n f) = true := by
  unfold mapModify; split
  · exact mapInsert_wf h _ _
  · exact h

end Sys2Proof.Machine
end

