-- ==== Sys2Proof/Laws/Ops.lean ====
section
/-! SUPPORT. What the shared operations give, each said once. -/

namespace Sys2Proof.Machine

/-! ## Counters and time -/

/-- A counter that stops at its largest value holds the smaller of the sum and that value (R156). -/
theorem satAdd_toNat {w : Nat} (c : BitVec w) (n : Nat) : (satAdd c n).1.toNat = min (c.toNat + n) (2 ^ w - 1) := by
  have := c.isLt
  unfold satAdd; split
  · rw [BitVec.toNat_allOnes]; omega
  · have e : (c + BitVec.ofNat w n).toNat = c.toNat + n := by
      rw [BitVec.toNat_add, BitVec.toNat_ofNat, Nat.add_mod_mod, Nat.mod_eq_of_lt (by omega)]
    simp only [e]; omega

/-- The flag says that the increase would have carried the counter above its largest value. -/
theorem satAdd_flag {w : Nat} (c : BitVec w) (n : Nat) : (satAdd c n).2 = decide (2 ^ w ≤ c.toNat + n) := by
  unfold satAdd; split <;> simp_all

/-- A saturating count of one (R3). -/
theorem satInc_toNat (c : Count) : (satInc c).toNat = min (c.toNat + 1) (2 ^ 32 - 1) := by
  have := c.isLt
  unfold satInc; split
  · next h => subst h; decide
  · next h =>
    have : c.toNat ≠ 2 ^ 32 - 1 := fun k => h (BitVec.eq_of_toNat_eq (by simpa using k))
    rw [BitVec.toNat_add]; simp; omega

/-- The station time reaches a moment and never goes back (log entry 2). -/
theorem reachTime_eq (t : Time) (s : State) :
    reachTime t s = { s with time := { s.time with now := if reached s.time.now t then s.time.now else t } } := by
  unfold reachTime; split <;> simp_all

/-! ## Stored entry checks (R188) -/

theorem beNat_lt (l : List Byte) : beNat l < 256 ^ l.length := by
  induction l with
  | nil => decide
  | cons b bs ih =>
    have h := Nat.mul_le_mul_right (256 ^ bs.length) (Nat.le_sub_one_of_lt b.isLt)
    simp only [beNat, List.length_cons, Nat.pow_succ]
    omega

/-- A number of `n` octets. -/
theorem fieldNat_lt (l : List Byte) (i n : Nat) : fieldNat l i n < 256 ^ n :=
  (beNat_lt _).trans_le (Nat.pow_le_pow_right (by decide) (by simp [slice]))

@[simp] theorem EntryCheck.good_empty : ({} : EntryCheck).good = true := by decide

/-- The check stored with an entry is good exactly when the entry came with the check of its other octets. -/
theorem storedCheck_good (n : Nat) (e : List Byte) :
    (storedCheck n e).good = true ↔ fieldNat e n 2 = crc16 (e.take n) := by
  have : fieldNat e n 2 % 2 ^ 16 = fieldNat e n 2 := Nat.mod_eq_of_lt (fieldNat_lt e n 2)
  simp only [EntryCheck.good, storedCheck, beq_iff_eq, BitVec.toNat_ofNat, this]
  exact eq_comm

/-! ## Reads that pass their check -/

/-- A read of an accumulator that passes its check changes nothing. -/
theorem testAcc_good {k : Nat} {s : State} (h : (s.acc k).checkGood = true) : testAcc k s = .of s := by
  simp [testAcc, h]

theorem eachOut_testAcc_good {ks : List Nat} {s : State} (h : ∀ k ∈ ks, (s.acc k).checkGood = true) :
    eachOut testAcc ks s = .of s := by
  induction ks with
  | nil => rfl
  | cons k ks ih =>
    simp only [eachOut, testAcc_good (h k (by simp))]
    simp [Out.andThen, Out.of, ih fun j hj => h j (by simp [hj])]

/-- A read of a usable tariff gives it and changes nothing (R154). -/
theorem readTariff_good {n : Nat} {s : State} (h : (s.tariff n).integ = .good) (k : (s.tariff n).checkGood = true) :
    readTariff n s = (some (s.tariff n), .of s) := by
  simp [readTariff, h, k]

/-! ## Admission (R64) -/

/-- A copy is admitted exactly at a port that is ready, with room in its queue and in the pool. -/
theorem admission_eq_none {s : State} {p : Port} {c : Cls} {n : Nat} :
    s.admission p c n = none ↔
      s.portReady p = true ∧ (s.buffer.ports[p]).classes[c].occ + n ≤ s.params.classLimit ∧ n ≤ s.buffer.free := by
  unfold State.admission
  by_cases h : s.portReady p = true <;> simp [h]
  split
  · next k => simp; omega
  · next k => split <;> simp_all

/-! ## Notices -/

theorem composeLink_of_mayNotify {s : State} (h : s.mayNotify = true) :
    composeLink s = { s with line := { s.line with
      wLink := some { dst := 15, body := .link s.params.serial s.reachMap s.uCount s.bondUp s.peers.isolated } } } := by
  simp [composeLink, h]

theorem composeLink_of_not {s : State} (h : s.mayNotify = false) : composeLink s = s := by simp [composeLink, h]

theorem composeLoad_of_not {s : State} (h : s.mayNotify = false) : composeLoad s = s := by simp [composeLoad, h]

theorem composeHello_of_started {s : State} (h : s.lineStarted = true) :
    composeHello s = { s with line := { s.line with
      wHello := some { dst := 15, body := .hello s.params.serial s.loader.phase s.peers.isolated s.line.conflict } } } := by
  simp [composeHello, h]

/-! ## The meter at a boundary (R160 to R162) -/

theorem boundary_of_deferred {s : State} (h : s.acting = true) (k : s.closes = false) :
    boundary s = ⟨{ s with meter := { s.meter with span := s.meter.span + 1 } }, [⟨.closeDeferred, none⟩]⟩ := by
  simp [boundary, h, k, deferClose, raise]

theorem boundary_of_closed {s : State} (h : s.acting = true) (k : s.closes = true)
    (g : ∀ j ∈ s.meter.accs.map Prod.fst, (s.acc j).checkGood = true) : boundary s = closeLive s := by
  simp [boundary, h, k, closeInterval, eachOut_testAcc_good g, Out.andThen, Out.of]

theorem boundary_of_not_acting {s : State} (h : s.acting = false) : boundary s = .of s := by simp [boundary, h]

/-! ## Event links (R186) -/

/-- Outside JOINING and RUNNING the table takes no event. -/
theorem takeEvent_of_not_acting {s : State} (h : s.acting = false) (e : Event) : takeEvent e s = .of s := by
  simp [takeEvent, h]

theorem hearEvent_of_absent {s : State} {n : Nat} (h : mapFind s.links n = none) (e : Event) :
    hearEvent e n s = .of s := by simp [hearEvent, h]

end Sys2Proof.Machine
end

