-- ==== Sys2Proof/Tests/Slice0.lean ====
section
/-! SUPPORT. Tests: the values that the manual works out, the bounds of the commands, and for each statement with
hypotheses a state and operands that meet them, clause by clause. -/

set_option Elab.async false

namespace Sys2Proof.Tests

open Sys2Proof.Machine

/-! ## Small states and frames -/

/-- The state that a command leaves. -/
def after (c : Instr) (s : State) : State :=
  match exec c s with
  | .next t => t
  | .fault r => nomatch r
  | .refused _ => s

/-- The classifier rule of these tests: everything belongs to tenant 7. -/
def rule7 : Rule := { ports := none, vlan := .any, prio := none, etype := none, tenant := 7, bcls := 1, tcls := 2 }

/-- Tenant 7: every S-port, quota 100. -/
def tenant7 : TenantEntry :=
  { account := none, members := BitVec.allOnes 24, quota := 100, tariffs := Vector.replicate 4 0, exempt := false }

/-- A stored entry check that its octets do not have. -/
def spoilt : EntryCheck := { check := 0 }

/-- Station 1 in RUNNING, every port UP. -/
def up : State :=
  { State.reset with
    ports := Vector.replicate 33 { link := .up, carrier := true }
    rules := [(0, rule7)], tenants := [(0, tenantZero), (7, tenant7)]
    loader := { phase := .running, station := 1 } }

/-- The same with every port DOWN. -/
def dark : State := { up with ports := Vector.replicate 33 {} }

/-- The same with every port DEGRADED. -/
def worn : State := { up with ports := Vector.replicate 33 { link := .degraded, carrier := true } }

/-- The same in CONFLICT. -/
def clashed : State := { up with line := { conflict := true } }

/-- Station 2 as an ACTIVE peer. -/
def peer2 : PeerSlot :=
  { station := 2, serial := 9, state := .active, gen := 1, seenRunning := true, lastHeard := 0, silenceExpiry := some 50
    joinExpiry := none, uplink := some (100, 0), freshExpiry := some 40000 }

/-- Station 1 with station 2 in slot 0 and behind X0. -/
def paired : State :=
  setSlot 0 (some peer2) (setPort (xPort 0) (fun u => { u with far := some 2, lapseExpiry := some 7 }) up)

/-- A frame from address 1 to address 2 with its FCS (from outside the model). -/
def frame12 : List Byte := [0, 0, 0, 0, 0, 2, 0, 0, 0, 0, 0, 1, 8, 0] ++ List.replicate 46 0 ++ [0x9A, 0xA0, 0xB3, 0xF9]

/-- A frame to address 2 from a group address. -/
def frameG : List Byte := [0, 0, 0, 0, 0, 2, 1, 0, 0, 0, 0, 1, 8, 0] ++ List.replicate 46 0 ++ [0x2C, 0x09, 0x16, 0xF8]

/-- A frame with a group tag: its octets 14 to 19, and its FCS. -/
def taggedFrame (tag fcs : List Byte) : List Byte :=
  [0, 0, 0, 0, 0, 2, 0, 0, 0, 0, 0, 1, 0xD4, 0xA1] ++ tag ++ [8, 0] ++ List.replicate 46 0 ++ fcs

/-- A port hello of station `n`. -/
def helloFrame (n : Byte) (fcs : List Byte) : List Byte :=
  [3, 0x4E, 0x5A, 0, 0x12, 1, 0, 0, 0, 0, 0, 1, 0, 0, n] ++ List.replicate 53 0 ++ fcs

/-- The entry of tenant 7 and address 2, in bucket 2,248. -/
def entry2 (p : Option (Fin 24)) (hs : List Holder) : FwdEntry :=
  { tenant := 7, addr := 2, origin := .learned, localPort := p, age := 3, announced := true, holders := hs }

/-- A state with a forwarding table. -/
def withTable (t : List (Nat × FwdEntry)) (s : State) : State := { s with fwd := { s.fwd with table := t } }

/-! ## The manual's worked values -/

/-- "123456789" in octets. -/
def digits : List Byte := [0x31, 0x32, 0x33, 0x34, 0x35, 0x36, 0x37, 0x38, 0x39]

/-- R14: the check 0x29B1 and bucket 433. -/
theorem test_check16 : crc16 digits = 0x29B1 ∧ crc16 digits % 1024 = 433 := by decide

/-- R2: the check value of the frame check sequence. -/
theorem test_frameCheck : frameCheck digits = 0xCBF43926 := by decide +kernel

/-- R189: the check value of the image check. -/
theorem test_imageCheck : imageCheck digits = 0xFC891918 := by decide +kernel

/-- Table 7-3: the hold times for hold base 1 and 8. -/
theorem test_holdSeconds :
    [1, 2, 3, 4, 5, 6].map (holdSeconds 1) = [1, 2, 4, 8, 16, 32]
      ∧ [1, 2, 3, 4, 5, 6].map (holdSeconds 8) = [8, 16, 32, 64, 64, 64] := by decide

/-- R155: the largest n gives 655,350 units and the residue 1,023. -/
theorem test_rating_largest :
    rateSum 65535 65535 9216 1023 = 671079423
      ∧ (Accumulator.rate 65535 65535 9216 { residue := 1023 }).charge = 655350
      ∧ (Accumulator.rate 65535 65535 9216 { residue := 1023 }).residue = 1023 := by decide

/-- R24: an operation for a queued key takes its place. -/
theorem test_reach_replaced :
    (enqueueReach .leave 7 2 { up with fwd := { queue := [⟨7, 2, .join⟩, ⟨7, 3, .join⟩] } }).fwd.queue
      = [⟨7, 2, .leave⟩, ⟨7, 3, .join⟩] := by decide +kernel

/-- R110, R111: carrier down at an UP port: HELD with penalty 1 for 1 s. -/
theorem test_carrierDown :
    ((after (.carrierDown 3) up).port 3).link = .held ∧ ((after (.carrierDown 3) up).port 3).penalty = 1
      ∧ ((after (.carrierDown 3) up).port 3).holdExpiry = some 1000000 := by decide +kernel

/-- R45, R152: a server's frame to an unknown address leaves on one U-port and is metered outbound. -/
theorem test_frame_to_uplink :
    (after (.frameReceived 0 frame12) up).buffer.free = 12287
      ∧ ((after (.frameReceived 0 frame12) up).acc (7 * 4 + 1)).outO = 64 := by decide +kernel

/-- R19: and its source is learned at its port, its JOIN taken by a REACH. -/
theorem test_frame_learned :
    ((after (.frameReceived 0 frame12) up).entryAt 7 1).map (fun e => (e.localPort, e.age, e.announced))
      = some (some 0, 0, true) := by decide +kernel

/-- R182 and R135: the completed answer to a RESTART restarts the station. -/
theorem test_restart :
    (after .messageCompleted { up with
        orders := { restartPending := true }
        line := { onLine := some { dst := 2, body := .answer 8 5 none .none } } }).loader.restartCount = 1 := by
  decide +kernel

/-- The table gives no row bits, so a word spells no command and places none. -/
theorem test_decode_none : decodeTableWord 8 0x2A = none ∧ State.reset.withFetchWord 8 0x2A = State.reset := by
  decide +kernel

/-! ## WellFormed -/

theorem test_wf_frame : (Instr.frameReceived 0 []).wf = false ∧ (Instr.frameReceived 0 [1]).wf = true := by decide

theorem test_wf_rx :
    (Instr.messageDiscardedRx [] false false).wf = false ∧ (Instr.messageDiscardedRx [1] false false).wf = true := by
  decide

theorem test_wf_message_source :
    (Instr.helloReceived 15 0 []).wf = false ∧ (Instr.linkReceived 15 0 []).wf = false
      ∧ (Instr.loadReceived 15 0 []).wf = false ∧ (Instr.reachReceived 15 0 []).wf = false
      ∧ (Instr.helloReceived 14 0 []).wf = true := by decide

theorem test_wf_message_length :
    (Instr.helloReceived 2 0 (List.replicate 121 0)).wf = false
      ∧ (Instr.helloReceived 2 0 (List.replicate 120 0)).wf = true := by decide +kernel

theorem test_wf_order :
    (Instr.restart 15 0 0 []).wf = false ∧ (Instr.status 2 0 0 (List.replicate 118 0)).wf = false
      ∧ (Instr.status 2 0 0 (List.replicate 117 0)).wf = true := by decide +kernel

theorem test_wf_unknownOrder :
    (Instr.unknownOrder 2 0 [1, 0, 0]).wf = false ∧ (Instr.unknownOrder 15 0 [9, 0, 0]).wf = false
      ∧ (Instr.unknownOrder 2 0 [9, 0, 0]).wf = true ∧ (Instr.unknownOrder 2 0 [1]).wf = true := by decide

theorem test_wf_refetch :
    (Instr.refetchReadComplete (List.replicate 19 0)).wf = false
      ∧ (Instr.refetchReadComplete (List.replicate 18 0)).wf = true := by decide

theorem test_wf_notHandedOn :
    (Instr.messageNotHandedOn 5 2 0).wf = false ∧ (Instr.messageNotHandedOn 4 15 0).wf = false
      ∧ (Instr.messageNotHandedOn 4 2 0).wf = true := by decide

/-! ## Witnesses: the queue and frames -/

theorem witness_StepTakesTheFrontCommand :
    ({ up with pending := [.sample, .loadDue] } : State).pending = .sample :: [.loadDue] := rfl

theorem witness_EmptyQueueRunsTheTimeBase : up.pending = [] := rfl

/-- Not in service, not usable, an X-port in CONFLICT; the last U-port and the first X-port. -/
theorem witness_IngressChecksDropFrames_unready :
    ¬ State.reset.takesFrames 0 ∧ ¬ dark.takesFrames 27 ∧ ¬ clashed.takesFrames 28
      ∧ (27 : Port).val < 28 ∧ 28 ≤ (28 : Port).val := by
  unfold State.takesFrames; decide +kernel

/-- Lengths 63, 9,217 and 64, each at a port that takes frames. -/
theorem witness_IngressChecksDropFrames :
    up.takesFrames 0 ∧ worn.takesFrames 0
      ∧ frameLength 0 (List.replicate 63 0) = 63 ∧ frameLength 28 (List.replicate 71 0) = 63
      ∧ frameLength 0 (List.replicate 9217 0) = 9217
      ∧ (let l : List Byte := List.replicate 64 0
         64 ≤ frameLength 0 l ∧ frameLength 0 l ≤ 9216
          ∧ beNat (l.drop (l.length - 4)).reverse ≠ frameCheck (l.take (l.length - 4))) := by
  unfold State.takesFrames
  refine ⟨by decide +kernel, by decide +kernel, by decide +kernel, by decide +kernel,
    by rw [frameLength, if_neg (by decide), List.length_replicate],
    by decide +kernel⟩

/-- The frame of 64 octets passes the ingress checks. -/
theorem frame12_passes : passesChecks 0 frame12 ∧ passesChecks 24 frame12 := by
  unfold passesChecks; decide +kernel

theorem frameG_passes : passesChecks 0 frameG := by unfold passesChecks; decide +kernel

/-- The frame is classified by rule 7 at an S-port or U-port of a state with its tables. -/
theorem classified {s : State} {p : Port} {l : List Byte} (ht : s.takesFrames p) (hp : passesChecks p l)
    (h28 : p.val < 28) (hr : s.rules = [(0, rule7)]) (hte : s.tenants = [(0, tenantZero), (7, tenant7)]) :
    s.classifies p l rule7 tenant7 := by
  refine ⟨ht, hp, h28, ⟨[], 0, [], by simp [hr], by simp⟩, rfl, rfl, ?_, by simp [hte, mapFind, rule7], rfl, rfl⟩
  simp [Rule.accepts, rule7, VlanMatch.accepts]

/-- No rule, an unusable one, one that does not match; an absent tenant, an unusable one. On an X-port: LOOPED, no marker, bucket
1,024, this station's origin. -/
theorem witness_ReadingFailuresDropFrames :
    (up.takesFrames 0 ∧ passesChecks 0 frame12
      ∧ (∀ x ∈ [(0, { rule7 with etype := some 5 }), (1, { rule7 with integ := .failed })],
          x.2.integ ≠ .good ∨ (x.2.checkGood = true ∧ x.2.accepts 0 (frameView frame12) = false))
      ∧ up.rules = [] ++ (0, rule7) :: [] ∧ rule7.accepts 0 (frameView frame12) = true
      ∧ mapFind ({ up with tenants := [] } : State).tenants rule7.tenant.toNat = none
      ∧ mapFind ({ up with tenants := [(7, { tenant7 with integ := .waiting })] } : State).tenants rule7.tenant.toNat
          = some { tenant7 with integ := .waiting })
    ∧ (let f1024 := taggedFrame [0x10, 0x20, 7, 0x40, 4, 0] [0x3C, 0x67, 0xB4, 0x66]
       let fOwn := taggedFrame [0x10, 0x10, 7, 0x40, 0, 0] [0x46, 0x2B, 0x43, 0x40]
       let fZero : List Byte := List.replicate 68 0 ++ [0xAD, 0x6E, 0xD7, 0x10]
       up.takesFrames 28 ∧ passesChecks 28 f1024 ∧ passesChecks 28 fOwn ∧ passesChecks 28 fZero
        ∧ frameDst fZero ≠ Config.helloAddr ∧ frameDst f1024 ≠ Config.helloAddr ∧ frameDst fOwn ≠ Config.helloAddr
        ∧ ((setPort 28 (fun u => { u with looped := true }) up).port 28).looped = true
        ∧ (up.port 28).looped = false ∧ fieldNat fZero 12 2 ≠ Config.tagMarker
        ∧ (fieldNat f1024 12 2 = Config.tagMarker ∧ (readTag f1024).bucket = 1024)
        ∧ fieldNat fOwn 12 2 = Config.tagMarker ∧ tagInvalid up.loader.station fOwn = false
        ∧ (readTag fOwn).origin = up.loader.station) := by
  refine ⟨?_, ?_⟩
  · unfold State.takesFrames passesChecks; decide +kernel
  · unfold State.takesFrames passesChecks; decide +kernel

/-- A plain frame from station 2 in bucket 4 (its check from outside the model). -/
def frameP : List Byte := taggedFrame [0x10, 0x20, 7, 0x40, 0, 4] [0xB4, 0xBC, 0x10, 0x4B]

/-- A rule and a tenant entry that fail their check at the read, with 8 and with no items in the refetch queue; the tenant of a
frame from an X-port absent, unusable and failing its check. -/
theorem witness_ReadingFailuresDropFrames_faulty :
    let s := { up with rules := [(3, { rule7 with entry := spoilt })] }
    let full := { s with loader := { s.loader with refetch := (List.range 8).map fun i => ⟨.tariff, i⟩ } }
    let t := { up with tenants := [(7, { tenant7 with entry := spoilt })] }
    (s.takesFrames 0 ∧ passesChecks 0 frame12 ∧ s.rules = [] ++ (3, { rule7 with entry := spoilt }) :: []
      ∧ mapWf s.rules = true ∧ s.faultInteg = .queued ∧ full.faultInteg = .waiting)
    ∧ (t.takesFrames 0 ∧ mapFind t.tenants rule7.tenant.toNat = some { tenant7 with entry := spoilt })
    ∧ (t.takesFrames 28 ∧ passesChecks 28 frameP ∧ frameDst frameP ≠ Config.helloAddr ∧ (t.port 28).looped = false
      ∧ fieldNat frameP 12 2 = Config.tagMarker ∧ tagInvalid t.loader.station frameP = false
      ∧ (readTag frameP).origin ≠ t.loader.station
      ∧ mapFind t.tenants (readTag frameP).tenant.toNat = some { tenant7 with entry := spoilt }
      ∧ mapFind ({ up with tenants := [] } : State).tenants (readTag frameP).tenant.toNat = none) := by
  refine ⟨?_, ?_, ?_⟩ <;> (unfold State.takesFrames; try unfold passesChecks) <;> decide +kernel

/-- An entry for tenant 7 and address 2 at S-port 5 while the refetch of the key's FIXED entry stands at `i`. -/
def underRefetch (i : Integrity) : State :=
  { withTable [(8992, entry2 (some 5) [])] paired with
    fixed := [(0, { tenant := 7, addr := 2, localPort := some 5, integ := i })] }

/-- R23: a lookup for the key misses while the refetch is queued or waiting and after it has failed, entry or not, and hits
again once the FIXED entry is good. -/
theorem test_lookup_misses_under_refetch :
    (lookup 7 2 (underRefetch .queued)).1 = none ∧ (lookup 7 2 (underRefetch .waiting)).1 = none
      ∧ (lookup 7 2 (underRefetch .failed)).1 = none
      ∧ (lookup 7 2 (underRefetch .good)).1 = some (entry2 (some 5) []) := by decide +kernel

/-- The FIXED entry of tenant 7 and address 2 under refetch. -/
theorem witness_refetching (i : Integrity) (h : i ≠ .good) : (underRefetch i).refetching 7 2 :=
  ⟨_, .head _, rfl, rfl, h⟩

/-- Tenant 7 and address 2 at S-port 5; the tenant's accumulator and tariff are good. -/
theorem witness_SpineFrameReachesTheServerPort :
    let s := withTable [(8992, entry2 (some 5) [])] up
    s.classifies 24 frame12 rule7 tenant7 ∧ groupAddr (frameDst frame12) = false
      ∧ bucketFaulty (bucketOf rule7.tenant (frameDst frame12)) s = false ∧ ¬ s.refetching rule7.tenant (frameDst frame12)
      ∧ s.entryAt rule7.tenant (frameDst frame12) = some (entry2 (some 5) [])
      ∧ (s.port (sPort 5)).link = .up ∧ s.hasRoom (sPort 5) rule7.tcls 1 ∧ s.ratesGood rule7 tenant7
      ∧ rule7.tenant ≠ 0 := by
  refine ⟨classified ?_ frame12_passes.2 (by decide) rfl rfl, ?_⟩
  · unfold State.takesFrames; decide +kernel
  · unfold State.hasRoom State.ratesGood State.refetching; decide +kernel

/-- Flow bucket 710 with the share at 710; all four U-ports UP, and all four DEGRADED; U-port 710 mod 4. -/
theorem witness_ServerFrameTakesItsUplink :
    let s := { up with load := { share := 710 } }
    let d := { worn with load := { share := 710 } }
    let w := { underRefetch .waiting with load := { share := 710 } }
    (w.classifies (sPort 0) frame12 rule7 tenant7 ∧ w.refetching rule7.tenant (frameDst frame12) ∧ w.tableGood
        ∧ w.entryAt rule7.tenant (frameDst frame12) = some (entry2 (some 5) [])
        ∧ w.restraintOutcome rule7.tenant = none
        ∧ w.load.share = flowBucket w.params.deepHash rule7.tenant frame12
        ∧ allU = allU.filter (fun v => (w.port (uPort v)).link == .up)
        ∧ w.hasRoom (uPort 2) rule7.tcls 1 ∧ w.ratesGood rule7 tenant7)
      ∧ s.classifies (sPort 0) frame12 rule7 tenant7 ∧ d.classifies (sPort 0) frame12 rule7 tenant7
      ∧ groupAddr (frameDst frame12) = false ∧ s.tableGood
      ∧ s.entryAt rule7.tenant (frameDst frame12) = none ∧ frameSrc frame12 ≠ frameDst frame12
      ∧ s.restraintOutcome rule7.tenant = none
      ∧ s.load.share = flowBucket s.params.deepHash rule7.tenant frame12
      ∧ allU = allU.filter (fun v => (s.port (uPort v)).link == .up)
      ∧ allU.filter (fun v => (d.port (uPort v)).link == .up) = []
      ∧ allU = allU.filter (fun v => (d.port (uPort v)).link == .degraded)
      ∧ allU[flowBucket s.params.deepHash rule7.tenant frame12 % allU.length]? = some 2
      ∧ s.hasRoom (uPort 2) rule7.tcls 1 ∧ d.hasRoom (uPort 2) rule7.tcls 1 ∧ s.ratesGood rule7 tenant7 := by
  refine ⟨⟨classified ?_ frame12_passes.1 (by decide) rfl rfl, witness_refetching .waiting (by decide), ?_⟩,
    classified ?_ frame12_passes.1 (by decide) rfl rfl, classified ?_ frame12_passes.1 (by decide) rfl rfl, ?_⟩
  · unfold State.takesFrames; decide +kernel
  · unfold State.hasRoom State.ratesGood State.tableGood; decide +kernel
  · unfold State.takesFrames; decide +kernel
  · unfold State.takesFrames; decide +kernel
  · unfold State.hasRoom State.ratesGood State.tableGood; decide +kernel

/-- Address 1, bucket 2,219: a LEARNED entry, a FIXED one, a free bucket, and a bucket of four entries with local ports. -/
theorem witness_SourceAddressIsLearned :
    let e : FwdEntry := { entry2 (some 5) [] with addr := 1 }
    let f : FwdEntry := { e with origin := .fixed 0 }
    let full := [(8876, { e with addr := 90 }), (8877, { e with addr := 91 }), (8878, { e with addr := 92 }),
      (8879, { e with addr := 93 })]
    up.classifies (sPort 0) frame12 rule7 tenant7 ∧ up.tableGood ∧ groupAddr (frameSrc frame12) = false
      ∧ (withTable [(8876, e)] up).entryAt rule7.tenant (frameSrc frame12) = some e ∧ e.origin = .learned
      ∧ (withTable [(8876, f)] up).entryAt rule7.tenant (frameSrc frame12) = some f ∧ f.origin ≠ .learned
      ∧ up.entryAt rule7.tenant (frameSrc frame12) = none
      ∧ (∃ i ∈ bucketSlots (bucketOf rule7.tenant (frameSrc frame12)), mapFind up.fwd.table i = none)
      ∧ (withTable full up).entryAt rule7.tenant (frameSrc frame12) = none ∧ (withTable full up).tableGood
      ∧ (∀ i ∈ bucketSlots (bucketOf rule7.tenant (frameSrc frame12)),
          ((mapFind (withTable full up).fwd.table i).map fun x => x.localPort).isSome = true) := by
  refine ⟨classified ?_ frame12_passes.1 (by decide) rfl rfl, ?_⟩
  · unfold State.takesFrames; decide +kernel
  · unfold State.tableGood; decide +kernel

/-- Bucket 2,219 full, its third entry holder-only. -/
def fullBucket : List (Nat × FwdEntry) :=
  [(8876, { entry2 (some 5) [] with addr := 90 }), (8877, { entry2 (some 5) [] with addr := 91 }),
   (8878, { entry2 none [{ station := 2, gen := 1, period := 0 }] with addr := 92 }),
   (8879, { entry2 (some 5) [] with addr := 93 })]

/-- That entry is the victim. -/
theorem fullBucket_victim {s : State} (ht : s.fwd.table = fullBucket) : s.isVictim (bucketOf 7 1) 8878
    { entry2 none [{ station := 2, gen := 1, period := 0 }] with addr := 92 } := by
  have hb : bucketSlots (bucketOf 7 1) = [8876, 8877, 8878, 8879] := by decide +kernel
  have only : ∀ j ∈ ([8876, 8877, 8878, 8879] : List Nat), ∀ g ∈ mapFind fullBucket j, g.localPort = none →
      j = 8878 ∧ g.holders = [{ station := 2, gen := 1, period := 0 }] := by decide +kernel
  refine ⟨by decide +kernel, by rw [ht]; rfl, rfl, rfl, { station := 2, gen := 1, period := 0 },
    ⟨List.mem_singleton.2 rfl, fun h' h => by rw [List.mem_singleton.1 h]⟩, ?_⟩
  intro j hj g hg _ hn
  obtain ⟨rfl, hh⟩ := only j (hb ▸ hj) g (ht ▸ hg) hn
  refine ⟨{ station := 2, gen := 1, period := 0 }, ⟨hh ▸ List.mem_singleton.2 rfl, fun h' h => ?_⟩,
    .inr ⟨rfl, le_refl _⟩⟩
  rw [hh] at h
  rw [List.mem_singleton.1 h]

/-- The victim of the full bucket; slot 5 free and taken. -/
theorem witness_SourceAddressIsLearned_victim :
    let s := withTable fullBucket up
    s.classifies (sPort 0) frame12 rule7 tenant7 ∧ s.tableGood ∧ s.entryAt rule7.tenant (frameSrc frame12) = none
      ∧ (∀ j ∈ bucketSlots (bucketOf rule7.tenant (frameSrc frame12)), (mapFind s.fwd.table j).isSome = true)
      ∧ (∃ v, s.isVictim (bucketOf rule7.tenant (frameSrc frame12)) 8878 v) ∧ s.reachFree ∧ ¬ clashed.reachFree := by
  refine ⟨classified ?_ frame12_passes.1 (by decide) rfl rfl, ?_, by decide +kernel, by decide +kernel,
    ⟨_, fullBucket_victim rfl⟩, ⟨.inr rfl, rfl, rfl, fun m h => by cases (show (none : Option TxMsg) = some m from h)⟩, ?_⟩
  · unfold State.takesFrames; decide +kernel
  · unfold State.tableGood; decide +kernel
  · unfold State.reachFree; decide +kernel

/-- The descriptor of a frame of tenant 7 that entered on S-port 5. -/
def desc7 (dst : Addr) (bucket : Nat) (tag : Option GroupTag) : Descriptor :=
  { ingress := 5, length := 64, tenant := 7, bcls := 1, tcls := 2, bucket := bucket, members := BitVec.allOnes 24
    tariffs := Vector.replicate 4 0, exempt := false, tag := tag, dst := dst }

/-- A local port that is the ingress, another usable one, none with no usable holder, and a holder reached directly and
through a relay. -/
theorem witness_HitIsDecidedByTheEntry :
    let d := desc7 2 1023 none
    let h : Holder := { station := 2, gen := 1, period := 0 }
    let state (p : Option (Fin 24)) (hs : List Holder) := withTable [(8992, entry2 p hs)] paired
    let cut := setSlot 1 (some { peer2 with station := 3, state := .severed, relay := some 2 })
      (withTable [(8992, entry2 none [{ h with station := 3 }])] paired)
    (d.tag = none ∧ groupAddr d.dst = false
        ∧ bucketFaulty (bucketOf d.tenant d.dst) (state (some 5) []) = false
        ∧ ¬ (state (some 5) []).refetching d.tenant d.dst ∧ ¬ (state none [h]).refetching d.tenant d.dst
        ∧ bucketFaulty (bucketOf d.tenant d.dst) (withTable [(8992, { entry2 (some 5) [] with intact := false })] up) = true
        ∧ bucketFaulty (bucketOf d.tenant d.dst) (underRefetch .queued) = false
        ∧ (state (some 5) []).entryAt d.tenant d.dst = some (entry2 (some 5) [])
        ∧ (entry2 (some 5) []).localPort.map sPort = some d.ingress
        ∧ sPort 6 ≠ d.ingress ∧ (state (some 6) []).isUsable (sPort 6)
        ∧ [h].Pairwise (fun a b => a.station.toNat < b.station.toNat)
        ∧ [h][d.bucket % [h].length]? = some h ∧ (state none [h]).peer h.station = some peer2
        ∧ (state none [h]).directX h.station = some 0
        ∧ (cut.peer 3).map (·.state) = some .severed ∧ cut.directX 2 = some 0)
      ∧ (∀ x ∈ (entry2 none []).holders, ¬ (state none []).canUse x)
      ∧ (state none [h]).canUse h ∧ cut.canUse { h with station := 3 } := by
  refine ⟨?_, by simp [entry2], ⟨peer2, by decide +kernel⟩,
    ⟨{ peer2 with station := 3, state := .severed, relay := some 2 }, by decide +kernel⟩⟩
  unfold State.isUsable State.refetching; decide +kernel

/-- The share at 710: buckets 709 and 710, with and without a diversion peer, with and without a usable U-port. -/
theorem witness_MissTakesTheUplinkPath :
    let s := { paired with load := { share := 710, divPeer := some 2 } }
    (desc7 2 709 none).tag = none ∧ (desc7 2 709 none).ingress = sPort 5 ∧ groupAddr (2 : Addr) = false
      ∧ bucketFaulty (bucketOf 7 2) s = false ∧ s.entryAt 7 2 = none
      ∧ bucketFaulty (bucketOf 7 2) (withTable [(8992, { entry2 (some 5) [] with intact := false })] s) = true
      ∧ 709 < s.load.share ∧ s.load.divPeer = some 2 ∧ s.directX 2 = some 0
      ∧ ({ s with load := { share := 710 } } : State).load.divPeer.bind s.directX = none
      ∧ s.load.share ≤ 710 ∧ (allU.filter fun v => (s.port (uPort v)).link == .up) = allU
      ∧ (allU.filter fun v => (dark.port (uPort v)).link == .up) = []
      ∧ (allU.filter fun v => (dark.port (uPort v)).link == .degraded) = [] := by decide +kernel

/-- The tag of a frame from station 2 over X0. -/
def tag2 : GroupTag :=
  { flood := false, diverted := false, relay := false, origin := 2, target := 0, hop := 1, tenant := 7, bcls := 1, tcls := 2
    bucket := 4 }

/-- A diverted frame from a peer leaves on a U-port, a relayed one on the target's X-port; hop 2 at the target. -/
theorem witness_FramesCrossAtMostTwoXPorts :
    let d := { desc7 2 4 (some { tag2 with diverted := true }) with ingress := 28 }
    let r := { desc7 2 4 (some { tag2 with relay := true, origin := 3, target := 2 }) with ingress := 29 }
    (decideFrame d paired).1 = .copies [⟨24, none⟩]
      ∧ (decideFrame r paired).1 = .copies
          [⟨28, some { tag2 with relay := true, origin := 3, target := 2, hop := 2 }⟩]
      ∧ (let l := taggedFrame [0x12, 0x21, 7, 0x80, 0, 0] [0, 0, 0, 0]
         tagInvalid 1 l = false ∧ (readTag l).hop = 2) := by decide +kernel

/-- A flood from S-port 5, and one from station 2. -/
theorem witness_FloodsFollowTheirRules :
    (desc7 0x010000000000 3 none).tag = none ∧ (desc7 0x010000000000 3 none).ingress = sPort 5
      ∧ groupAddr (0x010000000000 : Addr) = true
      ∧ (desc7 0x010000000000 3 (some { tag2 with flood := true })).tag = some { tag2 with flood := true }
      ∧ ({ tag2 with flood := true } : GroupTag).diverted = false := by decide +kernel

/-- A group frame and a unicast miss from the first and the last U-port. -/
theorem witness_FloodsFollowTheirRules_spine :
    let d := { desc7 0x010000000000 3 none with ingress := 24 }
    let m := { desc7 2 3 none with ingress := 27 }
    d.tag = none ∧ 24 ≤ d.ingress.val ∧ d.ingress.val < 28 ∧ groupAddr d.dst = true
      ∧ m.tag = none ∧ 24 ≤ m.ingress.val ∧ m.ingress.val < 28 ∧ groupAddr m.dst = false
      ∧ bucketFaulty (bucketOf m.tenant m.dst) paired = false ∧ paired.entryAt m.tenant m.dst = none := by decide +kernel

/-- A DIVERTED frame with and without a usable U-port; one relayed to a station behind another X-port, behind its own, and behind
none; a plain one with and without a local port, and to a group address. -/
theorem witness_CrossFramesFollowTheirTag :
    let diverted := { tag2 with diverted := true }
    let relayed := { tag2 with relay := true, origin := 3, target := 2 }
    let s := withTable [(8992, entry2 (some 5) [])] paired
    (diverted.diverted = true ∧ paired.carriers[4 % paired.carriers.length]? = some 0 ∧ dark.carriers = [])
      ∧ (relayed.diverted = false ∧ relayed.flood = false ∧ relayed.relay = true
        ∧ relayed.target ≠ paired.loader.station ∧ paired.directX relayed.target = some 0 ∧ xPort 0 ≠ 29
        ∧ up.directX relayed.target = none)
      ∧ (tag2.diverted = false ∧ tag2.flood = false ∧ tag2.relay = false
        ∧ bucketFaulty (bucketOf 7 2) s = false ∧ groupAddr (2 : Addr) = false ∧ ¬ s.refetching 7 2
        ∧ s.entryAt 7 2 = some (entry2 (some 5) []) ∧ s.isUsable (sPort 5) ∧ paired.entryAt 7 2 = none
        ∧ groupAddr (0x010000000000 : Addr) = true) := by
  unfold State.isUsable State.refetching; decide +kernel

/-- The plain frame from station 2 over X0, dropped and admitted. -/
theorem witness_CrossFramesFollowTheirTag_received :
    let s := withTable [(8992, entry2 (some 5) [])] paired
    let d := crossDescriptor 28 frameP (readTag frameP) tenant7
    s.takesFrames 28 ∧ passesChecks 28 frameP ∧ frameDst frameP ≠ Config.helloAddr ∧ (s.port 28).looped = false
      ∧ fieldNat frameP 12 2 = Config.tagMarker ∧ tagInvalid s.loader.station frameP = false
      ∧ (readTag frameP).origin ≠ s.loader.station
      ∧ mapFind s.tenants (readTag frameP).tenant.toNat = some tenant7 ∧ tenant7.integ = .good
      ∧ tenant7.checkGood = true ∧ bucketFaulty (bucketOf (readTag frameP).tenant (frameDst frameP)) s = false
      ∧ (decideFrame d paired).1 = .drop .noPath ∧ (decideFrame d s).1 = .copies [⟨sPort 5, none⟩]
      ∧ s.takesFrames (sPort 5) ∧ s.hasRoom (sPort 5) d.tcls 1 := by
  unfold State.takesFrames passesChecks State.hasRoom; decide +kernel

/-- One cell over the class limit, one cell over the pool, and room to the last cell. -/
theorem witness_CopiesAreAdmittedInOrder :
    let q := setQueues 0 (setClass 2 fun _ => { occ := 1023 }) up
    let poor := { up with buffer := { up.buffer with free := 1 } }
    ¬ dark.takesFrames 0 ∧ q.takesFrames 0 ∧ q.params.classLimit < ((q.buffer.ports[(0 : Port)]).classes[(2 : Cls)]).occ + 2
      ∧ poor.takesFrames 0 ∧ ((poor.buffer.ports[(0 : Port)]).classes[(2 : Cls)]).occ + 2 ≤ poor.params.classLimit
      ∧ poor.buffer.free < 2 ∧ q.hasRoom 0 2 1 ∧ poor.hasRoom 0 2 1
      ∧ up.admission 0 (desc7 2 4 none).tcls 1 = none ∧ dark.admission 0 (desc7 2 4 none).tcls 1 = some .flushed := by
  unfold State.takesFrames State.hasRoom; decide +kernel

/-- Tenant 7 denied, and listed with its window closed by one slot. -/
theorem witness_RestrainedFrameIsRefused :
    let s := withTable [(8992, entry2 (some 5) [])] up
    let denied := { s with restraint := { s.restraint with on := true, denied := [7] } }
    let listed := { s with restraint := { s.restraint with on := true, slot := 8, list := [(7, 0)] } }
    denied.classifies (sPort 0) frameG rule7 tenant7 ∧ listed.classifies (sPort 0) frameG rule7 tenant7
      ∧ groupAddr (frameDst frameG) = false ∧ s.tableGood
      ∧ s.entryAt rule7.tenant (frameDst frameG) = some (entry2 (some 5) []) ∧ (5 : Fin 24) ≠ 0
      ∧ s.isUsable (sPort 5) ∧ groupAddr (frameSrc frameG) = true
      ∧ (s.acc (accKey rule7.tenant rule7.bcls)).checkGood = true
      ∧ denied.restraint.denied.contains rule7.tenant = true
      ∧ listed.restraint.denied.contains rule7.tenant = false ∧ listed.listedStart rule7.tenant = some 0
      ∧ ¬ (((listed.restraint.slot : Int) - 0) % 64 < listed.params.window) := by
  refine ⟨classified ?_ frameG_passes (by decide) rfl rfl, classified ?_ frameG_passes (by decide) rfl rfl, ?_⟩
  · unfold State.takesFrames; decide +kernel
  · unfold State.takesFrames; decide +kernel
  · unfold State.isUsable State.tableGood; decide +kernel

/-- A frame whose unicast source is learned, restrained as above: its copies after the learning. -/
theorem witness_RestrainedFrameIsRefused_learned :
    let s := { up with restraint := { up.restraint with on := true, denied := [7] } }
    let d := edgeDescriptor (sPort 0) frame12 rule7 tenant7 s.params.deepHash
    s.classifies (sPort 0) frame12 rule7 tenant7 ∧ s.tableGood ∧ groupAddr (frameSrc frame12) = false
      ∧ (decideFrame d (learnFrame d (frameSrc frame12) s).st).1 = .copies [⟨26, none⟩]
      ∧ (s.acc (accKey rule7.tenant rule7.bcls)).checkGood = true
      ∧ s.restraint.denied.contains rule7.tenant = true := by
  refine ⟨classified ?_ frame12_passes.1 (by decide) rfl rfl, ?_, ?_⟩
  · unfold State.takesFrames; decide +kernel
  · unfold State.tableGood; decide +kernel
  · decide +kernel

/-- An inbound frame, a flood, an uplink frame in peak, a diverted one and another; a good, an unusable and a failing tariff; a good
and a failing accumulator; tenant 0 and a tagged frame; frames that are dropped, admitted and admitted nowhere. -/
theorem witness_MeteringFollowsColumnsAndFaults :
    let d := desc7 2 710 none
    let k := accKey 7 1
    let bad := { up with tariffs := [(0, { fee := 1, integ := .failed })] }
    let failing := { up with tariffs := [(0, { fee := 1, entry := spoilt })] }
    let dirty := { up with meter := { accs := [(29, { outF := 1, checkGood := false })] } }
    let spine := { withTable [(8992, entry2 (some 5) [])] up with
      buffer := { up.buffer with free := 0 } }
    (up.classifies 24 frame12 rule7 tenant7 ∧ up.tableGood)
      ∧ d.tag = none ∧ d.tenant ≠ 0 ∧ k = 29 ∧ (up.tariff d.tariffs[d.bcls.val]).integ = .good
      ∧ (up.tariff d.tariffs[d.bcls.val]).checkGood = true ∧ (bad.tariff d.tariffs[d.bcls.val]).integ ≠ .good
      ∧ (failing.tariff d.tariffs[d.bcls.val]).integ = .good
      ∧ (failing.tariff d.tariffs[d.bcls.val]).checkGood = false
      ∧ (dirty.acc k).checkGood = false ∧ (up.acc k).checkGood = true
      ∧ ({ d with ingress := 24 }.ingress.val = 24 ∧ groupAddr (desc7 0x010000000000 3 none).dst = true
        ∧ ({ up.load with peak := Vector.replicate 4 true } : LoadUnit).peak[(3 : Fin 4).val] = true
        ∧ ((some { tag2 with diverted := true } : Option GroupTag).any fun g => g.diverted) = true)
      ∧ (desc7 2 4 (some tag2)).tag ≠ none ∧ { d with tenant := 0 }.tenant = 0
      ∧ (decideFrame (edgeDescriptor 24 frame12 rule7 tenant7 false)
          (withTable [(8992, entry2 none [])] up)).1 = .drop .noPath
      ∧ (decideFrame (edgeDescriptor 24 frame12 rule7 tenant7 false) spine).1 = .copies [⟨sPort 5, none⟩]
      ∧ (admitCopies (edgeDescriptor 24 frame12 rule7 tenant7 false) [] [⟨sPort 5, none⟩] spine).1 = none
      ∧ (admitCopies (edgeDescriptor 24 frame12 rule7 tenant7 false) [] [⟨sPort 5, none⟩] up).1
          = some ⟨sPort 5, none⟩ ∧ up.restraintOutcome rule7.tenant = none := by
  refine ⟨⟨classified ?_ frame12_passes.2 (by decide) rfl rfl, ?_⟩, ?_⟩
  · unfold State.takesFrames; decide +kernel
  · unfold State.tableGood; decide +kernel
  · decide +kernel

/-! ## Witnesses: ports and timers -/

/-- A state without any usable port, tenant or peer, in LOADING. -/
def cold : State := { State.reset with loader := { phase := .loading, station := 1 } }

/-- A port that sends nothing, and one that sends the first of two copies. -/
theorem witness_TransmissionEndReturnsCells :
    let x : Copy := { desc := none, tag := none, cells := 1, length := 72, octets := [] }
    let q := setQueues 28 (fun q => { setClass 3 (fun _ => { copies := [x, x], occ := 2, num := 2 }) q with
      sending := some 3 }) up
    (up.buffer.ports[(28 : Port)]).sending = none ∧ (q.buffer.ports[(28 : Port)]).sending = some 3
      ∧ ((q.buffer.ports[(28 : Port)]).classes[(3 : Cls)]).copies = x :: [x] ∧ mapWf q.buffer.tenantOcc = true
      ∧ q.takesFrames 28 := by
  unfold State.takesFrames; decide +kernel

/-- In LOADING, at an UP port, and at DOWN ports: the first and last U-port and an X-port. -/
theorem witness_CarrierMovesThePort_up :
    cold.acting = false ∧ (up.port 24).link ≠ .down ∧ dark.acting = true ∧ (dark.port 24).link = .down
      ∧ (dark.port 27).link = .down ∧ (dark.port 28).link = .down ∧ dark.line.conflict = false := by decide +kernel

/-- In LOADING, DOWN, HELD, UP with penalty 5 and 6; the last usable U-port, not ISOLATED. -/
theorem witness_CarrierMovesThePort_down :
    let one := setPort (uPort 3) (fun u => { u with link := .degraded }) dark
    cold.acting = false ∧ (dark.port 24).link = .down
      ∧ ((setPort 24 (fun u => { u with link := .held, penalty := 6 }) up).port 24).link = .held
      ∧ up.acting = true ∧ up.isUsable 24 ∧ ((setPort 24 (fun u => { u with penalty := 5 }) up).port 24).penalty = 5
      ∧ one.acting = true ∧ one.isUsable (uPort 3) ∧ (∀ v : Fin 4, v ≠ 3 → ¬ one.isUsable (uPort v))
      ∧ one.peers.isolated = false := by
  unfold State.isUsable; decide +kernel

/-- Carrier down at the X-port of the diversion peer takes its slot to SEVERED and the share to 0; at the last U-port it sets
ISOLATED and gives the share to station 2; carrier up at X0 leaves a peer without far station JOINING. -/
theorem witness_CarrierMovesThePort_follow :
    let s := { paired with load := { share := 64, divPeer := some 2 } }
    let one := { paired with
      ports := ((List.finRange 3).foldl (fun q u => setPort (uPort u.castSucc) (fun v => { v with link := .down }) q) paired).ports }
    let away := setSlot 0 (some { peer2 with state := .joining, joinExpiry := some 9 }) dark
    s.acting = true ∧ ((after (.carrierDown 28) s).slot 0).map (·.state) = some .severed
      ∧ (after (.carrierDown 28) s).load = { share := 0, divPeer := none }
      ∧ (after (.carrierDown 27) one).peers.isolated = true
      ∧ (after (.carrierDown 27) one).load = { share := 1024, divPeer := some 2 }
      ∧ ((after (.carrierUp 28) away).slot 0).map (·.state) = some .joining := by decide +kernel

/-- Timers that do not run; a HELD port with and without carrier; usable ports with penalty 0 and 1, and a DOWN one. -/
theorem witness_PortTimersAndTheSecond_timers :
    (up.port 3).holdExpiry = none ∧ (up.port 3).decayExpiry = none
      ∧ ((setPort 3 (fun u => { u with link := .held, holdExpiry := some 9 }) up).port 3).holdExpiry = some 9
      ∧ ((setPort 3 (fun u => { u with link := .held, carrier := false, holdExpiry := some 9 }) up).port 3).carrier = false
      ∧ ((setPort 3 (fun u => { u with penalty := 1, decayExpiry := some 9 }) up).port 3).decayExpiry = some 9
      ∧ (setPort 3 (fun u => { u with penalty := 0, decayExpiry := some 9 }) up).isUsable 3
      ∧ ((setPort 3 (fun u => { u with decayExpiry := some 9 }) dark).port 3).decayExpiry = some 9
      ∧ ¬ (setPort 3 (fun u => { u with decayExpiry := some 9 }) dark).isUsable 3 := by
  unfold State.isUsable; decide +kernel

/-- In LOADING and elsewhere; bad-frame counts at the threshold and one below it. -/
theorem witness_PortTimersAndTheSecond :
    cold.loader.phase = .loading ∧ up.loader.phase ≠ .loading
      ∧ up.params.degrade ≤ ((setPort 3 (fun u => { u with badFrames := 16 }) up).port 3).badFrames.toNat
      ∧ ((setPort 3 (fun u => { u with badFrames := 15 }) worn).port 3).badFrames.toNat < up.params.degrade := by
  decide +kernel

/-- The hold of a U-port ends while the station is ISOLATED: it is UP, ISOLATED ends and a LINK waits; an X-port turns DEGRADED
at its comparison, its peer stays ACTIVE and a LINK waits. -/
theorem witness_PortTimersAndTheSecond_follow :
    let s := { setPort 24 (fun u => { u with link := .held, carrier := true, holdExpiry := some 9 }) dark with
      peers := { isolated := true } }
    let bad := setPort 28 (fun u => { u with badFrames := 16 }) paired
    (s.port 24).holdExpiry = some 9 ∧ (s.port 24).link = .held ∧ (s.port 24).carrier = true
      ∧ (after (.holdExpiry 24) s).peers.isolated = false
      ∧ (after (.holdExpiry 24) s).line.wLink.isSome = true
      ∧ bad.acting = true ∧ cold.acting = false
      ∧ (let o := portSecond 28 bad
         o.evs = [⟨.portDegraded, some 28⟩] ∧ (o.st.port 28).link = .degraded ∧ (o.st.port 28).badFrames = 0
          ∧ (o.st.slot 0).map (·.state) = some .active ∧ o.st.line.wLink.isSome = true) := by decide +kernel

/-- A port hello of station 14 takes its JOINING slot to ACTIVE; the lapse of X0 takes station 2's to SEVERED and its share to 0. -/
theorem witness_PortHellosAndTheirLapse_follow :
    let s := setSlot 4 (some { peer2 with station := 14, state := .joining, joinExpiry := some 9 }) up
    let t := after (.frameReceived (xPort 0) (helloFrame 14 [0x08, 0x4F, 0x6E, 0x3C])) s
    let u := after (.lapseExpiry 0) { paired with load := { share := 64, divPeer := some 2 } }
    (t.slot 4).map (fun x => (x.state, x.joinExpiry)) = some (.active, none)
      ∧ (u.slot 0).map (·.state) = some .severed ∧ u.load = { share := 0, divPeer := none } := by decide +kernel

/-- Port hellos under 14 and 15; a lapse timer that does not run, and one that runs. -/
theorem witness_PortHellosAndTheirLapse :
    (let h14 := helloFrame 14 [0x08, 0x4F, 0x6E, 0x3C]
     let h15 := helloFrame 15 [0xBE, 0xE6, 0xCB, 0x3D]
     up.takesFrames (xPort 0) ∧ passesChecks (xPort 0) h14 ∧ passesChecks (xPort 0) h15
      ∧ frameDst h14 = Config.helloAddr ∧ frameDst h15 = Config.helloAddr ∧ helloNumber h14 < 15 ∧ 15 ≤ helloNumber h15)
    ∧ (up.port (xPort 0)).lapseExpiry = none ∧ (paired.port (xPort 0)).lapseExpiry = some 7 := by
  unfold State.takesFrames passesChecks; decide +kernel

/-! ## Witnesses: the forwarding table's queues and walks -/

/-- A reach queue of 511 items and one of 512, neither with the key; no sweep and one under way; a key that is queued.
Slot 5 free and taken, with items waiting. -/
theorem witness_ReachQueueAndItsNotice :
    (let items (n : Nat) : List ReachItem := (List.range n).map fun i => ⟨1, BitVec.ofNat 48 i, .join⟩
     ((items 511).any fun i => i.tenant == 7 && i.addr == 2) = false ∧ (items 511).length < 512
      ∧ ((items 512).any fun i => i.tenant == 7 && i.addr == 2) = false ∧ 512 ≤ (items 512).length
      ∧ ((items 512).any fun i => i.tenant == 1 && i.addr == 511) = true)
    ∧ up.fwd.sweep = none ∧ ({ up with fwd := { sweep := some 16383 } } : State).fwd.sweep = some 16383
    ∧ up.fwd.queue = [] ∧ ¬ clashed.reachFree
    ∧ (let s := { withTable [(8992, entry2 (some 5) [])] up with
         fwd := { table := [(8992, entry2 (some 5) [])], queue := [⟨7, 2, .join⟩] } }
       s.reachFree ∧ s.fwd.queue ≠ [] ∧ (s.fwd.queue.map fun i => (i.tenant, i.addr)).Nodup
        ∧ (⟨7, 2, .join⟩ : ReachItem) ∈ s.fwd.queue.take 14 ∧ s.entryAt 7 2 = some (entry2 (some 5) [])) := by
  refine ⟨by decide +kernel, rfl, rfl, rfl, ?_, ?_⟩
  · unfold State.reachFree; decide +kernel
  · refine ⟨⟨.inr rfl, rfl, rfl, fun m hm => by cases (show none = some m from hm)⟩, by decide +kernel, by decide +kernel, by decide +kernel,
      by decide +kernel⟩

/-- The walk at bucket 2,248 and at bucket 4,095, with an entry whose local port is lost, one that stays, a holder-only entry
and a FIXED one. -/
theorem witness_AgingVisitAgesOneBucket :
    let h : Holder := { station := 2, gen := 1, period := 0 }
    let e := { entry2 (some 5) [h] with age := 299 }
    let k := { entry2 (some 5) [] with addr := 6, age := 298 }
    let o := { entry2 none [h] with addr := 7 }
    let f := { entry2 none [] with addr := 8, origin := .fixed 0 }
    let s := { paired with
      fwd := { table := [(8992, e), (8993, k), (8994, o), (8995, f)], agingPos := 2248, agingOn := true } }
    let last := { paired with fwd := { agingPos := 4095, agingOn := true } }
    s.losesPort e ∧ ¬ s.losesPort k ∧ s.fwd.agingOn = true ∧ mapWf s.fwd.table = true
      ∧ (∀ i ∈ bucketSlots s.fwd.agingPos, ((mapFind s.fwd.table i).map fun x => x.checkGood) = some true)
      ∧ s.fwd.agingPos < 4095 ∧ 4095 ≤ last.fwd.agingPos ∧ last.fwd.agingOn = true
      ∧ o.localPort = none ∧ o.origin = .learned ∧ f.origin ≠ .learned
      ∧ s.keepsHolder h = true ∧ s.keepsHolder { h with gen := 2 } = false
      ∧ ¬ clashed.reachFree ∧ e.announced = true ∧ s.fwd.queue.length + 4 ≤ 512 := by
  refine ⟨⟨rfl, 5, rfl, .inl (by decide +kernel)⟩, ?_, ?_⟩
  · rintro ⟨-, p, hp, h⟩
    cases hp
    rcases h with h | h
    · exact absurd h (by decide +kernel)
    · exact h (.inl (by decide +kernel))
  · unfold State.reachFree; decide +kernel

/-- A refresh generator that does not run, one that runs with no sweep and with one under way; a queue of 255 and 256 items; the
sweep at the last place, with an entry on a usable port. -/
theorem witness_RefreshSweepsTheTable :
    (up.time.refreshDue = none ∧ ({ up with time := { refreshDue := some 5 } } : State).time.refreshDue = some 5
      ∧ up.fwd.sweep = none)
    ∧ (let items (n : Nat) : List ReachItem := (List.range n).map fun i => ⟨1, BitVec.ofNat 48 i, .join⟩
       let s := { up with fwd := { table := [(16383, entry2 (some 5) [])], sweep := some 16383, queue := items 255 } }
       let w := { s with fwd := { s.fwd with queue := items 256 } }
       256 ≤ w.fwd.queue.length ∧ s.fwd.sweep = some 16383 ∧ s.fwd.queue.length < 256
        ∧ mapFind s.fwd.table 16383 = some (entry2 (some 5) []) ∧ (entry2 (some 5) []).checkGood = true
        ∧ s.isUsable (sPort 5)
        ∧ ({ s with fwd := { s.fwd with sweepDue := true } } : State).fwd.sweepDue = true) := by
  unfold State.isUsable; decide +kernel

/-- Entry 0 of the sweep fails its check, LEARNED and FIXED, with 7 and with 8 items in the refetch queue. -/
theorem witness_FaultyEntryIsRemoved :
    let e := { entry2 (some 5) [] with intact := false }
    let f := { e with origin := .fixed 0 }
    let cfg : FixedCfg := { tenant := 7, addr := 2, localPort := some 5 }
    let s := { up with fwd := { table := [(0, e)], sweep := some 0 } }
    let q (n : Nat) := { up with
      fwd := { table := [(0, f)], sweep := some 0 }, fixed := [(0, cfg)]
      loader := { up.loader with refetch := (List.range n).map fun i => ⟨.rule, i⟩ } }
    s.fwd.sweep = some 0 ∧ s.fwd.queue.length < 256 ∧ mapWf s.fwd.table = true ∧ mapFind s.fwd.table 0 = some e
      ∧ e.checkGood = false ∧ e.origin = .learned ∧ e.localPort.isSome = true
      ∧ mapFind (q 7).fwd.table 0 = some f ∧ f.origin = .fixed 0 ∧ mapFind (q 7).fixed 0 = some cfg
      ∧ (q 7).loader.refetch.length < 8 ∧ 8 ≤ (q 8).loader.refetch.length
      ∧ ¬ ({ clashed with fwd := { table := [(0, e)], sweep := some 0 } } : State).reachFree := by
  unfold State.reachFree; decide +kernel

/-! ## Witnesses: the periodic events -/

theorem witness_SampleRunsTheLoadUnit_indices : cold.acting = false ∧ up.acting = true := by decide

/-- Station 2 is the best peer, by 30,619, of a state in which it alone is a peer, behind X0, with the indices as given. -/
theorem best_of {t : State} (h : t.peer 2 = some peer2 ∧ (∀ o : Station, o ≠ 2 → t.peer o = none)
    ∧ t.directX 2 = some 0 ∧ t.load.idx[4] < t.params.xl
    ∧ t.isFresh peer2 = true
    ∧ (30619 : Int) = (t.load.uplink : Int) - t.announced peer2 - t.params.margin) : t.isBest 2 30619 := by
  obtain ⟨h2, only, hd, hx, hf, hg⟩ := h
  refine ⟨⟨by decide, peer2, 0, h2, rfl, hd, hx, rfl, hf, hg, by decide, rfl⟩, ?_⟩
  rintro o g ⟨-, x, y, h, -, -, -, -, -, rfl, -⟩
  by_cases ho : o = 2
  · subst ho
    rw [h2] at h; cases h
    exact .inr ⟨hg.symm, le_refl _⟩
  · rw [only o ho] at h; cases h

/-- Station 1 with every U-port DOWN and station 2 behind X0, with a share and a diversion peer. -/
def offloading (isolated : Bool) (share : Nat) (peer : Option Station) : State :=
  { dark with
    peers := { paired.peers with isolated := isolated }, load := { share := share, divPeer := peer }
    ports := (setPort (xPort 0) (fun u => { u with link := .up, far := some 2 }) dark).ports }

/-- No eligible peer; station 2 as the best peer with the share at 0, at 64 for it, and at 64 for station 3. ISOLATED with
station 2 as candidate and with none. -/
theorem witness_SampleRunsTheLoadUnit :
    up.acting = true ∧ up.peers.isolated = false ∧ (∀ st g, ¬ (after .sample up).eligibleGap st g)
      ∧ (after .sample (offloading false 0 none)).isBest 2 30619
      ∧ (after .sample (offloading false 64 (some 2))).isBest 2 30619
      ∧ (after .sample (offloading false 64 (some 3))).isBest 2 30619
      ∧ (∀ st v, ¬ (after .sample { up with peers := { isolated := true } }).isolationIndex st v)
      ∧ (after .sample (offloading true 0 none)).isolationIndex 2 100
      ∧ ∀ o w, (after .sample (offloading true 0 none)).isolationIndex o w → 100 < w ∨ (100 = w ∧ 2 ≤ o.toNat) := by
  have none_held : ∀ st : Station, (after .sample up).peer st = none := by decide +kernel
  have none_isolated : ∀ st : Station, (after .sample { up with peers := { isolated := true } }).peer st = none := by
    decide +kernel
  have only : ∀ o : Station, o ≠ 2 → (after .sample (offloading true 0 none)).peer o = none := by decide +kernel
  refine ⟨by decide, by decide, ?_, best_of (by decide +kernel), best_of (by decide +kernel), best_of (by decide +kernel), ?_,
    ⟨by decide, peer2, by decide +kernel⟩, ?_⟩
  · rintro st g ⟨-, x, y, h, -⟩
    cases (none_held st).symm.trans h
  · rintro st v ⟨-, x, h, -⟩
    cases (none_isolated st).symm.trans h
  · rintro o w ⟨-, x, h, -, -, -, hw, -⟩
    by_cases ho : o = 2
    · subst ho
      have : (after .sample (offloading true 0 none)).peer 2 = some peer2 := by decide +kernel
      rw [this] at h; cases h
      exact .inr ⟨hw.symm ▸ (by decide +kernel), by decide⟩
    · rw [only o ho] at h; cases h

/-- 1,535 and 1,536 free cells with the mode OFF, 3,071 and 3,072 with it ON. -/
theorem witness_SampleRunsTheRestraintUnit :
    let s (on : Bool) (free : Nat) := { up with
      restraint := { up.restraint with on := on, settings := [(0, { exempt := true }), (7, { quota := 100 })] }
      buffer := { up.buffer with free := free } }
    (s false 1536).acting = true ∧ mapWf (s false 1536).restraint.settings = true
      ∧ (∀ x ∈ (s false 1536).restraint.settings, x.1 < 256)
      ∧ (s false 1536).params.onLevel ≤ (s false 1536).buffer.free
      ∧ (s true 3072).params.offLevel ≤ (s true 3072).buffer.free
      ∧ (s false 1535).buffer.free < (s false 1535).params.onLevel
      ∧ (s true 3071).buffer.free < (s true 3071).params.offLevel := by decide +kernel

/-- DIVERSION_END, RESTRAINT_ON and TENANT_DENIED reach their links: with seventeen tenants above their quota the last of
them is denied. -/
theorem witness_SampleRuns_events :
    let l (e : EventSource) (code : Fin 8) : EventLink :=
      { source := e, qual := none, action := .markInterval code, holdOff := 0 }
    let links := [(0, l .diversionEnd 5), (2, l .restraintOn 6), (15, l .tenantDenied 7)]
    let tenants := (List.range 17).map fun i => (i + 1, { quota := 1 : RestraintSetting })
    let s := { up with
      restraint := { settings := tenants }, links := links
      buffer := { up.buffer with free := 1535, tenantOcc := (List.range 17).map fun i => (i + 1, 2) } }
    (after .sample { offloading false 64 (some 3) with links := links }).meter.marks = 0x20
      ∧ (after .sample s).meter.marks = 0xC0 ∧ (after .sample s).restraint.denied = [17] := by decide +kernel

/-- Generators that do not run and that run; the second and third HELLO_DUE in JOINING; X-ports that take frames, with 5 and with
0 free cells, with and without a hello waiting. -/
theorem witness_NoticeGeneratorsCompose :
    let due := { up with time := { loadDue := some 5, helloDue := some 6 } }
    let joining := { due with loader := { due.loader with phase := .joining, helloCount := 2 } }
    cold.time.loadDue = none ∧ cold.time.helloDue = none ∧ due.time.loadDue = some 5 ∧ due.time.helloDue = some 6
      ∧ due.acting = true ∧ due.line.conflict = false ∧ cold.acting = false
      ∧ joining.loader.phase = .joining ∧ joining.loader.helloCount + 1 = 3
      ∧ (due.loader.helloCount + 1) % 4 ≠ 0 ∧ ({ joining.loader with helloCount := 3 }.helloCount + 1) % 4 = 0
      ∧ due.takesFrames (xPort 4) ∧ (due.buffer.ports[xPort 4]).helloWaits = false
      ∧ 5 ≤ ({ due.buffer with free := 5 } : Buffer).free ∧ ({ due.buffer with free := 0 } : Buffer).free = 0
      ∧ ¬ clashed.takesFrames (xPort 4) := by
  unfold State.takesFrames; decide +kernel

/-- Three free cells for five hellos: X2 is served, X3 is not. -/
theorem witness_NoticeGeneratorsCompose_poor :
    let s := { up with time := { helloDue := some 6 }, buffer := { up.buffer with free := 3 } }
    let wants (x : XIndex) : Bool := s.portReady (xPort x) && !(s.buffer.ports[xPort x]).helloWaits
    s.acting = true ∧ s.takesFrames (xPort 2) ∧ s.takesFrames (xPort 3)
      ∧ (s.buffer.ports[xPort 2]).helloWaits = false ∧ (s.buffer.ports[xPort 3]).helloWaits = false
      ∧ (allX.filter fun y => decide (y < 2) && wants y).length < s.buffer.free
      ∧ s.buffer.free ≤ (allX.filter fun y => decide (y < 3) && wants y).length := by
  unfold State.takesFrames; decide +kernel

/-- No interval generator; one and two pending intervals; the last live number. -/
theorem witness_IntervalEndClosesOrDefers :
    let i : Interval := { number := 1, span := 1, opened := 0, closed := 1, marks := 0, records := [] }
    let s (q : List Interval) (n : Count) := { up with
      time := { intervalDue := some 5 }, meter := { queue := q, number := n, accs := [(29, { outF := 1 })] } }
    cold.time.intervalDue = none ∧ (s [i] 2).time.intervalDue = some 5 ∧ (s [i] 2).acting = true
      ∧ (s [i] 2).meter.queue.length < 2 ∧ (s [i] 2).meter.number ≠ BitVec.allOnes 32
      ∧ 2 ≤ (s [i, { i with number := 2 }] 3).meter.queue.length
      ∧ (s [] (BitVec.allOnes 32)).meter.number = BitVec.allOnes 32 ∧ (s [i] 2).accsGood := by
  refine ⟨by decide, rfl, by decide, by decide, by decide, by decide, rfl, by decide, by decide, fun k => ?_⟩
  by_cases h : k = 29
  · subst h; decide
  · simp [State.acc, mapGet, mapFind, Ne.symm h]

/-- A close over two accumulators, one of which fails its check. -/
theorem witness_IntervalEndClosesOrDefers_faulty :
    let s := { up with
      time := { intervalDue := some 5 }
      meter := { accs := [(29, { outF := 1, checkGood := false }), (30, { outF := 2 })] } }
    s.acting = true ∧ s.meter.queue.length < 2 ∧ s.meter.number ≠ BitVec.allOnes 32 ∧ mapWf s.meter.accs = true
      ∧ (∀ x ∈ s.meter.accs, x.1 < 1024) ∧ (s.meter.accs.filter fun x => !x.2.checkGood).length = 1 := by decide +kernel

/-- A running channel with a ready message. -/
def ready (p : Nat) : Channel :=
  { state := .running, source := 1, priority := p, shareLimit := 1, outstanding := some { seq := 0, records := [] } }

/-- Both channels ready with equal and with different priority; a taken slot 7; the state in CONFLICT. -/
theorem witness_ShareWindowLetsRecordsIn :
    let s (a b : Nat) := { up with chans := { ctx := #v[ready a, ready b] } }
    ({ (s 0 0).chan 0 with shareUsed := 0 } : Channel).mayEnter { seq := 0, records := [] }
      ∧ ({ (s 0 1).chan 1 with shareUsed := 0 } : Channel).mayEnter { seq := 0, records := [] }
      ∧ (s 0 0).mayNotify = true ∧ (s 0 0).line.wRecord = none ∧ (s 0 0).line.sending 7 = false
      ∧ ((s 0 0).chan 1).priority = ((s 0 0).chan 0).priority ∧ (s 0 0).chans.nextFirst = 0
      ∧ ((s 0 1).chan (1 - 1)).priority < ((s 0 1).chan 1).priority ∧ clashed.mayNotify = false := by
  unfold Channel.mayEnter; decide +kernel

/-! ## Witnesses: peers and notices -/

/-- An empty slot; a slot whose timers do not run, and slots in which each runs; a relay for station 3 through station 2. -/
theorem witness_SlotTimersAndRelays :
    let idle := { peer2 with silenceExpiry := none, uplink := none, freshExpiry := none }
    let slots (x : PeerSlot) := setSlot 0 (some x) up
    let m : List ReachEntry := [{ link := .degraded, looped := false, far := some 3 }]
    let cut : PeerSlot := { peer2 with station := 3, state := .severed }
    let s := setSlot 0 (some { peer2 with reachMap := some m }) (setSlot 1 (some cut) up)
    up.slot 0 = none ∧ (slots idle).slot 0 = some idle ∧ idle.silenceExpiry = none ∧ idle.joinExpiry = none
      ∧ idle.lingerExpiry = none ∧ idle.uplink = none ∧ idle.freshExpiry = none
      ∧ (slots peer2).slot 0 = some peer2 ∧ peer2.silenceExpiry = some 50 ∧ peer2.state ≠ .lost
      ∧ (slots peer2).slotOf peer2.station = some 0
      ∧ ({ slots peer2 with load := { divPeer := some 2 } } : State).load.divPeer = some peer2.station
      ∧ (slots { peer2 with state := .joining, joinExpiry := some 5 }).slot 0
          = some { peer2 with state := .joining, joinExpiry := some 5 }
      ∧ (slots { peer2 with state := .joining }).directX 2 = none
      ∧ ({ peer2 with joinExpiry := some 5 } : PeerSlot).state ≠ .joining
      ∧ ({ peer2 with state := .lost, lingerExpiry := some 5 } : PeerSlot).lingerExpiry = some 5
      ∧ peer2.uplink = some (100, 0) ∧ up.params.loadPeriod ≤ 100
      ∧ peer2.freshExpiry = some (0 + BitVec.ofNat 48 (4 * (up.params.loadPeriod * 1000)))
      ∧ (up.time.now - 0).toNat < 2 ^ 47 ∧ ({ peer2 with freshExpiry := none } : PeerSlot).uplink.isSome = true
      ∧ peer2.state ≠ .severed ∧ cut.state = .severed
      ∧ s.peer 2 = some { peer2 with reachMap := some m }
      ∧ (∀ r : Station, r.toNat < 2 → s.peer r = none)
      ∧ (⟨.degraded, false, some 3⟩ : ReachEntry) ∈ m ∧ up.peer 2 = none := by decide +kernel

/-- Section 5.5: at the default period an announced index is held for 40 ms. On an empty queue its expiry comes by itself, and
it stays stale after the station time has wrapped. -/
theorem test_announced_index_is_held_for_40_ms :
    let s (now : Time) (x : PeerSlot) := { setSlot 0 (some x) up with
      time := { up.time with now := now, sampleDue := 50000, secondDue := 50000, shareDue := 50000 } }
    let quiet : PeerSlot := { peer2 with silenceExpiry := none }
    (s 39999 quiet).freshness quiet = .fresh ∧ (s 40000 quiet).freshness quiet = .stale
      ∧ (s 40000 quiet).dueCommand = some (.loadFreshnessExpiry 0)
      ∧ (let t := after (.loadFreshnessExpiry 0) (s 0 quiet)
         t.time.now = 40000 ∧ t.slot 0 = some { quiet with freshExpiry := none }
          ∧ ({ t with time := { t.time with now := 5 } }).freshness { quiet with freshExpiry := none } = .stale) := by
  decide +kernel

/-- A HELLO payload: role, serial, part code, the fields that are not read, start state, flags. -/
def helloPayload (role ser phase flags : Byte) : List Byte :=
  [role, 0, 0, 0, ser, 0x48, 0x12] ++ List.replicate 10 0 ++ [phase, flags]

theorem hears_up : up.hearsFrom 2 15 ∧ paired.hearsFrom 2 1 := by unfold State.hearsFrom; decide +kernel

/-- A station without a slot: a COLLECTOR, a withdrawing switch, a switch with a free slot and with none. A station with a slot:
collision, LOST under another serial, kept, another serial, withdrawing, LOST and back, JOINING after RUNNING. -/
theorem witness_HelloMovesThePeerTable :
    let sw : HelloRx := { switch := true, serial := 9, phase := .running, conflict := false }
    up.hearsFrom 2 15 ∧ paired.hearsFrom 2 1 ∧ up.mayNotify = true ∧ paired.mayNotify = true
      ∧ readHello (helloPayload 1 9 2 0) = some sw ∧ readHello (helloPayload 2 9 2 0) = some { sw with switch := false }
      ∧ readHello (helloPayload 1 9 3 0) = some { sw with phase := .failsafe }
      ∧ readHello (helloPayload 1 9 1 0) = some { sw with phase := .joining }
      ∧ readHello (helloPayload 1 8 2 0) = some { sw with serial := 8 }
      ∧ sw.withdrawing = false ∧ ({ sw with phase := .failsafe } : HelloRx).withdrawing = true
      ∧ up.slotOf 2 = none ∧ up.slot 0 = none
      ∧ (let full := { up with peers := { slots := Vector.replicate 5 (some { peer2 with station := 9 }) } }
         full.slotOf 2 = none ∧ ∀ n : SlotNo, (full.slot n).isSome = true)
      ∧ (let last := { up with peers := { slots :=
           #v[some { peer2 with station := 9 }, some { peer2 with station := 8 }, some { peer2 with station := 7 },
              some { peer2 with station := 6 }, none] } }
         last.slot 4 = none ∧ ∀ m : SlotNo, m < 4 → (last.slot m).isSome = true)
      ∧ paired.slotOf 2 = some 0 ∧ paired.slot 0 = some peer2 ∧ peer2.collision = false ∧ peer2.state ≠ .lost
      ∧ peer2.serial = 9 ∧ peer2.seenRunning = true ∧ (setSlot 0 (some { peer2 with state := .lost }) paired).slot 0
          = some { peer2 with state := .lost } := by
  refine ⟨hears_up.1, hears_up.2, ?_⟩
  decide +kernel

/-- A HELLO one octet short at a station with a slot and at one without, and sound ones in CONFLICT and in FAILSAFE. -/
theorem witness_HelloMovesThePeerTable_heard :
    let failsafe := { up with loader := { phase := .failsafe, station := 1 } }
    (clashed.hearsFrom 2 15 ∧ failsafe.hearsFrom 2 15)
      ∧ (let short := (helloPayload 1 9 2 0).take 18
         short.length ≤ 120 ∧ readHello short = none ∧ (after (.helloReceived 2 1 short) paired).line.formatError = 1
          ∧ (after (.helloReceived 2 1 short) paired).slot 0 = some (paired.heardSlot peer2)
          ∧ (after (.helloReceived 2 15 short) up).peers = up.peers)
      ∧ (readHello (helloPayload 1 9 2 0)).isSome = true
      ∧ clashed.line.conflict = true ∧ failsafe.loader.phase = .failsafe
      ∧ after (.helloReceived 2 15 (helloPayload 1 9 2 0)) (setSlot 0 (some peer2) clashed)
          = setSlot 0 (some (clashed.heardSlot peer2)) clashed
      ∧ after (.helloReceived 2 15 (helloPayload 1 9 2 0)) failsafe = failsafe := by
  unfold State.hearsFrom; decide +kernel

theorem witness_OwnNumberHelloEntersConflict :
    up.loader.phase ≠ .loading ∧ up.loader.station ≠ 15#4 ∧ (helloPayload 1 9 2 0).length ≤ 120
      ∧ clashed.line.conflict = true ∧ up.line.conflict = false ∧ paired.slot 0 = some peer2 ∧ peer2.state ≠ .lost
      ∧ ({ paired with load := { divPeer := some 2 } } : State).load.divPeer.isSome = true := by decide +kernel

/-- A LINK and a LOAD payload of serial 9. -/
def linkPayload : List Byte := [0, 0, 0, 9, 0, 0, 0, 0, 0, 4] ++ List.replicate 9 0

def loadPayload : List Byte := [0, 0, 0, 9, 0x7F, 0xFF] ++ List.replicate 15 0

/-- A payload one octet short and one that reads; no slot, and a settled one of the same serial. -/
theorem witness_NoticesAreTakenIntoTheirSlot :
    up.hearsFrom 2 15 ∧ paired.hearsFrom 2 1
      ∧ readLink (linkPayload.take 18) = none ∧ readLoad (loadPayload.take 20) = none
      ∧ (readLink linkPayload).map (·.serial) = some 9
      ∧ (readLoad loadPayload).map (fun r => (r.serial, r.uplink)) = some (9, 32767)
      ∧ up.slotOf 2 = none ∧ paired.slotOf 2 = some 0 ∧ paired.slot 0 = some peer2 ∧ peer2.state ≠ .lost
      ∧ peer2.serial = 9 ∧ paired.settled peer2 := by
  refine ⟨hears_up.1, hears_up.2, ?_⟩
  unfold State.settled; decide +kernel

/-- A REACH of one item, and one of none; a station without a slot and with one; entries with the holder, with five others and
with four, no entry in a free and in a full bucket. -/
theorem witness_ReachItemsChangeTheHolders :
    let p : List Byte := [0, 0, 0, 9, 1, 7, 0, 0, 0, 0, 0, 2, 1]
    let h (n : Station) : Holder := { station := n, gen := 1, period := 0 }
    let e (hs : List Holder) := entry2 none hs
    let s (hs : List Holder) := withTable [(8992, e hs)] paired
    let full := withTable [(8992, { e [h 3] with addr := 90 }), (8993, { e [h 3] with addr := 91 }),
      (8994, { e [h 3] with addr := 92 }), (8995, { e [h 3] with addr := 93 })] paired
    paired.hearsFrom 2 1 ∧ up.hearsFrom 2 15
      ∧ readReach [0, 0, 0, 9, 0] = none ∧ readReach p = some { serial := 9, items := [⟨7, 2, .join⟩] }
      ∧ up.peer 2 = none ∧ paired.peer 2 = some peer2 ∧ peer2.state ≠ .lost ∧ peer2.serial = 9
      ∧ bucketFaulty (bucketOf 7 2) (s [h 2]) = false ∧ mapWf (s [h 2]).fwd.table = true
      ∧ (s [h 2]).peer 2 = some peer2 ∧ (s [h 2]).entryAt 7 2 = some (e [h 2])
      ∧ (∃ y ∈ (e [h 2]).holders, y.station = 2)
      ∧ (s [h 3, h 4, h 5, h 6]).entryAt 7 2 = some (e [h 3, h 4, h 5, h 6])
      ∧ (∀ y ∈ (e [h 3, h 4, h 5, h 6]).holders, y.station ≠ 2) ∧ (e [h 3, h 4, h 5, h 6]).holders.length < 5
      ∧ paired.entryAt 7 2 = none ∧ 8992 ∈ bucketSlots (bucketOf 7 2) ∧ mapFind paired.fwd.table 8992 = none
      ∧ (∀ j ∈ bucketSlots (bucketOf 7 2), 8992 ≤ j)
      ∧ full.entryAt 7 2 = none ∧ bucketFaulty (bucketOf 7 2) full = false
      ∧ (∀ i ∈ bucketSlots (bucketOf 7 2), (mapFind full.fwd.table i).isSome = true)
      ∧ keyIndex (s [h 2]).fwd.table 7 2 = some 8992 ∧ (e [h 2]).origin = .learned ∧ (e [h 2]).localPort = none
      ∧ (e [h 2]).holders.filter (fun y => y.station != 2) = []
      ∧ (e [h 2, h 3]).holders.filter (fun y => y.station != 2) ≠ [] := by
  refine ⟨hears_up.2, hears_up.1, ?_⟩
  decide +kernel

/-- Five holders: all of them known, and the first of an old generation; a bucket with an entry that fails its check. -/
theorem witness_ReachItemsChangeTheHolders_full :
    let h (n : Station) (g : BitVec 16) : Holder := { station := n, gen := g, period := 0 }
    let x (n : Station) : PeerSlot := { peer2 with station := n }
    let s (hs : List Holder) := { withTable [(8992, entry2 none hs)] up with
      peers := { slots := #v[some (x 2), some (x 3), some (x 4), some (x 5), some (x 6)] } }
    let live := [h 3 1, h 4 1, h 5 1, h 6 1, h 7 1]
    let old := [h 3 9, h 4 1, h 5 1, h 6 1, h 8 1]
    let bad := withTable [(8992, { entry2 (some 5) [] with intact := false })] paired
    (s live).peer 2 = some (x 2) ∧ bucketFaulty (bucketOf 7 2) (s live) = false ∧ mapWf (s live).fwd.table = true
      ∧ (s live).entryAt 7 2 = some (entry2 none live) ∧ (∀ y ∈ live, y.station ≠ 2) ∧ 5 ≤ live.length
      ∧ (∀ y ∈ live.take 4, ((s live).peer y.station).any (fun z => z.gen == y.gen) = true)
      ∧ (∀ z ∈ (s old).peer (h 3 9).station, z.gen ≠ (h 3 9).gen)
      ∧ (old.map fun z => z.station.toNat).Pairwise (· < ·)
      ∧ mapWf bad.fwd.table = true ∧ bucketFaulty (bucketOf 7 2) bad = true := by decide +kernel

/-! ## Witnesses: the group line -/

/-- A message of each kind. -/
def msg (b : Body) : TxMsg := { dst := 15, body := b }

def linkMsg : TxMsg := msg (.link 9 [] 4 0 false)

def helloMsg : TxMsg := msg (.hello 9 .running false false)

def loadMsg : TxMsg := msg (.load 9 0 [0, 0, 0, 0, 0] none 0 0 false)

def answerMsg : TxMsg := msg (.answer 7 5 none .none)

def reachMsg : TxMsg := msg (.reach 9 [])

def endReport : EndReport :=
  { chan := 0, interval := 1, causes := { exhausted := true }, cursor := 0, sent := 0, skipF := 0, skipU := 0, lost := 0
    seq := 0, dst := 2 }

def recordMsg : TxMsg := msg (.record 0 1 0 [])

/-- The controller not started, LINE_QUIET, a message on the line, nothing waiting; each slot as the lowest. -/
theorem witness_LineOffersTheLowestSlot :
    let all : GroupLine :=
      { wLink := some linkMsg, wHello := some helloMsg, wLoad := some loadMsg, answers := [answerMsg]
        wReach := some reachMsg, wEnd := some (msg (.endReport endReport)), wRecord := some recordMsg }
    let last : GroupLine := { wRecord := some recordMsg }
    cold.lineStarted = false ∧ ({ all with quiet := some 5 } : GroupLine).quiet.isSome = true
      ∧ ({ all with onLine := some helloMsg } : GroupLine).onLine.isSome = true ∧ up.line.wRecord = none
      ∧ up.loader.phase ≠ .loading ∧ up.loader.station ≠ 15#4 ∧ all.quiet = none ∧ all.onLine = none
      ∧ all.wLink = some linkMsg ∧ ({ all with wLink := none } : GroupLine).wHello = some helloMsg
      ∧ ({ all with wLink := none, wHello := none } : GroupLine).wLoad = some loadMsg
      ∧ ({ all with wLink := none, wHello := none, wLoad := none } : GroupLine).answers = answerMsg :: []
      ∧ last.wLink = none ∧ last.wHello = none ∧ last.wLoad = none ∧ last.answers = [] ∧ last.wReach = none
      ∧ ({ last with wReach := some reachMsg } : GroupLine).wReach = some reachMsg
      ∧ ({ last with wEnd := some (msg (.endReport endReport)) } : GroupLine).wEnd = some (msg (.endReport endReport))
      ∧ last.wEnd = none ∧ last.wRecord = some recordMsg := by decide +kernel

/-- Nothing on the line; a HELLO with and without a newer one; error counts 7 and 8; a withdrawn RECORD of a HELD channel; 31
discards. -/
theorem witness_MessagesComeBackFromTheLine :
    let s (m : TxMsg) := { up with line := { onLine := some m, discards := 31 } }
    let w := { up with
      line := { onLine := some { recordMsg with withdrawn := true } }
      chans := { ctx := #v[{ state := .held, outstanding := some { seq := 0, records := [], inSlot := true } }, {}] } }
    up.line.onLine = none ∧ (s helloMsg).line.onLine = some helloMsg ∧ helloMsg.withdrawn = false
      ∧ ({ (s helloMsg).line with wHello := some helloMsg } : GroupLine).newerWaits helloMsg = true
      ∧ (s helloMsg).line.newerWaits helloMsg = false ∧ ({ helloMsg with errors := 7 } : TxMsg).errors < 8
      ∧ 8 ≤ ({ helloMsg with errors := 8 } : TxMsg).errors ∧ (s helloMsg).line.discards + 1 = 32
      ∧ helloMsg.body.cls = 1 ∧ linkMsg.body.cls = 0 ∧ loadMsg.body.cls = 3
      ∧ answerMsg.body.cls = 4 ∧ answerMsg.restarts = false ∧ reachMsg.body.cls = 5
      ∧ recordMsg.body = .record 0 1 0 [] ∧ (s recordMsg).line.newerWaits recordMsg = false
      ∧ w.line.onLine = some { recordMsg with withdrawn := true } ∧ (w.chan 0).state ≠ .running
      ∧ (w.chan 0).pendingEnd = none := by decide +kernel

/-- At the ninth error: the answer to an accepted RESTART, and an END with none and with one made ready behind it. -/
theorem witness_MessagesComeBackFromTheLine_discarded :
    let restart : TxMsg := { msg (.answer 8 5 none .none) with errors := 8 }
    let s := { up with orders := { restartPending := true }, line := { onLine := some restart } }
    let e : TxMsg := { msg (.endReport endReport) with errors := 8 }
    let t := { up with line := { onLine := some e } }
    s.line.onLine = some restart ∧ restart.withdrawn = false ∧ s.line.newerWaits restart = false ∧ 8 ≤ restart.errors
      ∧ restart.body = .answer 8 5 none .none ∧ s.orders.restartPending = true
      ∧ t.line.onLine = some e ∧ e.withdrawn = false ∧ t.line.newerWaits e = false ∧ 8 ≤ e.errors
      ∧ e.body = .endReport endReport ∧ t.chans.readyEnds = []
      ∧ ({ t with chans := { readyEnds := [endReport] } } : State).chans.readyEnds = endReport :: []
      ∧ t.mayNotify = true ∧ t.line.wEnd = none := by decide +kernel

/-- Nothing on the line; each kind of message; an accepted RESTART pending; ENDs ready and none; a RECORD of a channel that is
not RUNNING, without an END and with a prepared one. -/
theorem witness_MessageCompletionServesItsOwner :
    let s (m : TxMsg) := { up with line := { onLine := some m } }
    let x : Channel := { state := .stopped, outstanding := some { seq := 0, records := [], inSlot := true } }
    let prepared : Channel := { x with state := .idle, pendingEnd := some ⟨{ halted := true }, .prepared⟩ }
    up.line.onLine = none ∧ (s helloMsg).line.onLine = some helloMsg ∧ helloMsg.body.cls = 1
      ∧ answerMsg.restarts = false ∧ up.orders.restartPending = false ∧ reachMsg.body.cls = 5
      ∧ (msg (.answer 8 5 none .none)).body = .answer 8 5 none .none
      ∧ ({ s (msg (.answer 8 5 none .none)) with orders := { restartPending := true } } : State).orders.restartPending = true
      ∧ (msg (.endReport endReport)).body = .endReport endReport ∧ up.chans.readyEnds = []
      ∧ ({ up with chans := { readyEnds := [endReport] } } : State).chans.readyEnds = endReport :: []
      ∧ up.mayNotify = true ∧ up.line.wEnd = none
      ∧ recordMsg.body = .record 0 1 0 [] ∧ x.state ≠ .running ∧ x.pendingEnd = none
      ∧ (({ up with chans := { ctx := #v[prepared, {}] } } : State).chan 0).pendingEnd
          = some ⟨{ halted := true }, .prepared⟩ ∧ prepared.state ≠ .running := by decide +kernel

/-- A HELLO of no octets from station 2 to station 0 with its check (from outside the model), cut short, ran on, and lengths 120
and 121. -/
theorem witness_ReceptionHandsMessagesOn_checks :
    let good : List Byte := [0x12, 0x00, 0, 0xE1, 0x9F]
    cold.lineStarted = false ∧ up.lineStarted = true ∧ (good.take 4).length < octetNat good 2 + 5
      ∧ octetNat good 2 + 5 < (good ++ [0]).length
      ∧ ¬ (good.length < octetNat good 2 + 5 ∨ fieldNat good (octetNat good 2 + 3) 2 ≠ crc16 (good.take (octetNat good 2 + 3))
        ∨ 120 < octetNat good 2 ∨ 8 ≤ octetNat good 0 / 16 ∨ octetNat good 0 % 16 = 15 ∨ octetNat good 2 + 5 < good.length)
      ∧ octetNat good 0 / 16 = 1 ∧ 120 < octetNat [0x12, 0, 121] 2 ∧ ¬ 120 < octetNat [0x12, 0, 120] 2
      ∧ 8 ≤ octetNat [0x82] 0 / 16 ∧ octetNat [0x1F] 0 % 16 = 15 := by decide +kernel

/-- This station's number, a station without a slot and one with; a message to another station. -/
theorem witness_ReceptionHandsMessagesOn :
    up.loader.phase ≠ .loading ∧ up.loader.station ≠ 15#4 ∧ (2 : Station) ≠ 15#4 ∧ (7 : BitVec 4).toNat < 8
      ∧ (1 : Station) = up.loader.station ∧ (4 : BitVec 4) ≠ 1#4 ∧ (2 : Station) ≠ up.loader.station
      ∧ up.slotOf 2 = none ∧ paired.slotOf 2 = some 0 ∧ paired.slot 0 = some peer2
      ∧ (0 : Station) ≠ paired.loader.station ∧ (0 : Station) ≠ 15#4 := by decide +kernel

/-! ## Witnesses: orders and export -/

/-- Station 2 is a collector. -/
def ordered : State := { up with orders := { collectors := [2] } }

/-- An order of a kind from station 2 with parameters is carried out at a state with the tables of these tests. -/
theorem carried {s : State} (kind : Byte) {ps : List Byte} (hl : s.loader = up.loader) (ho : s.orders = ordered.orders)
    (hi : s.line.conflict = false ∧ s.answerLength < 4) (hp : ps.length ≤ 117) : s.carriesOut kind 2 1 ps := by
  refine ⟨?_, ?_, by decide, ?_, ?_, hp, ?_, ?_, hi.2, .inr (.inr ⟨?_, hi.1⟩)⟩ <;> simp [hl, ho, up, ordered]

/-- A source that is no collector; destination 15; a restart pending; four answers; FAILSAFE and CONFLICT; kinds 0 and 9; RESTART
in RUNNING, FAILSAFE and CONFLICT. -/
theorem witness_OrderIntake :
    let full := { ordered with line := { answers := [answerMsg, answerMsg, answerMsg, answerMsg] } }
    let failsafe := { ordered with loader := { phase := .failsafe, station := 1 } }
    (up.hearsFrom 2 15 ∧ ordered.hearsFrom 2 1 ∧ failsafe.hearsFrom 2 1)
      ∧ (ordered.carriesOut 8 2 1 [] ∧ failsafe.carriesOut 8 2 1 []
        ∧ ({ ordered with line := { conflict := true } } : State).carriesOut 8 2 1 [])
      ∧ ([] : List Byte).length ≤ 117
      ∧ ¬ ((2 : Station) ∈ up.orders.collectors ∨ up.orders.anySource = true) ∧ (2 : Station) ∈ ordered.orders.collectors
      ∧ (1 : Station) ≠ 15#4 ∧ ({ ordered.orders with restartPending := true } : Orders).restartPending = true
      ∧ 4 ≤ full.answerLength ∧ ordered.orders.restartPending = false ∧ ordered.answerLength < 4
      ∧ failsafe.loader.phase = .failsafe ∧ clashed.line.conflict = true ∧ 8 < (9 : Byte).toNat := by
  unfold State.hearsFrom State.carriesOut
  refine ⟨?_, ?_, ?_⟩ <;> decide +kernel

/-- Kinds 0 and 9 by their octet; a STATUS and a START in FAILSAFE and in CONFLICT; a CLOSE_INTERVAL to all; a payload of 2 octets. -/
theorem witness_OrderIntake_kinds :
    let failsafe := { ordered with loader := { phase := .failsafe, station := 1 } }
    let silent := { ordered with line := { conflict := true } }
    ([6, 0] : List Byte).getD 0 (Config.missingOrderOctet 2 0) = 6
      ∧ failsafe.hearsFrom 2 15 ∧ silent.hearsFrom 2 1 ∧ ([9, 0, 0] : List Byte).length ≤ 120
      ∧ ¬ (1 ≤ (0 : Byte).toNat ∧ (0 : Byte).toNat ≤ 8) ∧ ¬ (1 ≤ (9 : Byte).toNat ∧ (9 : Byte).toNat ≤ 8)
      ∧ (1 ≤ (8 : Byte).toNat ∧ (8 : Byte).toNat ≤ 8)
      ∧ ((failsafe.loader.phase = .failsafe ∨ failsafe.line.conflict = true) ∧ (1 : Byte) ≠ 7 ∧ (1 : Byte) ≠ 8)
      ∧ (silent.loader.phase = .failsafe ∨ silent.line.conflict = true)
      ∧ ¬ ((ordered.loader.phase = .failsafe ∨ ordered.line.conflict = true) ∧ (6 : Byte) ≠ 7 ∧ (6 : Byte) ≠ 8)
      ∧ ([6, 0] : List Byte).length < 3 ∧ (1 : Byte) ≠ 6 ∧ (1 : Byte) ≠ 7 := by
  refine ⟨rfl, ?_⟩
  unfold State.hearsFrom; decide +kernel

/-- START_EXPORT of channel 0 from interval `n` to station `dst`, the tenants 7 to 9. -/
def startParams (n dst : Byte) : List Byte := [0, 0, 0, 0, n, 7, 9, 0, 0, 0, 0, 0, 0, dst, 0, 1]

/-- A record of tenant `t`. -/
def record (t : Tenant) : Record := recordOf (t.toNat * 4) {}

/-- Parameters of 15 octets; a busy channel; a missing interval; destinations 14 and 15; an interval without records and one of
three. -/
theorem witness_StartExportBeginsARun :
    let i (rs : List Record) : Interval := { number := 1, span := 1, opened := 0, closed := 1, marks := 0, records := rs }
    let s (rs : List Record) := { ordered with meter := { number := 2, queue := [i rs] } }
    let three := [record 7, record 8, record 9]
    let p : StartParams :=
      { chan := 0, interval := 1, low := 7, high := 9, stop := none, limit := 0, single := false, event := false
        translate := false, dst := 14, priority := 0, share := 1 }
    (s three).carriesOut 1 2 1 (startParams 1 14) ∧ (s []).carriesOut 1 2 1 (startParams 1 14)
      ∧ readStart ((startParams 1 14).take 15) = none ∧ readStart (startParams 1 14) = some p
      ∧ readStart (startParams 1 15) = some { p with dst := 15 } ∧ readChan (startParams 1 14) = some 0
      ∧ ((setChan 0 (fun x => { x with state := .held }) (s three)).chan 0).state ≠ .idle
      ∧ ((s three).chan 0).state = .idle ∧ ((s three).chan 0).outstanding = none ∧ ((s three).chan 0).pendingEnd = none
      ∧ ordered.named p.interval = none ∧ (s three).named p.interval = some (i three)
      ∧ (s three).interval (i three).number = some (i three) ∧ (s []).interval 1 = some (i []) ∧ 15 ≤ 15 ∧ ¬ 15 ≤ p.dst
      ∧ p.dst ≠ ordered.loader.station.toNat ∧ (i three).records = record 7 :: record 8 :: record 9 :: []
      ∧ p.low.toNat ≤ (record 7).tenant.toNat ∧ (record 8).tenant.toNat ≤ p.high.toNat
      ∧ (s three).line.wRecord = none ∧ (s three).line.sending 7 = false ∧ ((s three).chan 0).shareUsed < 1
      ∧ ((s three).chan (1 - 0)).outstanding = none := by
  refine ⟨carried 1 rfl rfl ⟨rfl, by decide⟩ (by decide), carried 1 rfl rfl ⟨rfl, by decide⟩ (by decide), ?_⟩
  decide +kernel

/-- A RUNNING channel under translation at the first of three records; a tenant entry that fails its check there; its RECORD on
the line, before and at the ninth error, and withdrawn. -/
theorem witness_RecordsAreProducedInOrder :
    let i : Interval :=
      { number := 1, span := 1, opened := 0, closed := 1, marks := 0, records := [record 7, record 8, record 9] }
    let x : Channel :=
      { state := .running, source := 1, filterLow := 7, filterHigh := 8, translate := true, stop := some (9, 9) }
    let s := { up with meter := { number := 2, queue := [i] }, chans := { ctx := #v[x, {}] } }
    let e := { tenant7 with entry := spoilt }
    let bad := { s with tenants := [(7, e)] }
    let line (m : TxMsg) := { s with line := { onLine := some m } }
    (s.chan 0).state = .running ∧ (s.chan 0).outstanding = none ∧ (s.chan 0).building = []
      ∧ s.interval (s.chan 0).source = some i ∧ (s.chan 0).cursor ≤ i.records.length
      ∧ (∀ y ∈ s.tenants, y.2.checkGood = true) ∧ mapWf s.tenants = true
      ∧ (bad.chan 0).translate = true ∧ (bad.chan 0).wants (record 7) = true
      ∧ ¬ (9 ≤ (record 7).tenant.toNat ∧ (record 7).tenant.toNat ≤ 9)
      ∧ mapFind bad.tenants (record 7).tenant.toNat = some e ∧ e.integ = .good ∧ e.checkGood = false
      ∧ (line recordMsg).line.onLine = some recordMsg ∧ recordMsg.body = .record 0 1 0 []
      ∧ ((line recordMsg).chan 0).state = .running ∧ recordMsg.withdrawn = false
      ∧ 8 ≤ ({ recordMsg with errors := 8 } : TxMsg).errors
      ∧ ({ recordMsg with withdrawn := true } : TxMsg).withdrawn = true := by decide +kernel

/-- Channel numbers 1 and 2; a channel in each state, settling, with its message ready, on the line, and none. -/
theorem witness_ChannelOrdersMoveTheirChannel :
    let s (x : Channel) := { ordered with chans := { ctx := #v[{}, x] } }
    let o : Outstanding := { seq := 0, records := [], inSlot := true }
    let onLine := { s { state := .running, outstanding := some o } with
      line := { onLine := some (msg (.record 1 1 0 [])) } }
    ((s {}).carriesOut 2 2 1 [2] ∧ (s {}).carriesOut 3 2 1 [2] ∧ (s {}).carriesOut 4 2 1 [2]
        ∧ (s { state := .held, outstanding := some o }).carriesOut 2 2 1 [1]
        ∧ (s { state := .running }).carriesOut 3 2 1 [1] ∧ onLine.carriesOut 2 2 1 [1] ∧ onLine.carriesOut 3 2 1 [1])
      ∧ readChan [2] = none ∧ readChan [1] = some 1
      ∧ (((s { state := .held, outstanding := some o }).chan 1).state ≠ .running
        ∧ ((s { state := .held, outstanding := some o }).chan 1).outstanding.isSome = true)
      ∧ ((s {}).chan 1).state = .idle ∧ ((s { state := .running }).chan 1).state = .running
      ∧ ((s { state := .running }).chan 1).outstanding = none ∧ (onLine.chan 1).outstanding = some o
      ∧ onLine.recordOnLine 1 = true ∧ (s { state := .running, outstanding := some o }).recordOnLine 1 = false
      ∧ ((s { state := .stopped }).chan 1).state = .stopped
      ∧ ((s { state := .stopped }).sourceRecords { state := .stopped }).length ≤ 0
      ∧ ((s { state := .stopped }).chan 1).building = [] := by
  refine ⟨?_, by decide +kernel⟩
  repeat' with_reducible apply And.intro
  all_goals exact carried _ rfl rfl ⟨rfl, by decide⟩ (by decide)

/-- A RUNNING channel whose RECORD waits in slot 7, with the other channel's message ready and with none; a channel that is resumed
with records left. -/
theorem witness_ChannelOrdersMoveTheirChannel_slot :
    let o : Outstanding := { seq := 0, records := [] }
    let x : Channel := { state := .running, source := 1, outstanding := some { o with inSlot := true } }
    let s (y : Channel) := { ordered with
      chans := { ctx := #v[x, y] }, line := { wRecord := some recordMsg } }
    let held := { ordered with
      chans := { ctx := #v[{ state := .held, source := 1 }, {}] }
      meter := { number := 2, queue := [{ number := 1, span := 1, opened := 0, closed := 1, marks := 0, records := [record 7] }] } }
    ((s {}).carriesOut 3 2 1 [0] ∧ (s {}).carriesOut 2 2 1 [0] ∧ held.carriesOut 4 2 1 [0]) ∧ readChan [0] = some 0
      ∧ ((s {}).chan 0).state = .running ∧ ((s {}).chan 0).outstanding = some { o with inSlot := true }
      ∧ (s {}).recordOnLine 0 = false ∧ ((s {}).chan (1 - 0)).outstanding = none
      ∧ ((s (ready 0)).chan (1 - 0)).mayEnter o ∧ (s (ready 0)).line.sending 7 = false
      ∧ (held.chan 0).state = .held ∧ (held.chan 0).outstanding = none
      ∧ (held.chan 0).pendingEnd = none ∧ (held.chan 0).cursor < (held.sourceRecords (held.chan 0)).length := by
  unfold Channel.mayEnter
  refine ⟨?_, by decide +kernel⟩
  repeat' with_reducible apply And.intro
  all_goals exact carried _ rfl rfl ⟨rfl, by decide⟩ (by decide)

/-- Parameters of 3 octets; a number that is not pending; one that a channel reads; one that may go, with and without a deferral.
A close with one and with two pending intervals. -/
theorem witness_IntervalOrdersCloseAndDiscard :
    let i (n : Count) : Interval := { number := n, span := 1, opened := 0, closed := 1, marks := 0, records := [] }
    let s (span : Nat) (q : List Interval) := { ordered with meter := { number := 3, span := span, queue := q } }
    let reading := setChan 0 (fun x => { x with state := .held, source := 1 }) (s 1 [i 1])
    (s 1 [i 1]).carriesOut 5 2 1 [0, 0, 0, 1] ∧ (s 1 [i 1]).carriesOut 6 2 15 [] ∧ ([0, 0, 0] : List Byte).length < 4
      ∧ (∀ x ∈ (s 1 [i 2]).meter.queue, x.number ≠ BitVec.ofNat 32 (fieldNat [0, 0, 0, 1] 0 4))
      ∧ (∃ x ∈ reading.meter.queue, x.number = BitVec.ofNat 32 (fieldNat [0, 0, 0, 1] 0 4))
      ∧ (reading.chan 0).state ≠ .idle ∧ (reading.chan 0).source = 1
      ∧ (s 2 [i 1]).mayDiscard 1 ∧ (s 1 [i 1]).meter.span ≤ 1 ∧ 1 < (s 2 [i 1]).meter.span
      ∧ (s 2 [i 1]).meter.number ≠ BitVec.allOnes 32 ∧ (s 2 [i 1]).accsGood ∧ (s 1 [i 1]).acting = true
      ∧ 2 ≤ (s 1 [i 1, i 2]).meter.queue.length ∧ (s 1 [i 1]).meter.queue.length < 2 := by
  refine ⟨carried 5 rfl rfl ⟨rfl, by decide⟩ (by decide), ?_, by decide, by decide +kernel, by decide +kernel,
    by decide +kernel, by decide +kernel, ?_, by decide, by decide, by decide, ⟨by decide, by decide, fun _ => rfl⟩,
    by decide, by decide, by decide⟩
  · unfold State.carriesOut; decide +kernel
  · unfold State.mayDiscard; decide +kernel

/-- Each subject with its last part and the part above it, ports 32 and 33, from FAILSAFE. -/
theorem witness_StatusReportsTheState :
    let failsafe := { ordered with loader := { phase := .failsafe, station := 1 } }
    (∀ k : Fin 1024, (ordered.acc k.val).checkGood = true)
      ∧ failsafe.carriesOut 7 2 15 [1, 0, 3] ∧ ordered.carriesOut 7 2 1 [2, 32, 1] ∧ 3 ≤ ([1, 0, 3] : List Byte).length
      ∧ octetNat [0, 0, 0] 0 = 0 ∧ 5 < octetNat [6, 0, 0] 0 ∧ octetNat [1, 0, 3] 2 = 3 ∧ 3 < octetNat [1, 0, 4] 2
      ∧ (32 : Port).val = octetNat [2, 32, 1] 1 ∧ 32 < octetNat [2, 33, 1] 1 ∧ 1 < octetNat [2, 32, 2] 2
      ∧ (4 : SlotNo).val = octetNat [3, 0, 4] 2 ∧ 4 < octetNat [3, 0, 5] 2
      ∧ (255 : Tenant).toNat = octetNat [4, 255, 1] 1 ∧ 1 < octetNat [4, 255, 2] 2
      ∧ octetNat [5, 0, 2] 2 = 2 ∧ 2 < octetNat [5, 0, 3] 2 := by
  refine ⟨fun _ => rfl, ?_⟩
  unfold State.carriesOut; decide +kernel

/-- Bonds 1 and 63 with a member that takes frames. -/
theorem witness_StatusReportsTheState_bonds :
    let s := setPort (sPort 0) (fun u => { u with bond := some 63 }) (setPort (sPort 23) (fun u => { u with bond := some 1 }) up)
    0 < (1 : Fin 64).val ∧ (s.port (sPort 0)).bond = some (63 : Fin 64).val ∧ s.takesFrames (sPort 0)
      ∧ (s.port (sPort 23)).bond = some (1 : Fin 64).val ∧ s.takesFrames (sPort 23) := by
  unfold State.takesFrames; decide +kernel

/-! ## Witnesses: event links, start and refetch -/

/-- A link that matches with and without its qualifier, and one that does not; hold-off counts 0, 1 and 2; a state that takes no
events; a full interval queue; a channel that listens. -/
theorem witness_EventLinksActAndHoldOff :
    let l (n : Nat) (pend : Bool) : EventLink :=
      { source := .portDown, qual := some 5, action := .sendLoad, holdOff := 3, count := n, pend := pend }
    let s (x : EventLink) := { up with links := [(15, x)] }
    let i : Interval := { number := 1, span := 1, opened := 0, closed := 1, marks := 0, records := [] }
    mapFind (s (l 0 false)).links 15 = some (l 0 false)
      ∧ ((l 0 false).source = (⟨.portDown, some 5⟩ : Event).source ∧ (l 0 false).qual = (⟨.portDown, some 5⟩ : Event).qual)
      ∧ ¬ ((l 0 false).qual = none ∨ (l 0 false).qual = (⟨.portDown, some 6⟩ : Event).qual)
      ∧ 0 < (l 1 true).count ∧ (l 0 false).count = 0 ∧ ((l 1 true).count = 1 ∧ (l 1 true).pend = true)
      ∧ ¬ ((l 2 true).count = 1 ∧ (l 2 true).pend = true) ∧ cold.acting = false ∧ up.mayNotify = true
      ∧ clashed.mayNotify = false ∧ up.acting = true
      ∧ 2 ≤ ({ up with meter := { queue := [i, { i with number := 2 }] } } : State).meter.queue.length
      ∧ (up.chan 0).state ≠ .running
      ∧ ((setChan 0 (fun x => { x with state := .running, event := true }) up).chan 0).state = .running
      ∧ ((setChan 0 (fun x => { x with state := .running, event := true }) up).chan 0).event = true := by decide +kernel

/-- A SAMPLE lowers the count 2 of one place and lets the link of another act; in LOADING it leaves the links alone. -/
theorem witness_EventLinksActAndHoldOff_sample :
    let l (n : Nat) (pend : Bool) : EventLink :=
      { source := .portDown, qual := none, action := .markInterval 4, holdOff := 3, count := n, pend := pend }
    let s := { up with links := [(0, l 2 true), (15, l 1 true)] }
    s.acting = true ∧ mapWf s.links = true ∧ (after .sample s).links = [(0, l 1 true), (15, l 3 false)]
      ∧ (after .sample s).meter.marks = 0x10 ∧ cold.acting = false := by decide +kernel

/-- Links in their form, none of which closes at a close; a close with good accumulators. -/
theorem witness_EventLinksActAndHoldOff_closes :
    let l : EventLink :=
      { source := .portDown, qual := none, action := .closeInterval, holdOff := 0, count := 0, pend := false }
    let s := { up with links := [(0, l), (15, { l with source := .intervalClosed, action := .markInterval 7 })] }
    mapWf s.links = true ∧ s.linksEnd ∧ s.acting = true ∧ (mapFind s.links 0).isSome = true
      ∧ s.meter.queue.length < 2 ∧ s.meter.number ≠ BitVec.allOnes 32 ∧ s.accsGood := by
  unfold State.linksEnd
  and_intros <;> first | decide +kernel | exact fun _ => rfl

/-- The smallest sound image: no section (its check from outside the model). -/
def bareImage : List Byte := [0x4E, 0x53, 0x43, 0x49, 0, 1, 0, 0, 0, 20, 0, 0, 0, 0, 0, 0, 0xC5, 0xC1, 0x14, 0xD1]

/-- An image with one tariff (its checks from outside the model). -/
def tariffImage : List Byte :=
  [0x4E, 0x53, 0x43, 0x49, 0, 1, 0, 0, 0, 45, 1, 0, 0, 0, 0, 0, 0, 5, 0, 1, 0, 0, 0, 28, 0, 0, 0, 13,
   0, 0, 1, 0, 2, 0, 3, 0, 4, 0, 5, 0x3D, 0x78, 0x69, 0x2F, 0x30, 0xB8]

/-- Outside LOADING, in LOADING with a sound image and with a fault, under strap 14 and 15, with and without carrier. -/
theorem witness_ImageLoadEndsLoading :
    up.loader.phase ≠ .loading ∧ cold.loader.phase = .loading ∧ cold.loader.station ≠ 15#4
      ∧ structuralFault cold.loader.station bareImage = none
      ∧ structuralFault cold.loader.station (bareImage.take 19) = some 5
      ∧ (cold.port 0).link = .down ∧ cold.line.conflict = false
      ∧ ∀ u : Fin 4, ((after (.imageLoadComplete bareImage) cold).port (uPort u)).link = .down := by decide +kernel

/-- An image with a FIXED entry and a collector (its checks from outside the model). -/
def fixedImage : List Byte :=
  [78, 83, 67, 73, 0, 1, 0, 0, 0, 55, 2, 0, 0, 0, 0, 0, 0, 6, 0, 1, 0, 0, 0, 40, 0, 0, 0, 10, 0, 8, 0, 1, 0, 0, 0, 50,
   0, 0, 0, 1, 7, 0, 0, 0, 0, 0, 2, 5, 192, 225, 2, 74, 95, 153, 109]

/-- The image's entries, kept and listed. -/
theorem witness_TheImageFillsTheTables :
    cold.fresh ∧ structuralFault cold.loader.station fixedImage = none
      ∧ keptFixed (fixedOf fixedImage) = [(0,
          { tenant := 7, addr := 2, localPort := some 5, entry := { octets := [7, 0, 0, 0, 0, 0, 2, 5], check := 0xC0E1 } })]
      ∧ (entriesOfKind fixedImage 8).length = 1 ∧ entriesOfKind fixedImage 3 = []
      ∧ (lastOf (entriesOfKind tariffImage 5) 0).isSome = true := by
  refine ⟨⟨fun b hb => ?_, rfl, rfl, by decide +kernel⟩, ?_⟩
  · cases b <;> first | rfl | exact absurd (by decide) hb
  · decide +kernel

/-- An image with a STATION pair and a collector and a wrong image check (from outside the model), and one without them. -/
theorem witness_ImageValuesAreClamped :
    let img : List Byte :=
      [78, 83, 67, 73, 0, 1, 0, 0, 0, 50, 2, 0, 0, 0, 0, 0, 0, 1, 0, 1, 0, 0, 0, 40, 0, 0, 0, 5, 0, 8, 0, 1, 0, 0, 0, 45,
       0, 0, 0, 1, 7, 0, 0, 0, 200, 3, 91, 171, 90, 122]
    let placed (img : List Byte) (kind : Nat) : Option Sect :=
      (((sectionsOf img).take 8).find? fun d => d.kind == kind).filter fun d =>
        decide (fieldNat img 0 4 = 0x4E534349 ∧ d.offset + d.len ≤ fieldNat img 6 4 ∧ d.offset + d.len ≤ img.length)
    cold.loader.phase = .loading ∧ structuralFault cold.loader.station img = some 5
      ∧ placed img 1 = some { kind := 1, count := 1, offset := 40, len := 5 }
      ∧ placed img 8 = some { kind := 8, count := 1, offset := 45, len := 1 }
      ∧ cold.loader.clamps = 0 ∧ cold.orders.collectors = []
      ∧ structuralFault cold.loader.station (bareImage.take 19) = some 5 ∧ placed (bareImage.take 19) 1 = none
      ∧ placed (bareImage.take 19) 8 = none := by decide +kernel

/-- Straps of 15; a marker, a version and a length of 19 that are wrong, a section count of 9; a delivered length one short, a wrong
check; a sound image with one checked entry. -/
theorem witness_StructuralFaultsAreFoundInOrder :
    (15 : Station) = 15#4 ∧ (14 : Station) ≠ 15#4 ∧ fieldNat [0x4E, 0x53, 0x43, 0x48] 0 4 ≠ 0x4E534349
      ∧ fieldNat bareImage 0 4 = 0x4E534349 ∧ fieldNat [0, 0, 0, 0, 0, 2] 4 2 ≠ 1 ∧ fieldNat bareImage 4 2 = 1
      ∧ fieldNat (bareImage.set 9 19) 6 4 < 20 ∧ 8 < octetNat (bareImage.set 10 9) 10 ∧ fieldNat bareImage 6 4 = 20
      ∧ octetNat bareImage 10 ≤ 8 ∧ 16 + 12 * octetNat bareImage 10 ≤ fieldNat bareImage 6 4
      ∧ (bareImage.take 19).length < fieldNat bareImage 6 4
      ∧ fieldNat (bareImage.set 19 0) 16 4 ≠ imageCheck ((bareImage.set 19 0).take 16)
      ∧ structuralFault 14 tariffImage = none
      ∧ (sectionEntries tariffImage 5 13).length = 1 := by decide +kernel

/-- Sound headers and checks over a collector section one octet too long, over five collectors, and over a tariff with a wrong entry
check (from outside the model): faults 6, 7 and 8 have their form. -/
theorem witness_StructuralFaultsAreFoundInOrder_sections :
    let header (n k c l : Byte) : List Byte :=
      [78, 83, 67, 73, 0, 1, 0, 0, 0, n, 1, 0, 0, 0, 0, 0, 0, k, 0, c, 0, 0, 0, 28, 0, 0, 0, l]
    let six := header 33 8 1 2 ++ [3, 115, 62, 82, 163]
    let seven := header 37 8 5 5 ++ [2, 3, 4, 5, 6, 18, 120, 0, 76]
    let eight := header 45 5 1 13 ++ [0, 0, 1, 0, 2, 0, 3, 0, 4, 0, 5, 61, 121, 109, 238, 45, 15]
    let sound (img : List Byte) : Prop := fieldNat img 0 4 = 0x4E534349 ∧ fieldNat img 4 2 = 1
      ∧ fieldNat img 6 4 = img.length ∧ 20 ≤ fieldNat img 6 4 ∧ octetNat img 10 = 1
      ∧ fieldNat img (img.length - 4) 4 = imageCheck (img.take (img.length - 4))
    (sound six ∧ ∃ d ∈ sectionsOf six, d.len ≠ d.count * entryOctets d.kind)
      ∧ (sound seven ∧ ∃ d ∈ sectionsOf seven, d.kind = 8 ∧ 4 < d.count)
      ∧ sound eight ∧ ∃ d ∈ sectionsOf eight, d.kind = 5 ∧ ∃ e ∈ entriesOf eight d,
          fieldNat e 11 2 ≠ crc16 (e.take 11) := by decide +kernel

/-- An empty queue; a QUEUED tariff at the front, a good and a cut read, with 1 and with 2 failures. -/
theorem witness_RefetchReadRestoresOrFails :
    let s (n : Nat) := { up with
      tariffs := [(0, { fee := 1, integ := .queued })]
      loader := { up.loader with refetch := [⟨.tariff, 0⟩], failures := n } }
    let e : List Byte := [0, 0, 1, 0, 2, 0, 3, 0, 4, 0, 5, 0x3D, 0x78]
    up.loader.refetch = [] ∧ cold.acting = false ∧ (s 1).acting = true ∧ (s 1).loader.refetch = ⟨.tariff, 0⟩ :: []
      ∧ (e.length = 13 ∧ fieldNat e 11 2 = crc16 (e.take 11)) ∧ (e.take 12).length ≠ 13 ∧ (s 1).loader.failures < 2
      ∧ 2 ≤ (s 2).loader.failures ∧ (s 1).integCount .waiting = 0 ∧ ((s 1).tariff 0).integ = .queued
      ∧ (s 2).tablesWf ∧ (s 2).integOf ⟨.tariff, 0⟩ = some .queued := by
  unfold State.tablesWf; decide +kernel

/-- R188: the check that came with a rule is stored with it, and its test fails when one bit of what is stored has changed (check
from outside the model). -/
theorem test_stored_check :
    let rule : List Byte := [0, 0, 0, 0, 0, 255, 255, 255, 0, 0, 0, 7, 1, 2, 130, 138]
    let r := (readRule rule).1
    r.entry = { octets := rule.take 14, check := 0x828A } ∧ r.checkGood = true
      ∧ ({ r with entry := { r.entry with check := 0x828B } } : Rule).checkGood = false
      ∧ ({ r with entry := { r.entry with octets := r.entry.octets.set 12 3 } } : Rule).checkGood = false
      ∧ tenantZero.checkGood = true := by decide +kernel

/-- A QUEUED entry of each other kind with its good read, and a WAITING tariff behind it. -/
theorem witness_RefetchReadRestoresOrFails_kinds :
    let rule : List Byte := [0, 0, 0, 0, 0, 255, 255, 255, 0, 0, 0, 7, 1, 2, 130, 138]
    let tenant : List Byte := [7, 0, 0, 0, 0, 0, 0, 0, 0, 0, 0, 0, 0, 0, 0, 0, 2, 149]
    let s (i : CfgItem) := { up with
      rules := [(0, { rule7 with integ := .queued })], tenants := [(7, { tenant7 with integ := .queued })]
      tariffs := [(1, { fee := 1, integ := .waiting })], loader := { up.loader with refetch := [i] } }
    (s ⟨.rule, 0⟩).acting = true ∧ (s ⟨.rule, 0⟩).loader.refetch = ⟨.rule, 0⟩ :: []
      ∧ (rule.length = cfgOctets .rule ∧ fieldNat rule 14 2 = crc16 (rule.take 14))
      ∧ (tenant.length = cfgOctets .tenant ∧ fieldNat tenant 16 2 = crc16 (tenant.take 16))
      ∧ (s ⟨.rule, 0⟩).tablesWf ∧ (s ⟨.rule, 0⟩).integOf ⟨.rule, 0⟩ = some .queued
      ∧ (s ⟨.tenant, 7⟩).integOf ⟨.tenant, 7⟩ = some .queued ∧ (s ⟨.rule, 0⟩).integOf ⟨.tariff, 1⟩ = some .waiting := by
  unfold State.tablesWf; decide +kernel

/-- A FIXED entry with and without a local port: its key has an entry, a free slot, a victim, and a full bucket of entries with
local ports, the oldest in its third slot. -/
theorem witness_RefetchReadRestoresOrFails_fixed :
    let e : List Byte := [7, 0, 0, 0, 0, 0, 1, 5, 149, 178]
    let cfg : FixedCfg := { tenant := 7, addr := 1, localPort := some 5, integ := .queued }
    let s (t : List (Nat × FwdEntry)) := { withTable t up with
      fixed := [(0, cfg)], loader := { up.loader with refetch := [⟨.fixed, 0⟩] } }
    let own : FwdEntry := { entry2 (some 4) [] with addr := 1 }
    let old : FwdEntry := { entry2 (some 6) [] with addr := 92, age := 9 }
    let ported := s (mapInsert fullBucket 8878 old)
    (∃ v, (s fullBucket).isVictim (bucketOf 7 1) 8878 v)
      ∧ (e.length = cfgOctets .fixed ∧ fieldNat e 8 2 = crc16 (e.take 8))
      ∧ (readFixedEntry e).1 = { cfg with integ := .good, entry := { octets := e.take 8, check := 38322 } }
      ∧ (readFixedEntry [7, 0, 0, 0, 0, 0, 1, 255, 219, 231]).1.localPort = none
      ∧ (s []).integOf ⟨.fixed, 0⟩ = some .queued ∧ bucketFaulty (bucketOf 7 1) (s fullBucket) = false
      ∧ mapWf (s fullBucket).fwd.table = true ∧ mapWf ported.fwd.table = true
      ∧ (s [(8877, own)]).entryAt 7 1 = some own ∧ (s []).entryAt 7 1 = none
      ∧ 8876 ∈ bucketSlots (bucketOf 7 1) ∧ mapFind (s []).fwd.table 8876 = none
      ∧ (∀ j ∈ bucketSlots (bucketOf 7 1), 8876 ≤ j)
      ∧ (∀ j ∈ bucketSlots (bucketOf 7 1), (mapFind (s fullBucket).fwd.table j).isSome = true)
      ∧ (∀ j ∈ bucketSlots (bucketOf 7 1), ∀ h ∈ mapFind ported.fwd.table j, h.localPort ≠ none
          ∧ (h.age < old.age ∨ (h.age = old.age ∧ 8878 ≤ j)))
      ∧ mapFind ported.fwd.table 8878 = some old ∧ old.origin = .learned := by
  refine ⟨⟨_, fullBucket_victim rfl⟩, ?_⟩
  decide +kernel

/-- Charge units at the largest value and one below it. -/
theorem witness_RatingIsExact :
    ({ charge := BitVec.allOnes 48 } : Accumulator).charge.toNat = 2 ^ 48 - 1
      ∧ ({ charge := BitVec.allOnes 48 - 1 } : Accumulator).charge.toNat < 2 ^ 48 - 1 := by decide

/-- An untagged and a tagged frame. -/
theorem witness_FlowBucketIsTheCyclicCheck :
    fieldNat frame12 12 2 ≠ 0x8100 ∧ fieldNat (List.replicate 12 0 ++ [0x81, 0]) 12 2 = 0x8100 := by decide +kernel

/-! ## Witnesses: the laws -/

/-- A step answers a next state. -/
def steps (s : State) : Bool :=
  match step s with
  | .next _ => true
  | _ => false

theorem next_of_steps {s : State} (h : steps s = true) : ∃ t, step s = .next t := by
  unfold steps at h; split at h
  · exact ⟨_, by assumption⟩
  · cases h

/-- Tenant 7 listed and tenant 9 denied in mode ON, with a SAMPLE waiting. -/
theorem witness_RestraintAndLoadLawsAreKept_list :
    let s := { up with
      pending := [.sample], restraint := { up.restraint with on := true, list := [(7, 0)], denied := [9] } }
    s.restraintLaw ∧ ∃ t, step s = .next t := by
  refine ⟨?_, next_of_steps (by decide +kernel)⟩
  unfold State.restraintLaw; decide +kernel

/-- A share of 256 with a peer, and of 1,024 while ISOLATED. -/
theorem witness_RestraintAndLoadLawsAreKept :
    let s := { offloading false 256 (some 2) with pending := [.sample] }
    let i := { offloading true 1024 (some 2) with pending := [.sample] }
    (s.shareLaw ∧ s.indexLaw ∧ ∃ t, step s = .next t) ∧ i.shareLaw ∧ ∃ t, step i = .next t := by
  refine ⟨⟨?_, ?_, next_of_steps (by decide +kernel)⟩, ?_, next_of_steps (by decide +kernel)⟩
  · unfold State.shareLaw; decide +kernel
  · unfold State.indexLaw; decide +kernel
  · unfold State.shareLaw; decide +kernel

/-- A slot whose announced index is fresh, with a SAMPLE waiting. -/
theorem witness_SlotTimersAndRelays_law :
    let s := { paired with pending := [.sample] }
    s.viewLaw ∧ (s.slot 0).map (·.freshExpiry) = some (some 40000) ∧ ∃ t, step s = .next t := by
  refine ⟨⟨?_, nofun⟩, by decide +kernel, next_of_steps (by decide +kernel)⟩
  intro n x t h k
  rcases n with ⟨_ | n, hn⟩
  · obtain rfl : peer2 = x := Option.some.inj h
    exact ⟨100, 0, rfl, (Option.some.inj k).symm⟩
  · exact nomatch (show none = some x from
      (by decide +kernel : ∀ m : Fin 4, paired.slot m.succ = none) ⟨n, by omega⟩ ▸ h)

/-- An entry with a holder and a queued item, with a sweep visit waiting. -/
theorem witness_ForwardingLawsAreKept :
    let s := { paired with
      pending := [.sweepVisit]
      fwd := { table := [(8992, entry2 (some 5) [{ station := 2, gen := 1, period := 0 }])], queue := [⟨7, 2, .join⟩]
               sweep := some 8992 } }
    s.tableLaw ∧ s.reachLaw ∧ ∃ t, step s = .next t := by
  refine ⟨?_, ?_, next_of_steps (by decide +kernel)⟩
  · unfold State.tableLaw; decide +kernel
  · unfold State.reachLaw; decide +kernel

/-- A HELD channel at the end of its source, with an INTERVAL_END waiting. -/
theorem witness_IntervalLawsAreKept :
    let i : Interval := { number := 1, span := 1, opened := 0, closed := 1, marks := 0, records := [record 7] }
    let s := { up with
      pending := [.intervalEnd], time := { intervalDue := some 5 }, meter := { number := 2, queue := [i] }
      chans := { ctx := #v[{ state := .held, source := 1, cursor := 1 }, {}] } }
    s.intervalLaw ∧ s.cursorLaw ∧ ∃ t, step s = .next t := by
  refine ⟨?_, ?_, next_of_steps (by decide +kernel)⟩
  · unfold State.intervalLaw; decide +kernel
  · unfold State.cursorLaw; decide +kernel

/-- An accumulator with a count, a pending interval, and an INTERVAL_END waiting. -/
theorem witness_MeterLawsAreKept :
    let i : Interval := { number := 1, span := 1, opened := 0, closed := 1, marks := 0, records := [record 7] }
    let s := { up with
      pending := [.intervalEnd], time := { intervalDue := some 5 }
      meter := { number := 2, queue := [i], accs := [(29, { outF := 1 })] } }
    s.accLaw ∧ s.intervalLaw ∧ (∀ straps, s.pending.head? ≠ some (.fullReset straps))
      ∧ (s.acc (accKey 7 1)).checkGood = true ∧ (s.acc (accKey 7 1)).outF = 1 ∧ ∃ t, step s = .next t := by
  refine ⟨?_, ?_, (fun _ h => nomatch h), by decide +kernel, by decide +kernel, next_of_steps (by decide +kernel)⟩
  · unfold State.accLaw; decide +kernel
  · unfold State.intervalLaw; decide +kernel

/-- The reset state with an image load waiting. -/
theorem witness_CellsAreConserved :
    let s := { cold with pending := [.imageLoadComplete bareImage] }
    s.cellLaw ∧ ∃ t, step s = .next t := by
  refine ⟨⟨by decide +kernel, fun t => ?_, rfl, by decide +kernel⟩, next_of_steps (by decide +kernel)⟩
  have : State.allCopies { cold with pending := [.imageLoadComplete bareImage] } = [] := by decide +kernel
  rw [this]; rfl

/-- A silent station in FAILSAFE with an answer on the line. -/
theorem witness_SilenceLawIsKept :
    let s := { up with
      pending := [.arbitrationLost], loader := { phase := .failsafe, station := 1 }, line := { onLine := some answerMsg } }
    s.silenceLaw ∧ ∃ t, step s = .next t := by
  refine ⟨⟨fun _ => ⟨rfl, rfl, rfl, rfl, rfl, fun m h => ?_⟩, ?_⟩, next_of_steps (by decide +kernel)⟩
  · cases (show some answerMsg = some m from h); rfl
  · unfold PortQueues.quiet; decide +kernel

end Sys2Proof.Tests
end

section
/-! How much of the loader an operation may change. The frames of Laws/Frames.lean name the loader as a whole block; here
each operation that reads checked entries is shown to leave all of it but the refetch queue and the integrity counts. -/

namespace Sys2Proof.Machine

/-- Of the loader, at most the refetch queue with its failures and the two integrity counts differ. -/
def RefetchOnly (s t : State) : Prop :=
  ∃ faults failed queue failures, t.loader = { s.loader with
    integrityFaults := faults, refetchFailed := failed, refetch := queue, failures := failures }

theorem RefetchOnly.phase {s t : State} (h : RefetchOnly s t) : t.loader.phase = s.loader.phase := by
  obtain ⟨_, _, _, _, h⟩ := h; rw [h]

theorem RefetchOnly.station {s t : State} (h : RefetchOnly s t) : t.loader.station = s.loader.station := by
  obtain ⟨_, _, _, _, h⟩ := h; rw [h]

theorem RefetchOnly.of_loader {s t : State} (h : t.loader = s.loader) : RefetchOnly s t := ⟨_, _, _, _, h⟩

theorem RefetchOnly.of_frame {l : List Block} {s t : State} (h : Frame l s t) (k : Block.loader ∉ l) :
    RefetchOnly s t := .of_loader (h.loader k)

theorem RefetchOnly.refl (s : State) : RefetchOnly s s := .of_loader rfl

theorem RefetchOnly.trans {s t u : State} (h : RefetchOnly s t) (k : RefetchOnly t u) : RefetchOnly s u := by
  obtain ⟨_, _, _, _, h⟩ := h
  obtain ⟨_, _, _, _, k⟩ := k
  exact ⟨_, _, _, _, by rw [k, h]⟩

theorem RefetchOnly.andThen {s : State} {o : Out} {f : State → Out} (h : RefetchOnly s o.st)
    (k : ∀ t, RefetchOnly t (f t).st) : RefetchOnly s (o.andThen f).st := h.trans (k o.st)

theorem RefetchOnly.also {s : State} {o : Out} {f : State → State} (h : RefetchOnly s o.st)
    (k : ∀ t, RefetchOnly t (f t)) : RefetchOnly s (o.also f).st := h.trans (k o.st)

theorem RefetchOnly.eachOut {α : Type} {f : α → State → Out} (k : ∀ a t, RefetchOnly t (f a t).st)
    (as : List α) (s : State) : RefetchOnly s (eachOut f as s).st := by
  induction as generalizing s with
  | nil => exact .refl s
  | cons a as ih => exact (k a s).trans (ih _)

theorem RefetchOnly.eachState {α : Type} {f : α → State → State} (k : ∀ a t, RefetchOnly t (f a t))
    (as : List α) (s : State) : RefetchOnly s (eachState f as s) := by
  induction as generalizing s with
  | nil => exact .refl s
  | cons a as ih => exact (k a s).trans (ih _)

/-! ## Integrity faults (R193) -/

theorem integrityFault_refetchOnly (s : State) : RefetchOnly s (integrityFault s).st := ⟨_, _, _, _, rfl⟩

theorem setInteg_refetchOnly (i : CfgItem) (v : Integrity) (s : State) : RefetchOnly s (setInteg i v s) :=
  .of_frame (setInteg_frame i v s) (by decide)

theorem requestRefetch_refetchOnly (i : CfgItem) (s : State) : RefetchOnly s (requestRefetch i s) := by
  unfold requestRefetch
  split
  · exact RefetchOnly.trans ⟨_, _, _, _, rfl⟩ (setInteg_refetchOnly _ _ _)
  · exact setInteg_refetchOnly _ _ _

theorem configFault_refetchOnly (i : CfgItem) (s : State) : RefetchOnly s (configFault i s).st :=
  (requestRefetch_refetchOnly i s).trans (integrityFault_refetchOnly _)

/-! ## Forwarding table -/

theorem entryFault_refetchOnly (i : Nat) (e : FwdEntry) (s : State) : RefetchOnly s (entryFault i e s).st := by
  have dropped : RefetchOnly s
      (if e.localPort.isSome then queueReach .leave e.tenant e.addr (dropEntry i s) else dropEntry i s) := by
    split
    · exact .of_frame ((dropEntry_frame i s).seq (queueReach_frame _ _ _ _) (n := [.fwd, .line]) (by decide)
        (by decide)) (by decide)
    · exact .of_loader rfl
  unfold entryFault
  cases e.origin with
  | learned => exact dropped.trans (integrityFault_refetchOnly _)
  | fixed n => exact dropped.trans (configFault_refetchOnly _ _)

theorem testSlot_refetchOnly (i : Nat) (s : State) : RefetchOnly s (testSlot i s).st := by
  unfold testSlot
  split
  · split
    · exact .refl s
    · exact entryFault_refetchOnly _ _ s
  · exact .refl s

theorem testBucket_refetchOnly (b : Nat) (s : State) : RefetchOnly s (testBucket b s).st :=
  .eachOut testSlot_refetchOnly _ s

theorem lookup_refetchOnly (t : Tenant) (a : Addr) (s : State) : RefetchOnly s (lookup t a s).2.st := by
  unfold lookup
  dsimp only
  split
  · exact testBucket_refetchOnly _ s
  · split <;> exact .refl s

theorem learn_refetchOnly (p : Fin 24) (t : Tenant) (a : Addr) (s : State) : RefetchOnly s (learn p t a s).st :=
  (testBucket_refetchOnly _ s).also fun u => .of_frame (learnKey_frame p t a u) (by decide)

theorem applyItem_refetchOnly (st : Station) (it : ReachItem) (s : State) :
    RefetchOnly s (applyItem st it s).st := by
  refine (testBucket_refetchOnly _ s).also fun t => ?_
  split
  · split
    · exact .of_frame (joinKey_frame _ _ _ t) (by decide)
    · exact .refl t
  · exact .of_frame (leaveKey_frame _ _ _ t) (by decide)

theorem takeReach_refetchOnly (st : Station) (r : ReachRx) (s : State) : RefetchOnly s (takeReach st r s).st := by
  unfold takeReach
  split
  · exact .eachOut (applyItem_refetchOnly st) _ s
  · exact .of_loader rfl

theorem visitSweep_refetchOnly (s : State) : RefetchOnly s (visitSweep s).st := by
  unfold visitSweep
  split
  · split
    · exact (testSlot_refetchOnly _ s).also fun t =>
        .of_frame ((announceEntry_frame _ t).seq (advanceSweep_frame _ _) (n := [.fwd, .line]) (by decide) (by decide))
          (by decide)
    · exact .refl s
  · exact .refl s

theorem ageSlot_refetchOnly (i : Nat) (s : State) : RefetchOnly s (ageSlot i s).st := by
  unfold ageSlot
  split
  · split
    · exact .of_frame (((ageLocal_frame i s).seq (expireHolders_frame i _) (n := [.fwd, .line]) (by decide)
        (by decide)).trans ((removeEmpty_frame i _).mono (by decide))) (by decide)
    · exact entryFault_refetchOnly _ _ s
  · exact .refl s

theorem visitAging_refetchOnly (s : State) : RefetchOnly s (visitAging s).st := by
  unfold visitAging
  split
  · refine (RefetchOnly.eachOut ageSlot_refetchOnly _ s).also fun t => .of_loader ?_
    dsimp only
    split <;> rfl
  · exact .refl s

/-! ## Meter -/

theorem testAcc_refetchOnly (k : Nat) (s : State) : RefetchOnly s (testAcc k s).st := by
  unfold testAcc
  split
  · exact .refl s
  · exact integrityFault_refetchOnly (putAcc k _ s)

theorem changeAcc_refetchOnly (k : Nat) (f : Accumulator → Accumulator) (s : State) :
    RefetchOnly s (changeAcc k f s).st :=
  (testAcc_refetchOnly k s).also fun _ => .of_loader rfl

theorem readTariff_refetchOnly (n : Nat) (s : State) : RefetchOnly s (readTariff n s).2.st := by
  unfold readTariff
  dsimp only
  split
  · split
    · exact .refl s
    · exact configFault_refetchOnly _ s
  · exact .refl s

theorem meterFrame_refetchOnly (d : Descriptor) (e : Port) (g : Option GroupTag) (s : State) :
    RefetchOnly s (meterFrame d e g s).st := by
  unfold meterFrame
  refine (testAcc_refetchOnly _ s).andThen fun t => (readTariff_refetchOnly _ t).also fun u => .of_loader ?_
  dsimp only
  split <;> rfl

theorem reportNone_refetchOnly (d : Descriptor) (s : State) : RefetchOnly s (reportNone d s).st := by
  unfold reportNone
  split
  · exact changeAcc_refetchOnly _ _ s
  · exact .refl s

theorem reportAdmitted_refetchOnly (d : Descriptor) (e : Port) (g : Option GroupTag) (s : State) :
    RefetchOnly s (reportAdmitted d e g s).st := by
  unfold reportAdmitted
  split
  · exact meterFrame_refetchOnly _ _ _ s
  · exact .refl s

theorem flagRestrained_refetchOnly (d : Descriptor) (s : State) : RefetchOnly s (flagRestrained d s).st := by
  unfold flagRestrained
  split
  · exact changeAcc_refetchOnly _ _ s
  · exact .refl s

theorem closeInterval_refetchOnly (s : State) : RefetchOnly s (closeInterval s).st :=
  (RefetchOnly.eachOut testAcc_refetchOnly _ s).andThen fun _ => .of_loader rfl

theorem boundary_refetchOnly (s : State) : RefetchOnly s (boundary s).st := by
  unfold boundary
  split
  · split
    · exact closeInterval_refetchOnly s
    · exact .of_loader rfl
  · exact .refl s

theorem removeInterval_refetchOnly (n : Count) (s : State) : RefetchOnly s (removeInterval n s).st := by
  unfold removeInterval
  dsimp only
  split
  · exact closeInterval_refetchOnly { s with meter := _ }
  · exact .of_loader rfl

/-! ## Export channels -/

theorem readAccount_refetchOnly (t : Tenant) (s : State) : RefetchOnly s (readAccount t s).2.st := by
  unfold readAccount
  split
  · exact .refl s
  · split
    · split
      · exact .refl s
      · exact configFault_refetchOnly _ s
    · exact .refl s

theorem examine_refetchOnly (b : Bool) (r : Record) (x : Channel) (s : State) :
    RefetchOnly s (examine b r x s).2.st := by
  unfold examine
  split
  · exact .refl s
  · split
    · exact .refl s
    · split
      · dsimp only
        split <;> exact readAccount_refetchOnly _ s
      · exact .refl s

theorem examineAll_refetchOnly (n : Nat) (rs : List Record) (b : Bool) (x : Channel) (s : State) :
    RefetchOnly s (examineAll n rs b x s).2.st := by
  induction rs generalizing b x s with
  | nil => exact .refl s
  | cons r rs ih =>
    unfold examineAll
    split
    · exact .refl s
    · split
      · exact .refl s
      · dsimp only
        split
        · exact examine_refetchOnly _ _ _ s
        · exact (examine_refetchOnly _ _ _ s).trans (ih _ _ _)

theorem produce_refetchOnly (b : Bool) (c : Fin 2) (s : State) : RefetchOnly s (produce b c s).st := by
  unfold produce
  dsimp only
  split
  · exact (examineAll_refetchOnly _ _ _ _ s).also fun t =>
      .of_frame (((setChan_frame c _ t).seq (readyEnd_frame c _) (n := [.line, .chans]) (by decide) (by decide)).trans
        (fillRecord_frame _)) (by decide)
  · exact .refl s

theorem channelFreed_refetchOnly (c : Fin 2) (s : State) : RefetchOnly s (channelFreed c s).st :=
  (produce_refetchOnly _ c s).also fun t =>
    .of_frame ((readyEnd_frame c t).trans (fillRecord_frame _)) (by decide)

/-! ## Frames -/

theorem decideFrame_refetchOnly (d : Descriptor) (s : State) : RefetchOnly s (decideFrame d s).2.st := by
  have looked : ∀ f, RefetchOnly s (decideBy d s f).2.st := fun _ => lookup_refetchOnly _ _ s
  unfold decideFrame
  split
  · unfold decideEdge
    split <;> split
    · exact .refl s
    · exact looked _
    · exact .refl s
    · exact looked _
  · unfold decideCross
    split
    · exact .refl s
    · split
      · exact .refl s
      · split
        · exact .refl s
        · exact looked _

theorem searchRules_refetchOnly (p : Port) (v : FrameView) (rs : List (Nat × Rule)) (s : State) :
    RefetchOnly s (searchRules p v rs s).2.st := by
  induction rs generalizing s with
  | nil => exact .refl s
  | cons x rs ih =>
    unfold searchRules
    split
    · split
      · split
        · exact .refl s
        · exact ih s
      · exact (configFault_refetchOnly _ s).trans (ih _)
    · exact ih s

theorem readTenant_refetchOnly (t : Tenant) (s : State) : RefetchOnly s (readTenant t s).2.st := by
  unfold readTenant
  split
  · exact .refl s
  · split
    · split
      · exact .refl s
      · exact configFault_refetchOnly _ s
    · exact .refl s

theorem admitFrame_refetchOnly (d : Descriptor) (l : List Byte) (cs : List CopyPlan) (s : State) :
    RefetchOnly s (admitFrame d l cs s).st := by
  have admitted : RefetchOnly s (admitCopies d l cs s).2 := .of_frame (admitCopies_frame d l cs s) (by decide)
  unfold admitFrame
  dsimp only
  split
  · exact admitted.trans (reportAdmitted_refetchOnly _ _ _ _)
  · exact admitted.trans (reportNone_refetchOnly _ _)

theorem reportDrop_refetchOnly (d : Descriptor) (r : DropReason) (s : State) :
    RefetchOnly s (reportNone d (countDrop d.ingress r s)).st :=
  reportNone_refetchOnly d (countDrop d.ingress r s)

theorem deliver_refetchOnly (d : Descriptor) (l : List Byte) (x : Decision) (s : State) :
    RefetchOnly s (deliver d l x s).st := by
  unfold deliver
  split
  · exact reportDrop_refetchOnly d _ s
  · unfold offerCopies
    split
    · exact .refl s
    · split
      · exact (reportDrop_refetchOnly d _ s).andThen (flagRestrained_refetchOnly d)
      · exact admitFrame_refetchOnly _ _ _ s

theorem forwardFrame_refetchOnly (d : Descriptor) (l : List Byte) (s : State) :
    RefetchOnly s (forwardFrame d l s).st :=
  (decideFrame_refetchOnly d s).andThen fun t => deliver_refetchOnly _ _ _ t

theorem learnFrame_refetchOnly (d : Descriptor) (a : Addr) (s : State) : RefetchOnly s (learnFrame d a s).st := by
  unfold learnFrame
  split
  · split
    · exact .refl s
    · exact learn_refetchOnly _ _ _ s
  · exact .refl s

theorem edgeFrame_refetchOnly (p : Port) (l : List Byte) (s : State) : RefetchOnly s (edgeFrame p l s).st := by
  unfold edgeFrame
  dsimp only
  split
  · exact (searchRules_refetchOnly p _ _ s).also fun _ => .of_loader rfl
  · refine (searchRules_refetchOnly p _ _ s).andThen fun t => ?_
    split
    · exact (readTenant_refetchOnly _ t).also fun _ => .of_loader rfl
    · exact (readTenant_refetchOnly _ t).andThen fun u =>
        (learnFrame_refetchOnly _ _ u).andThen fun v => forwardFrame_refetchOnly _ _ v

theorem crossFrame_refetchOnly (p : Port) (l : List Byte) (s : State) : RefetchOnly s (crossFrame p l s).st := by
  unfold crossFrame
  split
  · exact .of_loader rfl
  · split
    · exact .of_loader rfl
    · split
      · exact .of_loader rfl
      · dsimp only
        split
        · exact (readTenant_refetchOnly _ s).also fun _ => .of_loader rfl
        · exact (readTenant_refetchOnly _ s).andThen fun t => forwardFrame_refetchOnly _ _ t

/-! ## Event links -/

theorem act_refetchOnly (a : LinkAction) (s : State) : RefetchOnly s (act a s).st := by
  unfold act
  split
  · exact .of_frame (composeLoad_frame s) (by decide)
  · exact .of_frame (composeLink_frame s) (by decide)
  · exact boundary_refetchOnly s
  · exact .of_frame (exportEvent_frame _ s) (by decide)
  · exact .of_loader rfl

theorem fireLink_refetchOnly (n : Nat) (l : EventLink) (s : State) : RefetchOnly s (fireLink n l s).st :=
  (act_refetchOnly _ s).also fun _ => .of_loader rfl

theorem hearEvent_refetchOnly (e : Event) (n : Nat) (s : State) : RefetchOnly s (hearEvent e n s).st := by
  unfold hearEvent
  split
  · exact .refl s
  · split
    · split
      · exact fireLink_refetchOnly _ _ s
      · exact .of_loader rfl
    · exact .refl s

theorem takeEvent_refetchOnly (e : Event) (s : State) : RefetchOnly s (takeEvent e s).st := by
  unfold takeEvent
  split
  · exact .eachOut (hearEvent_refetchOnly e) _ s
  · exact .refl s

theorem settleEvents_refetchOnly (n : Nat) (es : List Event) (s : State) : RefetchOnly s (settleEvents n es s) := by
  induction n generalizing es s with
  | zero => exact .refl s
  | succ n ih => exact .eachState (fun e t => (takeEvent_refetchOnly e t).trans (ih _ _)) es s

theorem conclude_refetchOnly (o : Out) : RefetchOnly o.st (conclude o) := settleEvents_refetchOnly _ _ _

theorem lowerHoldOff_refetchOnly (n : Nat) (s : State) : RefetchOnly s (lowerHoldOff n s).st := by
  unfold lowerHoldOff
  split
  · exact .refl s
  · split
    · exact .refl s
    · split
      · exact fireLink_refetchOnly _ _ s
      · exact .of_loader rfl

theorem lowerHoldOffs_refetchOnly (s : State) : RefetchOnly s (lowerHoldOffs s).st :=
  .eachOut lowerHoldOff_refetchOnly _ s

end Sys2Proof.Machine
end

section
/-! The relation that O54 is proved through: what leads from one state to another keeps the laws of the restraint list,
the diversion share and the load indices. It is a preorder: a command keeps the laws when each of its operations does. -/

namespace Sys2Proof.Machine

/-- The three laws of O54 hold after if they held before, each for itself. -/
structure Upholds (s t : State) : Prop where
  restraint : s.restraintLaw → t.restraintLaw
  share : s.shareLaw → t.shareLaw
  index : s.indexLaw → t.indexLaw

theorem Upholds.refl (s : State) : Upholds s s := ⟨id, id, id⟩

theorem Upholds.trans {s t u : State} (h : Upholds s t) (k : Upholds t u) : Upholds s u :=
  ⟨k.restraint ∘ h.restraint, k.share ∘ h.share, k.index ∘ h.index⟩

theorem Upholds.andThen {s : State} {o : Out} {f : State → Out} (h : Upholds s o.st)
    (k : ∀ t, Upholds t (f t).st) : Upholds s (o.andThen f).st := h.trans (k o.st)

theorem Upholds.also {s : State} {o : Out} {f : State → State} (h : Upholds s o.st)
    (k : ∀ t, Upholds t (f t)) : Upholds s (o.also f).st := h.trans (k o.st)

theorem Upholds.eachOut {α : Type} {f : α → State → Out} (k : ∀ a t, Upholds t (f a t).st) (as : List α) (s : State) :
    Upholds s (eachOut f as s).st := by
  induction as generalizing s with
  | nil => exact .refl s
  | cons a as ih => exact (k a s).trans (ih _)

theorem Upholds.eachState {α : Type} {f : α → State → State} (k : ∀ a t, Upholds t (f a t)) (as : List α) (s : State) :
    Upholds s (eachState f as s) := by
  induction as generalizing s with
  | nil => exact .refl s
  | cons a as ih => exact (k a s).trans (ih _)

/-! ## What the laws read -/

theorem restraintLaw_congr {s t : State} (hr : t.restraint = s.restraint)
    (hp : t.loader.phase = .loading → s.loader.phase = .loading) (h : s.restraintLaw) : t.restraintLaw := by
  obtain ⟨room, once, free, off, apart, loading⟩ := h
  unfold State.restraintLaw State.setting
  rw [hr]
  exact ⟨room, once, free, off, apart, loading ∘ hp⟩

theorem shareLaw_congr {s t : State} (hl : t.load.share = s.load.share) (hd : t.load.divPeer = s.load.divPeer)
    (hc : t.params = s.params) (hi : t.peers.isolated = s.peers.isolated)
    (hp : t.loader.phase = .loading → s.loader.phase = .loading) (h : s.shareLaw) : t.shareLaw := by
  obtain ⟨peer, cap, shared, isolated, loading⟩ := h
  unfold State.shareLaw
  rw [hl, hd, hc, hi]
  exact ⟨peer, cap, shared, isolated, loading ∘ hp⟩

theorem indexLaw_congr {s t : State} (hx : t.load.idx = s.load.idx) (hu : t.load.uplink = s.load.uplink)
    (h : s.indexLaw) : t.indexLaw := by
  unfold State.indexLaw
  rw [hx, hu]
  exact h

/-- An empty list keeps R104, whatever the settings, the mode and the start state. -/
theorem restraintLaw_of_nil {s : State} (h : s.restraint.list = []) : s.restraintLaw := by
  simp [State.restraintLaw, h]

/-- A share of 0 keeps R95, whatever the diversion peer, the ISOLATED flag and the start state. -/
theorem shareLaw_of_zero {s : State} (h : s.load.share = 0) (hc : s.params.cap ≤ 512) : s.shareLaw := by
  simp [State.shareLaw, h, hc]

/-- An operation that leaves all that the laws read, and leads into LOADING only from LOADING. -/
theorem Upholds.of_same {s t : State} (hr : t.restraint = s.restraint) (hl : t.load = s.load) (hc : t.params = s.params)
    (hi : t.peers.isolated = s.peers.isolated) (hp : t.loader.phase = .loading → s.loader.phase = .loading) :
    Upholds s t :=
  ⟨restraintLaw_congr hr hp, shareLaw_congr (by rw [hl]) (by rw [hl]) hc hi hp,
    indexLaw_congr (by rw [hl]) (by rw [hl])⟩

/-- The blocks that the laws read, the loader apart. -/
abbrev lawBlocks : List Block := [.peers, .load, .restraint, .params]

/-- An operation outside the blocks that the laws read, with at most the refetch queue and the counts of the loader. -/
theorem Upholds.of_refetchOnly {l : List Block} {s t : State} (h : Frame l s t) (r : RefetchOnly s t)
    (k : ∀ b ∈ lawBlocks, b ∉ l) : Upholds s t :=
  .of_same (h.restraint (k _ (by decide))) (h.load (k _ (by decide))) (h.params (k _ (by decide)))
    (congrArg Peers.isolated (h.peers (k _ (by decide)))) fun hp => r.phase ▸ hp

/-- An operation outside the blocks that the laws read. -/
theorem Upholds.of_frame {l : List Block} {s t : State} (h : Frame l s t) (k : ∀ b ∈ Block.loader :: lawBlocks, b ∉ l) :
    Upholds s t :=
  .of_refetchOnly h (.of_frame h (k _ (by decide))) fun b hb => k b (List.mem_cons_of_mem _ hb)

/-- The events of a command. -/
theorem done_upholds {s t : State} {o : Out} (e : done o = .next t) (h : Upholds s o.st) : Upholds s t := by
  cases e
  exact h.trans (.of_refetchOnly (conclude_frame o) (conclude_refetchOnly o) (by decide))

theorem reachTime_upholds (t : Time) (s : State) : Upholds s (reachTime t s) :=
  .of_frame (reachTime_frame t s) (by decide)

theorem setPort_upholds (p : Port) (f : PortUnit → PortUnit) (s : State) : Upholds s (setPort p f s) :=
  .of_frame (setPort_frame p f s) (by decide)

theorem composeLink_upholds (s : State) : Upholds s (composeLink s) := .of_frame (composeLink_frame s) (by decide)

theorem composeLoad_upholds (s : State) : Upholds s (composeLoad s) := .of_frame (composeLoad_frame s) (by decide)

theorem composeHello_upholds (s : State) : Upholds s (composeHello s) := .of_frame (composeHello_frame s) (by decide)

/-! ## Peer slots: no slot holds what the laws read -/

theorem setSlot_upholds (n : SlotNo) (x : Option PeerSlot) (s : State) : Upholds s (setSlot n x s) :=
  .of_same rfl rfl rfl rfl id

theorem modifySlot_upholds (n : SlotNo) (f : PeerSlot → PeerSlot) (s : State) : Upholds s (modifySlot n f s) :=
  setSlot_upholds n _ s

theorem changeSlot_upholds (n : SlotNo) (f : PeerSlot → PeerSlot) (e : EventSource) (st : Station) (s : State) :
    Upholds s (changeSlot n f e st s).st := modifySlot_upholds n f s

theorem slotToLost_upholds (n : SlotNo) (x : PeerSlot) (s : State) : Upholds s (slotToLost n x s).st :=
  changeSlot_upholds _ _ _ _ s

theorem slotReturns_upholds (n : SlotNo) (r : Bool) (s : State) : Upholds s (slotReturns n r s).st :=
  (Upholds.of_same rfl rfl rfl rfl id : Upholds s (nextGen s)).trans (modifySlot_upholds n _ _)

theorem followSlot_upholds (n : SlotNo) (s : State) : Upholds s (followSlot n s).st := by
  unfold followSlot
  split
  · exact .refl s
  · dsimp only
    split
    · split
      · exact .refl s
      · exact changeSlot_upholds _ _ _ _ s
    · split
      · exact changeSlot_upholds _ _ _ _ s
      · exact .refl s
    · split
      · exact changeSlot_upholds _ _ _ _ s
      · exact .refl s
    · exact .refl s

theorem recomputeRelays_upholds (s : State) : Upholds s (recomputeRelays s) :=
  .eachState (fun _ t => modifySlot_upholds _ _ t) _ s

theorem refreshHeard_upholds (st : Station) (s : State) : Upholds s (refreshHeard st s) := by
  unfold refreshHeard
  split
  · exact .refl s
  · exact modifySlot_upholds _ _ s

theorem freeSlotNow_upholds (n : SlotNo) (s : State) : Upholds s (freeSlotNow n s).st := by
  unfold freeSlotNow
  split
  · exact .refl s
  · dsimp only
    split <;> exact setSlot_upholds n none s

theorem expireFreshness_upholds (n : SlotNo) (s : State) : Upholds s (expireFreshness n s) := by
  unfold expireFreshness
  split
  · exact .refl s
  · exact (reachTime_upholds _ s).trans (modifySlot_upholds _ _ _)

end Sys2Proof.Machine
end

section
/-! The load unit: the indices stay in the load scale (R78 to R80), and R95 allows each diversion that it sets. -/

namespace Sys2Proof.Machine

/-! ## Indices (R78, R80) -/

theorem loadFraction_le (basis occ : Nat) : loadFraction basis occ ≤ 32767 := Nat.min_le_right _ _

/-- The step of a load index does not carry it beyond the fraction that it moves to. -/
theorem loadStep_le (k o l : Nat) : loadStep k o l ≤ max ((o : Int) - l) 0 := by
  unfold loadStep
  dsimp only
  generalize (o : Int) - l = d
  split
  · rcases lt_trichotomy d 0 with h | h | h
    · rw [Int.sign_eq_neg_one_of_neg h]; omega
    · simp [h]
    · rw [Int.sign_eq_one_of_pos h]; omega
  · rcases le_total 0 d with h | h
    · exact (Int.tdiv_le_self _ h).trans (le_max_left _ _)
    · have := Int.tdiv_nonneg (Int.neg_nonneg.2 h) (b := 2 ^ k) (by positivity)
      rw [Int.neg_tdiv] at this
      omega

/-- A load index stays in the load scale (R79). -/
theorem nextIndex_le {l : Nat} (k basis occ : Nat) (h : l ≤ 32767) : nextIndex k basis occ l ≤ 32767 := by
  have step := loadStep_le k (loadFraction basis occ) l
  have fraction := loadFraction_le basis occ
  unfold nextIndex
  omega

theorem updateIndex_idx_le {i : Fin 9} {s : State} (h : ∀ j : Fin 9, s.load.idx[j] ≤ 32767) (j : Fin 9) :
    (updateIndex i s).load.idx[j] ≤ 32767 := by
  unfold updateIndex
  simp only [Fin.getElem_fin, Vector.getElem_set]
  split
  · exact nextIndex_le _ _ _ (h i)
  · exact h j

theorem updateIndex_upholds (i : Fin 9) (s : State) : Upholds s (updateIndex i s) where
  restraint := id
  share := id
  index := fun ⟨indices, uplink⟩ => ⟨updateIndex_idx_le indices, uplink⟩

/-- The floor of a mean of load indices stays in the load scale, for no U-port too. -/
theorem meanLoad_le {s : State} (h : ∀ i : Fin 9, s.load.idx[i] ≤ 32767) (us : List (Fin 4)) :
    s.meanLoad us ≤ 32767 := by
  have each : ∀ n ∈ us.map s.uLoad, n ≤ 32767 := by
    intro n hn
    obtain ⟨u, -, rfl⟩ := List.mem_map.1 hn
    exact h ⟨u.val, by omega⟩
  have total := List.sum_le_card_nsmul _ _ each
  rw [List.length_map, smul_eq_mul] at total
  exact Nat.div_le_of_le_mul total

theorem uplinkIndex_le {s : State} (h : ∀ i : Fin 9, s.load.idx[i] ≤ 32767) : s.uplinkIndex ≤ 32767 := by
  unfold State.uplinkIndex
  split
  · exact meanLoad_le h _
  · split
    · exact meanLoad_le h _
    · exact Nat.le_refl _

theorem updatePeak_upholds (u : Fin 4) (s : State) : Upholds s (updatePeak u s) := ⟨id, id, id⟩

theorem uplink_upholds (s : State) : Upholds s { s with load := { s.load with uplink := s.uplinkIndex } } :=
  ⟨id, id, fun ⟨indices, _⟩ => ⟨indices, uplinkIndex_le indices⟩⟩

theorem updateLoads_upholds (s : State) : Upholds s (updateLoads s) :=
  ((Upholds.eachState updateIndex_upholds allIndices s).trans (uplink_upholds _)).trans
    (.eachState updatePeak_upholds allU _)

/-! ## The diversion (R88 to R92) -/

/-- The diversions that R95 allows in a state. -/
def State.allowsDiversion (s : State) (peer : Option Station) (share : Nat) : Prop :=
  (share ≠ 0 → peer.isSome = true)
    ∧ (s.peers.isolated = false → share ≤ s.params.cap)
    ∧ (s.peers.isolated = true → share = 1024 ∨ share = 0)
    ∧ (s.loader.phase = .loading → share = 0)

/-- A share of 0 is always allowed. -/
theorem allowsDiversion_zero (s : State) (peer : Option Station) : s.allowsDiversion peer 0 := by
  simp [State.allowsDiversion]

/-- Outside LOADING a share at most the cap, with a peer, is allowed while not ISOLATED. -/
theorem allowsDiversion_of_le {s : State} {share : Nat} (hp : s.loader.phase ≠ .loading)
    (hi : s.peers.isolated = false) (st : Station) (h : share ≤ s.params.cap) : s.allowsDiversion (some st) share := by
  simp [State.allowsDiversion, hp, hi, h]

/-- Outside LOADING the whole of the traffic, with a peer, is allowed while ISOLATED. -/
theorem allowsDiversion_full {s : State} (hp : s.loader.phase ≠ .loading) (hi : s.peers.isolated = true)
    (st : Station) : s.allowsDiversion (some st) 1024 := by
  simp [State.allowsDiversion, hp, hi]

/-- What R94 sets; the events apart. -/
theorem setDiversion_st (peer : Option Station) (share : Nat) (s : State) :
    (setDiversion peer share s).st = { s with load := { s.load with divPeer := peer, share := share } } := by
  unfold setDiversion
  dsimp only
  split
  · rfl
  · split <;> rfl

/-- A diversion that is allowed keeps R95, whatever stood before. -/
theorem setDiversion_shareLaw {peer : Option Station} {share : Nat} {s : State} (hc : s.params.cap ≤ 512)
    (h : s.allowsDiversion peer share) : (setDiversion peer share s).st.shareLaw := by
  obtain ⟨hpeer, hcap, hisolated, hloading⟩ := h
  rw [setDiversion_st]
  exact ⟨hpeer, hc, hcap, hisolated, hloading⟩

theorem setDiversion_upholds {peer : Option Station} {share : Nat} {s : State}
    (h : s.shareLaw → s.allowsDiversion peer share) : Upholds s (setDiversion peer share s).st where
  restraint := by rw [setDiversion_st]; exact id
  share := fun k@⟨_, cap, _, _, _⟩ => setDiversion_shareLaw cap (h k)
  index := by rw [setDiversion_st]; exact id

/-- A moved share does not exceed both the old one and the target (R89). -/
theorem slewShare_le (slew share target : Nat) : slewShare slew share target ≤ max share target := by
  unfold slewShare
  split <;> split <;> omega

/-- The update at a SAMPLE sets a diversion that R95 allows while not ISOLATED (Table 5-3). -/
theorem updateDiversion_upholds {s : State} (hp : s.loader.phase ≠ .loading) (hi : s.peers.isolated = false) :
    Upholds s (updateDiversion s).st := by
  have target_le : ∀ gap, s.target gap ≤ s.params.cap := fun gap => Nat.min_le_right _ _
  unfold updateDiversion
  split
  · exact setDiversion_upholds fun _ => allowsDiversion_zero s none
  · next st gap _ =>
    split
    · exact setDiversion_upholds fun _ =>
        allowsDiversion_of_le hp hi st ((Nat.min_le_left _ _).trans (target_le gap))
    · split
      · refine setDiversion_upholds fun h => allowsDiversion_of_le hp hi st ?_
        obtain ⟨-, -, share_le, -, -⟩ := h
        exact (slewShare_le _ _ _).trans (max_le (share_le hi) (target_le gap))
      · exact setDiversion_upholds fun _ => allowsDiversion_zero s (some st)

/-- The isolation rule sets a diversion that R95 allows while ISOLATED (R91). -/
theorem isolationRule_allowed {s : State} (hp : s.loader.phase ≠ .loading) (hi : s.peers.isolated = true) :
    ∃ peer share, isolationRule s = setDiversion peer share s ∧ s.allowsDiversion peer share := by
  unfold isolationRule
  split
  · next st _ => exact ⟨some st, 1024, rfl, allowsDiversion_full hp hi st⟩
  · exact ⟨none, 0, rfl, allowsDiversion_zero s none⟩

theorem sampleLoad_upholds {s : State} (hp : s.loader.phase ≠ .loading) : Upholds s (sampleLoad s).st := by
  have kept := (updateLoads_frame s).loader (by decide)
  have updated := updateLoads_upholds s
  unfold sampleLoad
  generalize updateLoads s = t at kept updated ⊢
  rw [← kept] at hp
  refine updated.trans ?_
  dsimp only
  split
  · next hi =>
    obtain ⟨peer, share, e, allowed⟩ := isolationRule_allowed hp hi
    rw [e]
    exact setDiversion_upholds fun _ => allowed
  · next hi => exact updateDiversion_upholds hp (by simpa using hi)

theorem dropLostDiversion_upholds (s : State) : Upholds s (dropLostDiversion s).st := by
  unfold dropLostDiversion
  split
  · split
    · exact .refl s
    · exact setDiversion_upholds fun _ => allowsDiversion_zero s none
  · exact .refl s

theorem takeLoad_upholds (st : Station) (r : LoadRx) (s : State) : Upholds s (takeLoad st r s) := by
  unfold takeLoad
  split
  · split
    · exact modifySlot_upholds _ _ s
    · exact ⟨id, id, id⟩
  · exact ⟨id, id, id⟩

/-! ## ISOLATED (R92, R128) -/

/-- A change of the ISOLATED flag outside LOADING sets a diversion that R95 allows under the new flag. -/
theorem isolationTurned_allowed {on : Bool} {s : State} (hi : s.peers.isolated = on)
    (hp : on = true → s.loader.phase ≠ .loading) :
    ∃ peer share, isolationTurned on s = setDiversion peer share s ∧ s.allowsDiversion peer share := by
  cases on with
  | true => exact isolationRule_allowed (hp rfl) hi
  | false => exact ⟨none, 0, rfl, allowsDiversion_zero s none⟩

theorem turnIsolated_st (on : Bool) (s : State) :
    (turnIsolated on s).st = (isolationTurned on { s with peers := { s.peers with isolated := on } }).st := rfl

theorem turnIsolated_upholds {on : Bool} {s : State} (hp : on = true → s.loader.phase ≠ .loading) :
    Upholds s (turnIsolated on s).st := by
  obtain ⟨peer, share, e, allowed⟩ :=
    isolationTurned_allowed (on := on) (s := { s with peers := { s.peers with isolated := on } }) rfl hp
  rw [turnIsolated_st, e]
  refine ⟨?_, fun ⟨_, cap, _, _, _⟩ => setDiversion_shareLaw cap allowed, ?_⟩ <;> (rw [setDiversion_st]; exact id)

/-- ISOLATED is judged without harm when, in LOADING, the count of usable U-ports has not fallen to 0. -/
theorem judgeIsolated_upholds {before : Nat} {s : State}
    (hu : s.loader.phase = .loading → s.uCount = 0 → before = 0) : Upholds s (judgeIsolated before s).st := by
  unfold judgeIsolated
  split
  · next h =>
    obtain ⟨none, some, -⟩ := h
    exact turnIsolated_upholds fun _ hp => some (hu hp none)
  · split
    · exact turnIsolated_upholds nofun
    · exact .refl s

theorem reportView_upholds (old s : State) : Upholds s (reportView old s) :=
  .of_frame (reportView_frame old s) (by decide)

theorem uCount_of_ports {s t : State} (h : t.ports = s.ports) : t.uCount = s.uCount := by
  simp [State.uCount, State.usable, State.port, h]

/-- What a change does to the load unit and the notices, once the slots and relays have followed it. -/
theorem settled_upholds {old s : State} {o : Out} (h : Upholds s o.st) (k : Frame [.peers] s o.st)
    (hu : s.loader.phase = .loading → s.uCount = 0 → old.uCount = 0) :
    Upholds s (((o.andThen dropLostDiversion).andThen (judgeIsolated old.uCount)).also (reportView old)).st := by
  have dropped := h.andThen dropLostDiversion_upholds
  have frame : Frame [.peers, .load] s (o.andThen dropLostDiversion).st :=
    (k.mono (by decide)).andThen fun t => (dropLostDiversion_frame t).mono (by decide)
  generalize o.andThen dropLostDiversion = q at dropped frame ⊢
  rw [← frame.loader (by decide), ← uCount_of_ports (frame.ports (by decide))] at hu
  exact (dropped.trans (judgeIsolated_upholds hu)).also (o := q.andThen _) (reportView_upholds old)

theorem settleView_upholds {old s : State} (hu : s.loader.phase = .loading → s.uCount = 0 → old.uCount = 0) :
    Upholds s (settleView old s).st := by
  have followed := Upholds.eachOut followSlot_upholds allSlots s
  have frame := Frame.eachOut followSlot_frame allSlots s
  unfold settleView
  generalize eachOut followSlot allSlots s = o at followed frame ⊢
  exact settled_upholds (followed.also recomputeRelays_upholds) (frame.also recomputeRelays_frame) hu

/-- A change with its consequences, when in LOADING it does not take the last usable U-port away. -/
theorem withView_upholds {f : State → Out} {s : State} (h : Upholds s (f s).st)
    (hu : (f s).st.loader.phase = .loading → (f s).st.uCount = 0 → s.uCount = 0) : Upholds s (withView f s).st := by
  rw [withView, Out.andThen_st]
  exact h.trans (settleView_upholds hu)

/-- A change of the peer table with its consequences. -/
theorem withView_upholds_of_peers {f : State → Out} {s : State} (h : Upholds s (f s).st)
    (k : Frame [.peers] s (f s).st) : Upholds s (withView f s).st :=
  withView_upholds h fun _ hu => uCount_of_ports (k.ports (by decide)) ▸ hu

/-- A change of ports with its consequences, outside LOADING. -/
theorem withView_upholds_of_ports {f : State → Out} {s : State} (k : Frame [.ports, .buffer] s (f s).st)
    (hp : s.loader.phase ≠ .loading) : Upholds s (withView f s).st :=
  withView_upholds (.of_frame k (by decide)) fun h => absurd (k.loader (by decide) ▸ h) hp

end Sys2Proof.Machine
end

section
/-! The restraint unit at a SAMPLE (R99 to R103). -/

namespace Sys2Proof.Machine

/-- Outside LOADING, in mode ON: what the entries of R102 and R103 start from and keep. -/
structure State.Restraining (s : State) : Prop where
  law : s.restraintLaw
  on : s.restraint.on = true
  phase : s.loader.phase ≠ .loading

/-- What a candidate is not (R102). -/
theorem not_listed_of_candidate {s : State} {t : Tenant} (h : s.candidate t = true) :
    t ≠ 0 ∧ (s.setting t).exempt = false ∧ t ∉ s.restraint.list.map Prod.fst ∧ t ∉ s.restraint.denied := by
  simp only [State.candidate, Bool.and_eq_true, bne_iff_ne, Bool.not_eq_true', List.any_eq_false, beq_iff_eq,
    List.contains_eq_mem, decide_eq_false_iff_not] at h
  obtain ⟨⟨⟨⟨⟨nonzero, charged⟩, -⟩, -⟩, unlisted⟩, undenied⟩ := h
  refine ⟨nonzero, charged, fun hm => ?_, undenied⟩
  obtain ⟨i, hi, rfl⟩ := List.mem_map.1 hm
  exact unlisted i hi rfl

/-- A candidate that enters a list with room (R102). -/
theorem restraintLaw_of_listed {t : Tenant} {s : State} (start next : Nat) (h : s.Restraining)
    (candidate : s.candidate t = true) (short : s.restraint.list.length < 16) :
    State.restraintLaw { s with restraint := { s.restraint with
      list := s.restraint.list ++ [(t, start)], nextStart := next } } := by
  obtain ⟨⟨-, once, free, -, apart, -⟩, on, phase⟩ := h
  obtain ⟨nonzero, charged, unlisted, undenied⟩ := not_listed_of_candidate candidate
  have tenants : (s.restraint.list ++ [(t, start)]).map Prod.fst = s.restraint.list.map Prod.fst ++ [t] := by simp
  have listed : ∀ x ∈ (s.restraint.list ++ [(t, start)]).map Prod.fst, x ∈ s.restraint.list.map Prod.fst ∨ x = t := by
    simp [tenants]
  refine ⟨by simpa using short, ?_, fun x hx => ?_, fun k => absurd (on.symm.trans k) (by decide), fun x hx => ?_,
    fun k => absurd k phase⟩
  · rw [tenants]
    exact List.nodup_append.2 ⟨once, List.nodup_singleton t, fun x hx y hy e =>
      unlisted (List.mem_singleton.1 hy ▸ e ▸ hx)⟩
  · rcases listed x hx with hx | rfl
    · exact free x hx
    · exact ⟨nonzero, charged⟩
  · rcases listed x hx with hx | rfl
    · exact apart x hx
    · exact undenied

/-- A candidate that is denied (R103). -/
theorem restraintLaw_of_denied {t : Tenant} {s : State} (h : s.restraintLaw) (candidate : s.candidate t = true) :
    State.restraintLaw { s with restraint := { s.restraint with denied := s.restraint.denied ++ [t] } } := by
  obtain ⟨room, once, free, off, apart, loading⟩ := h
  obtain ⟨-, -, unlisted, -⟩ := not_listed_of_candidate candidate
  refine ⟨room, once, free, off, fun x hx hd => ?_, loading⟩
  rcases List.mem_append.1 hd with hd | hd
  · exact apart x hx hd
  · exact unlisted (List.mem_singleton.1 hd ▸ hx)

theorem considerTenant_restraining (t : Tenant) {s : State} (h : s.Restraining) :
    (considerTenant t s).st.Restraining := by
  unfold considerTenant
  split
  · next candidate =>
    split
    · next short => exact ⟨restraintLaw_of_listed _ _ h candidate short, h.on, h.phase⟩
    · exact ⟨restraintLaw_of_denied h.law candidate, h.on, h.phase⟩
  · exact h

theorem eachOut_considerTenant_restraining (ts : List Tenant) {s : State} (h : s.Restraining) :
    (eachOut considerTenant ts s).st.Restraining := by
  induction ts generalizing s with
  | nil => exact h
  | cons t ts ih => exact ih (considerTenant_restraining t h)

/-- The exits take tenants out of the list and the DENIED set alone (R101). -/
theorem restraintExits_restraintLaw {s : State} (h : s.restraintLaw) : (restraintExits s).restraintLaw := by
  obtain ⟨room, once, free, off, apart, loading⟩ := h
  have sub : (restraintExits s).restraint.list.Sublist s.restraint.list := List.filter_sublist
  have tenants := (sub.map Prod.fst).subset
  refine ⟨sub.length_le.trans room, (sub.map Prod.fst).nodup once, fun t ht => free t (tenants ht), fun k => ?_,
    fun t ht hd => apart t (tenants ht) (List.mem_of_mem_filter hd), fun k => ?_⟩
  · exact List.sublist_nil.1 (off k ▸ sub)
  · exact List.sublist_nil.1 (loading k ▸ sub)

/-- The mode keeps R104: OFF empties the list, and it was empty in OFF when it turns ON (R100). -/
theorem decideMode_restraintLaw {s : State} (h : s.restraintLaw) : (decideMode s).st.restraintLaw := by
  unfold decideMode
  split
  · split
    · exact restraintLaw_of_nil rfl
    · exact h
  · next off =>
    split
    · obtain ⟨-, -, -, empty, -, -⟩ := h
      exact restraintLaw_of_nil (empty (by simpa using off))
    · exact h

theorem sampleRestraint_restraintLaw {s : State} (hp : s.loader.phase ≠ .loading) (h : s.restraintLaw) :
    (sampleRestraint s).st.restraintLaw := by
  have law : (decideMode (advanceSlot s)).st.restraintLaw := decideMode_restraintLaw (s := advanceSlot s) h
  have kept : (decideMode (advanceSlot s)).st.loader = s.loader := (decideMode_frame _).loader (by decide)
  unfold sampleRestraint
  rw [Out.andThen_st]
  split
  · next on =>
    exact (eachOut_considerTenant_restraining _ ⟨restraintExits_restraintLaw law, on, kept ▸ hp⟩).law
  · exact law

theorem sampleRestraint_upholds {s : State} (hp : s.loader.phase ≠ .loading) : Upholds s (sampleRestraint s).st := by
  have frame := sampleRestraint_frame s
  have load := frame.load (by decide)
  refine ⟨sampleRestraint_restraintLaw hp, ?_, indexLaw_congr (by rw [load]) (by rw [load])⟩
  exact shareLaw_congr (by rw [load]) (by rw [load]) (frame.params (by decide)) (by rw [frame.peers (by decide)])
    (by rw [frame.loader (by decide)]; exact id)

end Sys2Proof.Machine
end

section
/-! The commands of the ports, the peer slots and the time base. -/

namespace Sys2Proof.Machine

theorem phase_ne_loading_of_acting {s : State} (h : s.acting = true) : s.loader.phase ≠ .loading := fun k => by
  simp [State.acting, k] at h

theorem phase_ne_loading_of_mayNotify {s : State} (h : s.mayNotify = true) : s.loader.phase ≠ .loading :=
  phase_ne_loading_of_acting (by simp_all [State.mayNotify])

/-! ## Ports -/

/-- A change of one port that leaves it usable when it was does not take the last usable U-port away. -/
theorem uCount_eq_zero_of_setPort {p : Port} {f : PortUnit → PortUnit} {s : State}
    (hf : (s.port p).link.usable = true → (f (s.port p)).link.usable = true) (h : (setPort p f s).uCount = 0) :
    s.uCount = 0 := by
  have usable : ∀ q, s.usable q = true → (setPort p f s).usable q = true := fun q hq => by
    by_cases e : q = p
    · subst e; simpa [State.usable] using hf hq
    · simpa [State.usable, port_setPort_ne e] using hq
  simp only [State.uCount, List.length_eq_zero_iff, List.filter_eq_nil_iff] at h ⊢
  exact fun u hu k => h u hu (usable _ k)

theorem withView_setPort_upholds (p : Port) (f : State → PortUnit → PortUnit) (s : State)
    (hf : (s.port p).link.usable = true → (f s (s.port p)).link.usable = true) :
    Upholds s (withView (fun t => .of (setPort p (f t) t)) s).st :=
  withView_upholds (setPort_upholds p _ s) fun _ => uCount_eq_zero_of_setPort hf

theorem takeCarrierUp_upholds (p : Port) (s : State) : Upholds s (takeCarrierUp p s).st := by
  have carrier := setPort_upholds p (fun u => { u with carrier := true }) s
  unfold takeCarrierUp
  dsimp only
  split
  · next h =>
    exact carrier.trans (withView_upholds_of_ports ((portToUp_frame p _).mono (by decide))
      (phase_ne_loading_of_acting h.1))
  · exact carrier

theorem takeCarrierDown_upholds (p : Port) (s : State) : Upholds s (takeCarrierDown p s).st := by
  have carrier := setPort_upholds p (fun u => { u with carrier := false }) s
  unfold takeCarrierDown
  generalize setPort p (fun u => { u with carrier := false }) s = t at carrier ⊢
  dsimp only
  split
  · next h =>
    have held := withView_upholds_of_ports (portToHeld_frame p t) (phase_ne_loading_of_acting h)
    split
    · exact carrier.trans held
    · exact carrier.trans held
    · exact carrier.trans (.of_frame (startHold_frame p t) (by decide))
    · exact carrier
  · exact carrier

/-- The end of a hold leaves each usable port usable: a HELD port is not (R110). -/
theorem endHold_uCount {p : Port} {s : State} (h : (endHold p s).st.uCount = 0) : s.uCount = 0 := by
  unfold endHold at h
  split at h
  · next held =>
    have unusable : (s.port p).link.usable ≠ true := by rw [held]; decide
    split at h <;> exact uCount_eq_zero_of_setPort (fun k => absurd k unusable) h
  · exact h

theorem expireHold_upholds (p : Port) (s : State) : Upholds s (expireHold p s).st := by
  unfold expireHold
  split
  · exact .refl s
  · exact ((reachTime_upholds _ s).trans (setPort_upholds _ _ _)).trans
      (withView_upholds (.of_frame (endHold_frame p _) (by decide)) fun _ => endHold_uCount)

theorem portSecond_upholds (p : Port) (s : State) : Upholds s (portSecond p s).st := by
  unfold portSecond
  refine Upholds.also ?_ fun t => setPort_upholds _ _ t
  split
  · next h =>
    exact withView_upholds_of_ports ((comparePort_frame p s).mono (by decide)) (phase_ne_loading_of_acting h)
  · exact .refl s

/-- A port hello leaves the link state of its X-port (R118). -/
theorem heard_link (own : Station) (n : Nat) (ser : Serial) (u : PortUnit) : (heard own n ser u).link = u.link := by
  unfold heard
  split
  · rfl
  · split <;> rfl

theorem takePortHello_upholds (x : XIndex) (l : List Byte) (s : State) : Upholds s (takePortHello x l s).st := by
  unfold takePortHello
  split
  · refine withView_setPort_upholds (xPort x) (fun t u =>
      { heard t.loader.station (helloNumber l) (helloSerial l) u with
        lapseExpiry := some (later t.time.now (3 * helloUs t)) }) s fun h => ?_
    rw [heard_link]
    exact h
  · exact .refl s

theorem expireLapse_upholds (x : XIndex) (s : State) : Upholds s (expireLapse x s).st := by
  unfold expireLapse
  split
  · exact .refl s
  · exact (reachTime_upholds _ s).trans
      (withView_setPort_upholds (xPort x) (fun _ u => { u with far := none, lapseExpiry := none }) _ id)

/-! ## Peer slots -/

theorem slotToLost_view_upholds (n : SlotNo) (x : PeerSlot) (s : State) :
    Upholds s (withView (slotToLost n x) s).st :=
  withView_upholds_of_peers (slotToLost_upholds n x s) (slotToLost_frame n x s)

theorem slotReturns_view_upholds (n : SlotNo) (r : Bool) (s : State) : Upholds s (withView (slotReturns n r) s).st :=
  withView_upholds_of_peers (slotReturns_upholds n r s) (slotReturns_frame n r s)

theorem helloNew_upholds (st : Station) (h : HelloRx) (s : State) : Upholds s (helloNew st h s).st := by
  unfold helloNew
  split
  · split
    · exact .of_same rfl rfl rfl rfl id
    · next n _ =>
      refine withView_upholds_of_peers ?_ ((nextGen_frame s).trans (setSlot_frame _ _ _))
      exact (Upholds.of_same rfl rfl rfl rfl id : Upholds s (nextGen s)).trans (setSlot_upholds n _ _)
  · exact .refl s

theorem helloKnown_upholds (n : SlotNo) (x : PeerSlot) (h : HelloRx) (s : State) :
    Upholds s (helloKnown n x h s).st := by
  unfold helloKnown
  split
  · exact .refl s
  · split
    · split
      · exact slotReturns_view_upholds n _ s
      · exact .refl s
    · split
      · exact withView_upholds_of_peers ((modifySlot_upholds n _ s).trans (slotToLost_upholds n x _))
          ((modifySlot_frame n _ s).trans (slotToLost_frame n x _))
      · split
        · exact slotToLost_view_upholds n x s
        · split
          · exact (slotToLost_view_upholds n x s).andThen fun t => slotReturns_view_upholds n false t
          · exact modifySlot_upholds n _ s

theorem takeHello_upholds (st : Station) (h : HelloRx) (s : State) : Upholds s (takeHello st h s).st := by
  unfold takeHello
  split
  · split
    · exact helloNew_upholds st h s
    · split
      · exact .refl s
      · exact helloKnown_upholds _ _ h s
  · exact .refl s

theorem takeLink_upholds (st : Station) (r : LinkRx) (s : State) : Upholds s (takeLink st r s).st := by
  unfold takeLink
  split
  · split
    · exact .refl s
    · exact withView_upholds_of_peers (modifySlot_upholds _ _ s) (modifySlot_frame _ _ s)
  · exact .of_same rfl rfl rfl rfl id

/-- A timer of a slot expires: the station time and the timer's field. -/
theorem slotTimer_upholds (t : Time) (n : SlotNo) (f : PeerSlot → PeerSlot) (s : State) :
    Upholds s (modifySlot n f (reachTime t s)) := (reachTime_upholds t s).trans (modifySlot_upholds n f _)

theorem expireSilence_upholds (n : SlotNo) (s : State) : Upholds s (expireSilence n s).st := by
  unfold expireSilence
  split
  · exact .refl s
  · split
    · exact .refl s
    · dsimp only
      split
      · exact (slotTimer_upholds _ n _ s).trans (slotToLost_view_upholds n _ _)
      · exact slotTimer_upholds _ n _ s

theorem expireJoin_upholds (n : SlotNo) (s : State) : Upholds s (expireJoin n s).st := by
  unfold expireJoin
  split
  · exact .refl s
  · split
    · exact .refl s
    · dsimp only
      split
      · exact (slotTimer_upholds _ n _ s).trans
          (withView_upholds_of_peers (changeSlot_upholds n _ _ _ _) (changeSlot_frame n _ _ _ _))
      · exact slotTimer_upholds _ n _ s

theorem expireLinger_upholds (n : SlotNo) (s : State) : Upholds s (expireLinger n s).st := by
  unfold expireLinger
  split
  · exact .refl s
  · split
    · exact .refl s
    · dsimp only
      split
      · exact (slotTimer_upholds _ n _ s).trans
          (withView_upholds_of_peers (setSlot_upholds n none _) (setSlot_frame n none _))
      · exact slotTimer_upholds _ n _ s

/-! ## Received frames -/

theorem takeFrame_upholds (p : Port) (l : List Byte) (s : State) : Upholds s (takeFrame p l s).st := by
  unfold takeFrame
  split
  · exact .refl s
  · split
    · exact .of_frame (dropIngress_frame _ _ s) (by decide)
    · split
      · split
        · exact takePortHello_upholds _ l s
        · exact .of_refetchOnly (crossFrame_frame p l s) (crossFrame_refetchOnly p l s) (by decide)
      · exact .of_refetchOnly (edgeFrame_frame p l s) (edgeFrame_refetchOnly p l s) (by decide)

/-! ## Periodic events -/

/-- A generator's event: the station time, and the time of the next one. -/
theorem generator_upholds (t : Time) (next : TimeBase) (s : State) :
    Upholds s { reachTime t s with time := next } :=
  (reachTime_upholds t s).trans (.of_same rfl rfl rfl rfl id)

theorem takeSample_upholds (s : State) : Upholds s (takeSample s).st := by
  have raised : Upholds s (raiseSample s) := generator_upholds _ _ s
  unfold takeSample
  generalize raiseSample s = t at raised ⊢
  dsimp only
  split
  · next h =>
    have hp := phase_ne_loading_of_acting h
    have hp' : (sampleLoad t).st.loader.phase ≠ .loading := (sampleLoad_frame t).loader (by decide) ▸ hp
    refine raised.trans (Upholds.andThen ?_ fun u => ?_)
    · exact (sampleLoad_upholds hp).trans (sampleRestraint_upholds hp')
    · exact .of_refetchOnly (lowerHoldOffs_frame u) (lowerHoldOffs_refetchOnly u) (by decide)
  · exact raised

theorem takeLoadDue_upholds (s : State) : Upholds s (takeLoadDue s) := by
  unfold takeLoadDue
  split
  · exact .refl s
  · exact (generator_upholds _ _ s).trans (composeLoad_upholds _)

/-- The third HELLO_DUE leads to RUNNING, so never to LOADING (R191). -/
theorem countHello_upholds (s : State) : Upholds s (countHello s) := by
  unfold countHello
  dsimp only
  split
  · exact .of_same rfl rfl rfl rfl nofun
  · exact .of_same rfl rfl rfl rfl id

theorem actHello_upholds (s : State) : Upholds s (actHello s) := by
  have periodic : ∀ t, Upholds t (periodicLink t) := fun t => by
    unfold periodicLink
    split
    · exact composeLink_upholds t
    · exact .refl t
  have hello : ∀ x t, Upholds t (makePortHello x t) := fun x t => .of_frame (makePortHello_frame x t) (by decide)
  unfold actHello
  split
  · exact ((countHello_upholds s).trans (.eachState hello allX _)).trans (periodic _)
  · exact .refl s

theorem takeHelloDue_upholds (s : State) : Upholds s (takeHelloDue s) := by
  unfold takeHelloDue
  split
  · exact .refl s
  · exact (generator_upholds _ _ s).trans ((actHello_upholds _).trans (composeHello_upholds _))

theorem endRefresh_upholds (s : State) : Upholds s (endRefresh s) := .of_frame (endRefresh_frame s) (by decide)

theorem takeRefreshEnd_upholds (s : State) : Upholds s (takeRefreshEnd s) := by
  unfold takeRefreshEnd
  split
  · exact .refl s
  · exact (generator_upholds _ _ s).trans (endRefresh_upholds _)

theorem boundary_upholds (s : State) : Upholds s (boundary s).st :=
  .of_refetchOnly (boundary_frame s) (boundary_refetchOnly s) (by decide)

theorem takeIntervalEnd_upholds (s : State) : Upholds s (takeIntervalEnd s).st := by
  unfold takeIntervalEnd
  split
  · exact .refl s
  · exact (generator_upholds _ _ s).trans (boundary_upholds _)

theorem takeSecond_upholds (s : State) : Upholds s (takeSecond s).st := by
  have raised : Upholds s (raiseSecond s) := generator_upholds _ _ s
  unfold takeSecond
  generalize raiseSecond s = t at raised ⊢
  dsimp only
  split
  · exact raised
  · exact raised.trans ((Upholds.eachOut portSecond_upholds allPorts t).also fun _ => .of_same rfl rfl rfl rfl id)

/-- The share used is 0 again, and slot 7 takes what is eligible (R179). -/
theorem freshShares_upholds (s : State) :
    Upholds s (fillRecord (eachState (fun c => setChan c fun x => { x with shareUsed := 0 }) bothChans s)) :=
  .of_frame (((Frame.eachState (fun c t => setChan_frame c _ t) bothChans s).mono (by decide)).trans
    (fillRecord_frame _)) (by decide)

theorem takeShareWindow_upholds (s : State) : Upholds s (takeShareWindow s) :=
  (generator_upholds _ _ s).trans (freshShares_upholds _)

end Sys2Proof.Machine
end

section
/-! The loader: the end of LOADING (R188 to R191), the resets (R192) and refetch reads (R194). -/

namespace Sys2Proof.Machine

/-! ## Filling the tables -/

/-- What the filling of the tables leaves: the start state, the list, the load unit and ISOLATED, and the cap in range. -/
structure Fills (s t : State) : Prop where
  phase : t.loader.phase = s.loader.phase
  list : t.restraint.list = s.restraint.list
  load : t.load = s.load
  isolated : t.peers.isolated = s.peers.isolated
  cap : s.params.cap ≤ 512 → t.params.cap ≤ 512

theorem Fills.refl (s : State) : Fills s s := ⟨rfl, rfl, rfl, rfl, id⟩

theorem Fills.trans {s t u : State} (h : Fills s t) (k : Fills t u) : Fills s u :=
  ⟨k.phase.trans h.phase, k.list.trans h.list, k.load.trans h.load, k.isolated.trans h.isolated, k.cap ∘ h.cap⟩

theorem Fills.of_frame {l : List Block} {s t : State} (h : Frame l s t) (k : ∀ b ∈ Block.loader :: lawBlocks, b ∉ l) :
    Fills s t where
  phase := by rw [h.loader (k _ (by decide))]
  list := by rw [h.restraint (k _ (by decide))]
  load := h.load (k _ (by decide))
  isolated := by rw [h.peers (k _ (by decide))]
  cap := by rw [h.params (k _ (by decide))]; exact id

theorem Fills.eachState {α : Type} {f : α → State → State} (k : ∀ a t, Fills t (f a t)) (as : List α) (s : State) :
    Fills s (eachState f as s) := by
  induction as generalizing s with
  | nil => exact .refl s
  | cons a as ih => exact (k a s).trans (ih _)

/-- In LOADING the list is empty and the share is 0, so that filling breaks no law. -/
theorem Fills.upholds {s t : State} (hp : s.loader.phase = .loading) (h : Fills s t) : Upholds s t where
  restraint := fun ⟨_, _, _, _, _, loading⟩ => restraintLaw_of_nil (h.list ▸ loading hp)
  share := fun ⟨_, cap, _, _, loading⟩ => shareLaw_of_zero (h.load ▸ loading hp) (h.cap cap)
  index := indexLaw_congr (by rw [h.load]) (by rw [h.load])

theorem clampTo_le {lo hi : Nat} (h : lo ≤ hi) (v : Nat) : (clampTo lo hi v).1 ≤ hi := by
  unfold clampTo
  split
  · exact h
  · split
    · exact Nat.le_refl _
    · next k => exact Nat.le_of_not_lt k

/-- The cap is the parameter of identifier 11, which is clamped; the others leave it (Table 12-7). -/
theorem setParam_cap_le {p : Params} (h : p.cap ≤ 512) (id v : Nat) : (setParam p id v).1.cap ≤ 512 := by
  unfold setParam
  split
  case h_11 => exact clampTo_le (by decide) v
  all_goals exact h

theorem takeParams_cap_le (pairs : List (List Byte)) (ids : List Nat) {p : Clamped Params} (h : p.1.cap ≤ 512) :
    (takeParams pairs ids p).1.cap ≤ 512 := by
  induction ids generalizing p with
  | nil => exact h
  | cons id ids ih =>
    unfold takeParams
    split
    · exact ih h
    · exact ih (setParam_cap_le h _ _)

/-- The cap that an image gives lies in its range (Table 5-1). -/
theorem readParams_cap_le (pairs : List (List Byte)) : (readParams pairs).1.cap ≤ 512 :=
  takeParams_cap_le pairs paramIds (show ({} : Params).cap ≤ 512 by decide)

theorem addClamps_fills (n : Nat) (s : State) : Fills s (addClamps n s) := ⟨rfl, rfl, rfl, rfl, id⟩

theorem fillParams_fills (pairs : List (List Byte)) (s : State) : Fills s (fillParams pairs s) :=
  ⟨rfl, rfl, rfl, rfl, fun _ => readParams_cap_le pairs⟩

theorem fillPort_fills (e : List Byte) (s : State) : Fills s (fillPort e s) := by
  unfold fillPort
  split
  · exact ⟨rfl, rfl, rfl, rfl, id⟩
  · exact addClamps_fills 1 s

theorem fillRule_fills (e : List Byte) (s : State) : Fills s (fillRule e s) := ⟨rfl, rfl, rfl, rfl, id⟩

theorem fillTenant_fills (e : List Byte) (s : State) : Fills s (fillTenant e s) := ⟨rfl, rfl, rfl, rfl, id⟩

theorem fillTariff_fills (e : List Byte) (s : State) : Fills s (fillTariff e s) := ⟨rfl, rfl, rfl, rfl, id⟩

theorem fillLink_fills (e : List Byte) (s : State) : Fills s (fillLink e s) := by
  unfold fillLink
  split <;> exact ⟨rfl, rfl, rfl, rfl, id⟩

theorem fillCollector_fills (e : List Byte) (s : State) : Fills s (fillCollector e s) := by
  unfold fillCollector
  dsimp only
  split
  · exact addClamps_fills 1 s
  · split
    · exact .refl s
    · exact ⟨rfl, rfl, rfl, rfl, id⟩

theorem fillFixed_fills (n : Nat) (e : List Byte) (s : State) : Fills s (fillFixed n e s) := by
  have clamped := addClamps_fills (readFixedEntry e).2 s
  unfold fillFixed
  dsimp only
  split
  · exact clamped.trans (addClamps_fills 1 _)
  · split
    · exact clamped.trans (addClamps_fills 1 _)
    · exact clamped.trans ⟨rfl, rfl, rfl, rfl, id⟩

theorem fillFixedAll_fills (n : Nat) (es : List (List Byte)) (s : State) : Fills s (fillFixedAll n es s) := by
  induction es generalizing n s with
  | nil => exact .refl s
  | cons e es ih => exact (fillFixed_fills n e s).trans (ih _ _)

theorem announceAllFixed_fills (s : State) : Fills s (announceAllFixed s) :=
  .eachState (fun _ t => .of_frame (announceFixed_frame _ t) (by decide)) s.fixed s

theorem fillTables_fills (img : List Byte) (s : State) : Fills s (fillTables img s) := by
  have params := (addClamps_fills (unknownSects img) s).trans (fillParams_fills (sectionEntries img 1 5) _)
  have ports := params.trans (.eachState fillPort_fills (sectionEntries img 2 2) _)
  have rules := ports.trans (.eachState fillRule_fills (sectionEntries img 3 16) _)
  have tenants := rules.trans (.eachState fillTenant_fills (sectionEntries img 4 18) _)
  have tariffs := tenants.trans (.eachState fillTariff_fills (sectionEntries img 5 13) _)
  have links := tariffs.trans (.eachState fillLink_fills (sectionEntries img 7 6) _)
  have collectors := links.trans (.eachState fillCollector_fills (sectionEntries img 8 1) _)
  exact (collectors.trans (fillFixedAll_fills 0 (sectionEntries img 6 10) _)).trans (announceAllFixed_fills _)

/-! ## The end of LOADING -/

theorem restartGenerators_upholds (s : State) : Upholds s (restartGenerators s) := .of_same rfl rfl rfl rfl id

/-- A start state other than LOADING asks nothing more of the laws. -/
theorem enterPhase_upholds {p : Phase} (h : p ≠ .loading) (s : State) : Upholds s (enterPhase p s) :=
  .of_same rfl rfl rfl rfl fun k => absurd k h

theorem startPort_frame (p : Port) (s : State) : Frame [.ports] s (startPort p s).st := by
  unfold startPort
  split
  · exact portToUp_frame p s
  · exact .refl _ _

/-- ISOLATED at the entry to JOINING, without a usable U-port (R191). -/
theorem startIsolated_upholds {s : State} (hp : s.loader.phase ≠ .loading) :
    Upholds s (if s.uCount = 0 then turnIsolated true s else .of s).st := by
  split
  · exact turnIsolated_upholds fun _ => hp
  · exact .refl s

theorem enterJoining_upholds (s : State) : Upholds s (enterJoining s).st := by
  have opened : Upholds s (openJoining (restartGenerators (enterPhase .joining s))) :=
    .of_same rfl rfl rfl rfl nofun
  have phase : (openJoining (restartGenerators (enterPhase .joining s))).loader.phase ≠ .loading := nofun
  unfold enterJoining
  generalize openJoining (restartGenerators (enterPhase .joining s)) = t at opened phase ⊢
  have started : Frame [.ports] t (eachOut startPort allPorts t).st := .eachOut startPort_frame allPorts t
  refine Upholds.also ?_ fun u => ?_
  · rw [Out.andThen_st]
    refine opened.trans (Upholds.trans (.of_frame started (by decide)) (startIsolated_upholds ?_))
    rw [started.loader (by decide)]
    exact phase
  · exact ((composeHello_upholds u).trans (composeLink_upholds _)).trans
      (.of_frame (composeReach_frame _) (by decide))

theorem salvageParams_cap_le (img : List Byte) : (salvageParams img).1.cap ≤ 512 := by
  unfold salvageParams
  split
  · decide
  · exact takeParams_cap_le _ _ (by decide)

theorem salvageCollectors_fills (img : List Byte) (s : State) : Fills s (salvageCollectors img s) := by
  unfold salvageCollectors
  split
  · exact ⟨rfl, rfl, rfl, rfl, id⟩
  · exact .eachState fillCollector_fills _ s

/-- What FAILSAFE takes from the flash (R189). -/
theorem salvage_fills (n : Nat) (img : List Byte) (s : State) :
    Fills s (salvageCollectors img (addClamps n { s with params := (salvageParams img).1 })) :=
  have params : Fills s (addClamps n { s with params := (salvageParams img).1 }) :=
    ⟨rfl, rfl, rfl, rfl, fun _ => salvageParams_cap_le img⟩
  params.trans (salvageCollectors_fills img _)

theorem enterFailsafe_upholds (reason : Nat) (img : List Byte) {s : State} (hp : s.loader.phase = .loading) :
    Upholds s (enterFailsafe reason img s) := by
  unfold enterFailsafe
  refine Upholds.trans (Upholds.trans (Upholds.trans (Fills.upholds hp ?_) (enterPhase_upholds (by decide) _))
    (restartGenerators_upholds _)) (composeHello_upholds _)
  exact (salvage_fills _ img s).trans ⟨rfl, rfl, rfl, rfl, id⟩

theorem completeLoad_upholds (img : List Byte) (s : State) : Upholds s (completeLoad img s).st := by
  unfold completeLoad
  split
  · next hp =>
    unfold endLoading
    split
    · exact enterFailsafe_upholds _ img hp
    · exact ((fillTables_fills img s).upholds hp).trans (enterJoining_upholds _)
  · exact .refl s

/-! ## Resets -/

/-- A state with the load and restraint units and the parameters of a full reset keeps the laws (R192). -/
theorem Upholds.of_reset {s t : State} (hr : t.restraint = {}) (hl : t.load = {}) (hc : t.params = {}) :
    Upholds s t where
  restraint := fun _ => restraintLaw_of_nil (by rw [hr])
  share := fun _ => shareLaw_of_zero (by rw [hl]) (by rw [hc]; decide)
  index := fun _ => by unfold State.indexLaw; rw [hl]; decide

theorem restartState_upholds (s : State) : Upholds s (restartState s) := .of_reset rfl rfl rfl

theorem resetState_upholds (straps : BitVec 4) (s : State) : Upholds s (resetState straps s) := .of_reset rfl rfl rfl

/-! ## Refetch reads -/

/-- A change of the loader alone that leaves the start state. -/
theorem loaderChange_upholds {s : State} (l : Loader) (h : l.phase = s.loader.phase) :
    Upholds s { s with loader := l } := .of_same rfl rfl rfl rfl fun k => h.symm.trans k

theorem setInteg_upholds (i : CfgItem) (v : Integrity) (s : State) : Upholds s (setInteg i v s) :=
  .of_frame (setInteg_frame i v s) (by decide)

theorem leaveRefetch_upholds (s : State) : Upholds s (leaveRefetch s) := by
  unfold leaveRefetch
  dsimp only
  split
  · exact .of_same rfl rfl rfl rfl id
  · next i _ =>
    exact (loaderChange_upholds { s.loader with failures := 0, refetch := s.loader.refetch.drop 1 ++ [i] } rfl).trans
      (setInteg_upholds i .queued _)

theorem restoreEntry_upholds (i : CfgItem) (e : List Byte) (s : State) : Upholds s (restoreEntry i e s) := by
  unfold restoreEntry
  split <;> exact .of_same rfl rfl rfl rfl id

theorem reinsertRestored_upholds (i : CfgItem) (e : List Byte) (s : State) :
    Upholds s (reinsertRestored i e s).st := by
  unfold reinsertRestored
  split
  · exact Upholds.also (.of_refetchOnly (testBucket_frame _ s) (testBucket_refetchOnly _ s) (by decide)) fun t =>
      .of_frame (reinsertFixed_frame _ _ t) (by decide)
  · exact .refl s

theorem endRead_upholds (i : CfgItem) (e : List Byte) (s : State) : Upholds s (endRead i e s).st := by
  unfold endRead
  split
  · exact ((restoreEntry_upholds i e s).trans (leaveRefetch_upholds _)).trans (reinsertRestored_upholds i e _)
  · split
    · exact .of_same rfl rfl rfl rfl id
    · exact (loaderChange_upholds { s.loader with refetchFailed := satInc s.loader.refetchFailed } rfl).trans
        ((setInteg_upholds i .failed _).trans (leaveRefetch_upholds _))

theorem completeRead_upholds (e : List Byte) (s : State) : Upholds s (completeRead e s).st := by
  unfold completeRead
  split
  · exact .refl s
  · split
    · exact endRead_upholds _ e s
    · exact .refl s

end Sys2Proof.Machine
end

section
/-! The group line: sending (R134 to R141), CONFLICT (R147), orders (R168 to R182) and reception (R142 to R144). -/

namespace Sys2Proof.Machine

/-! ## The sending side -/

/-- A change of the group line controller alone. -/
theorem lineChange_upholds (l : GroupLine) (s : State) : Upholds s { s with line := l } := .of_same rfl rfl rfl rfl id

theorem offerMessage_upholds (s : State) : Upholds s (offerMessage s) := by
  unfold offerMessage
  split
  · split
    · exact lineChange_upholds _ s
    · exact .refl s
  · exact .refl s

theorem returnMessage_upholds (m : TxMsg) (s : State) : Upholds s (returnMessage m s) := by
  unfold returnMessage
  split
  · exact .refl s
  · exact lineChange_upholds _ s

/-- A channel goes on after its message has left it (R178). -/
theorem channelFreed_upholds (c : Fin 2) (f : Channel → Channel) (s : State) :
    Upholds s (channelFreed c (setChan c f s)).st :=
  (Upholds.of_frame (setChan_frame c f s) (by decide)).trans
    (.of_refetchOnly (channelFreed_frame c _) (channelFreed_refetchOnly c _) (by decide))

theorem withdrawnOutcome_upholds (m : TxMsg) (s : State) : Upholds s (withdrawnOutcome m s).st := by
  unfold withdrawnOutcome
  split
  · exact channelFreed_upholds _ _ s
  · exact .refl s

/-- What follows a message that has left its slot, the restart of the station among it (R182). -/
theorem slotFreed_upholds (m : TxMsg) (s : State) : Upholds s (slotFreed m s) := by
  unfold slotFreed
  split
  · split
    · exact restartState_upholds s
    · exact .refl s
  · exact .of_frame (composeReach_frame s) (by decide)
  · exact .of_frame (endGone_frame _ s) (by decide)
  · exact .refl s

theorem completedOutcome_upholds (m : TxMsg) (s : State) : Upholds s (completedOutcome m s).st := by
  unfold completedOutcome
  split
  · exact channelFreed_upholds _ _ s
  · exact slotFreed_upholds m s

theorem discardedOutcome_upholds (m : TxMsg) (s : State) : Upholds s (discardedOutcome m s).st := by
  unfold discardedOutcome
  split
  · exact channelFreed_upholds _ _ s
  · exact slotFreed_upholds m s

theorem loseArbitration_upholds (s : State) : Upholds s (loseArbitration s).st := by
  unfold loseArbitration
  split
  · exact .refl s
  · split
    · exact (lineChange_upholds _ s).trans (withdrawnOutcome_upholds _ _)
    · exact (lineChange_upholds _ s).trans (returnMessage_upholds _ _)

theorem completeMessage_upholds (s : State) : Upholds s (completeMessage s).st := by
  unfold completeMessage
  split
  · exact .refl s
  · exact (lineChange_upholds _ s).trans (completedOutcome_upholds _ _)

theorem countDiscard_upholds (s : State) : Upholds s (countDiscard s) := by
  unfold countDiscard enterQuiet
  split <;> exact .of_same rfl rfl rfl rfl id

theorem transmitErrorAt_upholds (s : State) : Upholds s (transmitErrorAt s).st := by
  unfold transmitErrorAt
  split
  · exact .refl s
  · next m _ =>
    have counted : Upholds s (clearLine { s with line := { s.line with txError := satInc s.line.txError } }) :=
      lineChange_upholds _ s
    dsimp only
    split
    · exact counted.trans (withdrawnOutcome_upholds m _)
    · split
      · exact counted
      · split
        · exact counted.trans (returnMessage_upholds _ _)
        · exact (counted.trans (countDiscard_upholds _)).trans (discardedOutcome_upholds m _)

theorem endQuiet_upholds (s : State) : Upholds s (endQuiet s) := by
  unfold endQuiet
  split
  · exact .refl s
  · exact (reachTime_upholds _ s).trans (lineChange_upholds _ _)

/-! ## CONFLICT (R147) -/

theorem conflictChannels_upholds (s : State) : Upholds s (conflictChannels s) :=
  (Upholds.of_frame (Frame.eachState conflictChannel_frame bothChans s) (by decide)).trans
    (.of_same rfl rfl rfl rfl id)

theorem retireX_upholds (x : XIndex) (s : State) : Upholds s (retireX x s) :=
  (Upholds.of_frame (flushPort_frame (xPort x) s) (by decide)).trans (setPort_upholds (xPort x) clearFar _)

theorem enterConflict_upholds (s : State) : Upholds s (enterConflict s).st := by
  have silenced : Upholds s (composeHello (conflictChannels { s with line := s.line.silence })) :=
    ((lineChange_upholds _ s).trans (conflictChannels_upholds _)).trans (composeHello_upholds _)
  unfold enterConflict
  generalize composeHello (conflictChannels { s with line := s.line.silence }) = t at silenced ⊢
  have freed := silenced.trans (.eachOut freeSlotNow_upholds allSlots t)
  exact (freed.also fun u => .eachState retireX_upholds allX u).andThen dropLostDiversion_upholds

theorem ownHello_upholds (s : State) : Upholds s (ownHello s).st := by
  unfold ownHello
  split
  · exact .refl s
  · exact enterConflict_upholds s

/-! ## Orders -/

theorem refuse_upholds (r : Reason) (s : State) : Upholds s (refuse r s).2.st := .refl s

theorem produce_upholds (b : Bool) (c : Fin 2) (f : Channel → Channel) (s : State) :
    Upholds s (produce b c (setChan c f s)).st :=
  (Upholds.of_frame (setChan_frame c f s) (by decide)).trans
    (.of_refetchOnly (produce_frame b c _) (produce_refetchOnly b c _) (by decide))

theorem orderStart_upholds (ps : List Byte) (s : State) : Upholds s (orderStart ps s).2.st := by
  unfold orderStart
  split
  · unfold startOn
    split
    · exact refuse_upholds _ s
    · split
      · exact refuse_upholds _ s
      · split
        · exact refuse_upholds _ s
        · exact produce_upholds _ _ _ s
  · exact refuse_upholds _ s

theorem orderHalt_upholds (ps : List Byte) (s : State) : Upholds s (orderHalt ps s).2.st := by
  unfold orderHalt
  split
  · exact refuse_upholds _ s
  · next c _ =>
    split
    · exact refuse_upholds _ s
    · split
      · exact refuse_upholds _ s
      · exact .of_frame (haltChannel_frame c s) (by decide)

theorem orderHold_upholds (ps : List Byte) (s : State) : Upholds s (orderHold ps s).2.st := by
  unfold orderHold
  split
  · exact refuse_upholds _ s
  · next c _ =>
    split
    · exact .of_frame (holdChannel_frame c s) (by decide)
    · exact refuse_upholds _ s

theorem orderResume_upholds (ps : List Byte) (s : State) : Upholds s (orderResume ps s).2.st := by
  unfold orderResume
  split
  · exact refuse_upholds _ s
  · split
    · exact refuse_upholds _ s
    · split
      · exact refuse_upholds _ s
      · exact produce_upholds _ _ _ s

theorem orderDiscard_upholds (ps : List Byte) (s : State) : Upholds s (orderDiscard ps s).2.st := by
  unfold orderDiscard
  split
  · exact refuse_upholds _ s
  · unfold discardOf
    split
    · exact refuse_upholds _ s
    · exact .of_refetchOnly (removeInterval_frame _ s) (removeInterval_refetchOnly _ s) (by decide)

/-- A STATUS that reads no accumulator changes nothing. -/
theorem statusStation_upholds (part : Nat) (s : State) : Upholds s (statusStation part s).2.st := by
  unfold statusStation
  split <;> exact .refl s

theorem statusPort_upholds (n part : Nat) (s : State) : Upholds s (statusPort n part s).2.st := by
  unfold statusPort
  split
  · split <;> exact .refl s
  · exact .refl s

theorem statusPeers_upholds (part : Nat) (s : State) : Upholds s (statusPeers part s).2.st := by
  unfold statusPeers
  split <;> exact .refl s

theorem statusIntervals_upholds (part : Nat) (s : State) : Upholds s (statusIntervals part s).2.st := by
  unfold statusIntervals
  split <;> exact .refl s

/-- A STATUS of a tenant reads its accumulators (R157). -/
theorem statusTenant_upholds (t : Tenant) (part : Nat) (s : State) : Upholds s (statusTenant t part s).2.st := by
  unfold statusTenant
  split
  · exact .refl s
  · exact .of_refetchOnly (Frame.eachOut testAcc_frame (tenantAccs t) s)
      (.eachOut testAcc_refetchOnly (tenantAccs t) s) (by decide)
  · exact .refl s

theorem orderStatus_upholds (ps : List Byte) (s : State) : Upholds s (orderStatus ps s).2.st := by
  unfold orderStatus
  split
  · exact refuse_upholds _ s
  · dsimp only
    split
    · exact statusStation_upholds _ s
    · exact statusPort_upholds _ _ s
    · exact statusPeers_upholds _ s
    · exact statusTenant_upholds _ _ s
    · exact statusIntervals_upholds _ s
    · exact refuse_upholds _ s

theorem orderRestart_upholds (s : State) : Upholds s (orderRestart s).2.st := .of_same rfl rfl rfl rfl id

theorem orderRule_upholds (kind : Byte) (ps : List Byte) (s : State) : Upholds s (orderRule kind ps s).2.st := by
  unfold orderRule
  generalize kind.toNat = k
  split
  · exact orderStart_upholds ps s
  · exact orderHalt_upholds ps s
  · exact orderHold_upholds ps s
  · exact orderResume_upholds ps s
  · exact orderDiscard_upholds ps s
  · exact boundary_upholds s
  · exact orderStatus_upholds ps s
  · exact orderRestart_upholds s
  · exact refuse_upholds _ s

theorem judgeOrder_upholds {kind : Byte} {f : State → Verdict × Out} {s : State} (h : Upholds s (f s).2.st) :
    Upholds s (judgeOrder kind f s).2.st := by
  unfold judgeOrder
  split
  · exact refuse_upholds _ s
  · split
    · exact refuse_upholds _ s
    · exact h

theorem takeOrder_upholds (src dst : Station) (kind : Byte) (tag : BitVec 16) {f : State → Verdict × Out} {s : State}
    (h : Upholds s (f s).2.st) : Upholds s (takeOrder src dst kind tag f s).st := by
  unfold takeOrder
  split
  · exact .of_same rfl rfl rfl rfl id
  · split
    · exact .refl s
    · split
      · exact .of_same rfl rfl rfl rfl id
      · exact (judgeOrder_upholds h).also fun t => lineChange_upholds _ t

theorem takeOrderPayload_upholds (src dst : Station) (l : List Byte) (s : State) :
    Upholds s (takeOrderPayload src dst l s).st := by
  refine takeOrder_upholds _ _ _ _ ?_
  split
  · exact refuse_upholds _ s
  · exact orderRule_upholds _ _ s

/-! ## Reception -/

theorem withPayload_upholds {α : Type} (r : Option α) {f : α → State → Out} (h : ∀ x t, Upholds t (f x t).st)
    (s : State) : Upholds s (withPayload r f s).st := by
  unfold withPayload
  split
  · exact lineChange_upholds _ s
  · exact h _ s

theorem ownNumber_upholds (cls : Nat) (s : State) : Upholds s (ownNumber cls s).st := by
  unfold ownNumber
  split
  · exact ownHello_upholds s
  · exact lineChange_upholds _ s

theorem receive_upholds (cls : Nat) (src dst : Station) (payload : List Byte) {f : State → Out}
    (h : ∀ t, Upholds t (f t).st) (s : State) : Upholds s (receive cls src dst payload f s).st := by
  have heard := refreshHeard_upholds src s
  unfold receive
  split
  · exact .refl s
  · split
    · exact lineChange_upholds _ s
    · split
      · exact ownNumber_upholds cls s
      · split
        · exact heard.trans (h _)
        · exact heard

theorem linkPayload_upholds (src : Station) (payload : List Byte) (s : State) :
    Upholds s (withPayload (readLink payload) (takeLink src) s).st :=
  withPayload_upholds _ (takeLink_upholds src) s

theorem helloPayload_upholds (src : Station) (payload : List Byte) (s : State) :
    Upholds s (withPayload (readHello payload) (takeHello src) s).st :=
  withPayload_upholds _ (takeHello_upholds src) s

theorem loadPayload_upholds (src : Station) (payload : List Byte) (s : State) :
    Upholds s (withPayload (readLoad payload) (fun r t => .of (takeLoad src r t)) s).st :=
  withPayload_upholds _ (takeLoad_upholds src) s

theorem reachPayload_upholds (src : Station) (payload : List Byte) (s : State) :
    Upholds s (withPayload (readReach payload) (takeReach src) s).st :=
  withPayload_upholds _ (fun r t => .of_refetchOnly (takeReach_frame src r t) (takeReach_refetchOnly src r t)
    (by decide)) s

theorem dispatch_upholds (cls : Nat) (src dst : Station) (payload : List Byte) (s : State) :
    Upholds s (dispatch cls src dst payload s).st := by
  unfold dispatch
  split
  · exact linkPayload_upholds src payload s
  · exact helloPayload_upholds src payload s
  · exact takeOrderPayload_upholds src dst payload s
  · exact loadPayload_upholds src payload s
  · exact reachPayload_upholds src payload s
  · exact .refl s

theorem receiveOctets_upholds (m : List Byte) (ranOn own : Bool) (s : State) :
    Upholds s (receiveOctets m ranOn own s).st := by
  unfold receiveOctets
  split
  · exact .refl s
  · split
    · exact lineChange_upholds _ s
    · split
      · exact .refl s
      · exact receive_upholds _ _ _ _ (dispatch_upholds _ _ _ _) s

theorem receiveOrder_upholds (kind : Byte) (src dst : Station) (tag : BitVec 16) (ps : List Byte) (s : State) :
    Upholds s (receiveOrder kind src dst tag ps s).st :=
  receive_upholds _ _ _ _ (fun t => takeOrder_upholds _ _ _ _ (orderRule_upholds kind ps t)) s

end Sys2Proof.Machine
end

section
/-! O54: every command, so every step, keeps the laws of the restraint list, the diversion share and the load indices. -/

namespace Sys2Proof.Machine

theorem exec_upholds {i : Instr} {s t : State} (h : exec i s = .next t) : Upholds s t := by
  cases i with
  | frameReceived p o => exact done_upholds h (takeFrame_upholds p o s)
  | transmissionEnd p => exact done_upholds h (.of_frame (endTransmission_frame p s) (by decide))
  | carrierUp p => exact done_upholds h (takeCarrierUp_upholds p s)
  | carrierDown p => exact done_upholds h (takeCarrierDown_upholds p s)
  | holdExpiry p => exact done_upholds h (expireHold_upholds p s)
  | decayExpiry p => exact done_upholds h (.of_frame (expireDecay_frame p s) (by decide))
  | oneSecondEvent => exact done_upholds h (takeSecond_upholds s)
  | agingVisit =>
    exact done_upholds h (.of_refetchOnly (visitAging_frame s) (visitAging_refetchOnly s) (by decide))
  | sample => exact done_upholds h (takeSample_upholds s)
  | loadDue => exact done_upholds h (takeLoadDue_upholds s)
  | helloDue => exact done_upholds h (takeHelloDue_upholds s)
  | refreshEnd => exact done_upholds h (takeRefreshEnd_upholds s)
  | sweepVisit =>
    exact done_upholds h (.of_refetchOnly (visitSweep_frame s) (visitSweep_refetchOnly s) (by decide))
  | intervalEnd => exact done_upholds h (takeIntervalEnd_upholds s)
  | shareWindow => exact done_upholds h (takeShareWindow_upholds s)
  | lapseExpiry x => exact done_upholds h (expireLapse_upholds x s)
  | silenceExpiry n => exact done_upholds h (expireSilence_upholds n s)
  | joinExpiry n => exact done_upholds h (expireJoin_upholds n s)
  | lingerExpiry n => exact done_upholds h (expireLinger_upholds n s)
  | loadFreshnessExpiry n => exact done_upholds h (expireFreshness_upholds n s)
  | lineQuietEnd => exact done_upholds h (endQuiet_upholds s)
  | messageOffered => exact done_upholds h (offerMessage_upholds s)
  | arbitrationLost => exact done_upholds h (loseArbitration_upholds s)
  | transmitError => exact done_upholds h (transmitErrorAt_upholds s)
  | messageCompleted => exact done_upholds h (completeMessage_upholds s)
  | messageDiscardedRx m r o => exact done_upholds h (receiveOctets_upholds m r o s)
  | helloReceived a b p => exact done_upholds h (receive_upholds _ _ _ _ (helloPayload_upholds a p) s)
  | linkReceived a b p => exact done_upholds h (receive_upholds _ _ _ _ (linkPayload_upholds a p) s)
  | loadReceived a b p => exact done_upholds h (receive_upholds _ _ _ _ (loadPayload_upholds a p) s)
  | reachReceived a b p => exact done_upholds h (receive_upholds _ _ _ _ (reachPayload_upholds a p) s)
  | startExport a b g p => exact done_upholds h (receiveOrder_upholds 1 a b g p s)
  | haltExport a b g p => exact done_upholds h (receiveOrder_upholds 2 a b g p s)
  | holdExport a b g p => exact done_upholds h (receiveOrder_upholds 3 a b g p s)
  | resumeExport a b g p => exact done_upholds h (receiveOrder_upholds 4 a b g p s)
  | discardInterval a b g p => exact done_upholds h (receiveOrder_upholds 5 a b g p s)
  | closeInterval a b g p => exact done_upholds h (receiveOrder_upholds 6 a b g p s)
  | status a b g p => exact done_upholds h (receiveOrder_upholds 7 a b g p s)
  | restart a b g p => exact done_upholds h (receiveOrder_upholds 8 a b g p s)
  | unknownOrder a b p => exact done_upholds h (receive_upholds _ _ _ _ (takeOrderPayload_upholds a b p) s)
  | refetchReadComplete o => exact done_upholds h (completeRead_upholds o s)
  | fullReset v => cases h; exact resetState_upholds v s
  | imageLoadComplete img => exact done_upholds h (completeLoad_upholds img s)
  | messageNotHandedOn c a b => exact done_upholds h (receive_upholds _ _ _ _ Upholds.refl s)

/-- The step on an empty queue: a due command, or a microsecond (log entry 1). -/
theorem idle_upholds {s t : State} (h : idle s = .next t) : Upholds s t := by
  unfold idle at h
  split at h
  · exact exec_upholds h
  · cases h
    exact .of_same rfl rfl rfl rfl id

theorem step_upholds {s t : State} (h : step s = .next t) : Upholds s t := by
  unfold step takeNext at h
  split at h
  · exact idle_upholds h
  · next rest _ =>
    have taken : Upholds s { s with pending := rest } := .of_same rfl rfl rfl rfl id
    exact taken.trans (exec_upholds h)

/-- Settles O54: every operation upholds the three laws, so every command does, and so every step. -/
theorem restraintAndLoadLawsAreKept : Obligations.RestraintAndLoadLawsAreKept := by
  unfold Obligations.RestraintAndLoadLawsAreKept
  intro s t h
  obtain ⟨restraint, share, index⟩ := step_upholds h
  exact ⟨restraint, share, index⟩

end Sys2Proof.Machine
end

section
/-! O59 fails: R149's predicate (`State.silenceLaw`) lists the slots of LINK, LOAD, REACH, END and RECORD and the message on the
line, but says nothing of the content of slot 1, where only a HELLO belongs. Nor does the type of the slot: `wHello` may hold a
message of any class. From a state that holds a silenced message there, an offer brings it to the line. -/

namespace Sys2Proof.Machine

theorem PortQueues.quiet_empty : ({} : PortQueues).quiet := ⟨rfl, by decide⟩

/-- A buffer without copies keeps the X-ports quiet, in service or not. -/
theorem quiet_of_buffer_empty {s : State} (h : s.buffer = {}) (p : Port) : (s.buffer.ports[p]).quiet := by
  have : s.buffer.ports[p] = {} := by rw [h]; exact Vector.getElem_replicate p.isLt
  rw [this]
  exact PortQueues.quiet_empty

theorem silenceLaw_of_silent {s : State} (line : s.line.silent) (buffer : s.buffer = {}) : s.silenceLaw :=
  ⟨fun _ => line, fun x _ => quiet_of_buffer_empty buffer (xPort x)⟩

/-- A line with nothing but a message in slot 1 counts as silent, whatever the class of that message. -/
theorem silent_of_wHello_only (m : TxMsg) : GroupLine.silent { wHello := some m } :=
  ⟨rfl, rfl, rfl, rfl, rfl, by simp⟩

/-- A silenced message on the line of a station that may not notify breaks R149. -/
theorem not_silenceLaw_of_onLine {s : State} {m : TxMsg} (notify : s.mayNotify = false) (line : s.line.onLine = some m)
    (silenced : m.body.silenced = true) : ¬ s.silenceLaw := by
  rintro ⟨silent, -⟩
  obtain ⟨-, -, -, -, -, clean⟩ := silent notify
  exact absurd silenced (by simp [clean m line])

/-- Slot 1 is offered when slot 0 is empty (R134). -/
theorem GroupLine.lowest_of_wHello {l : GroupLine} {m : TxMsg} (link : l.wLink = none) (hello : l.wHello = some m) :
    l.lowest = some (m, { l with wHello := none }) := by
  simp [GroupLine.lowest, link, hello]

/-- An offer at an idle line puts the message of the lowest slot there, whatever its class (R134). -/
theorem offerMessage_of_lowest {s : State} {m : TxMsg} {l : GroupLine} (started : s.lineStarted = true)
    (quiet : s.line.quiet = none) (free : s.line.onLine = none) (lowest : s.line.lowest = some (m, l)) :
    offerMessage s = { s with line := { l with onLine := some m } } := by
  simp [offerMessage, started, quiet, free, lowest]

theorem step_of_messageOffered {s : State} {rest : List Instr} (h : s.pending = .messageOffered :: rest) :
    step s = .next (offerMessage { s with pending := rest }) := by
  unfold step takeNext
  rw [h]
  exact done_of _

/-- A LOAD notice, of a class that CONFLICT and FAILSAFE silence. -/
def strayLoad : TxMsg := { dst := 15, body := .load 0 0 [] none 0 0 false }

/-- A station in FAILSAFE, about to offer, with the LOAD notice in the HELLO's slot. -/
def misfiled : State :=
  { State.reset with
    pending := [.messageOffered], loader := { phase := .failsafe, station := 1 }, line := { wHello := some strayLoad } }

theorem misfiled_silenceLaw : misfiled.silenceLaw :=
  silenceLaw_of_silent (silent_of_wHello_only strayLoad) rfl

/-- The offer puts the LOAD notice on the line of the station in FAILSAFE. -/
theorem step_misfiled : step misfiled =
    .next { misfiled with pending := [], line := { onLine := some strayLoad } } := by
  rw [step_of_messageOffered rfl,
    offerMessage_of_lowest (by decide) rfl rfl (GroupLine.lowest_of_wHello (m := strayLoad) rfl rfl)]
  rfl

/-- Refutes O59: the station in FAILSAFE with a LOAD notice in slot 1 keeps R149 as stated, and its next step sends the
notice. -/
theorem not_silenceLawIsKept : ¬ Obligations.SilenceLawIsKept := by
  unfold Obligations.SilenceLawIsKept
  intro kept
  exact not_silenceLaw_of_onLine rfl rfl rfl (kept misfiled _ misfiled_silenceLaw step_misfiled)

end Sys2Proof.Machine
end

section
/-! O52: a frame's counts and its rating, each said once; the saturating addition of R156 carries them all. -/

namespace Sys2Proof.Machine

/-! ## Counting by direction (R152, R156) -/

@[simp] theorem Accumulator.outbound_charge (len : Nat) (a : Accumulator) :
    (a.outbound len).charge = a.charge := rfl

@[simp] theorem Accumulator.outbound_residue (len : Nat) (a : Accumulator) :
    (a.outbound len).residue = a.residue := rfl

@[simp] theorem Accumulator.inbound_charge (len : Nat) (a : Accumulator) :
    (a.inbound len).charge = a.charge := rfl

@[simp] theorem Accumulator.inbound_residue (len : Nat) (a : Accumulator) :
    (a.inbound len).residue = a.residue := rfl

theorem Accumulator.outbound_outF_toNat (len : Nat) (a : Accumulator) :
    (a.outbound len).outF.toNat = min (a.outF.toNat + 1) (2 ^ 40 - 1) := satAdd_toNat a.outF 1

theorem Accumulator.outbound_outO_toNat (len : Nat) (a : Accumulator) :
    (a.outbound len).outO.toNat = min (a.outO.toNat + len) (2 ^ 48 - 1) := satAdd_toNat a.outO len

theorem Accumulator.inbound_inF_toNat (len : Nat) (a : Accumulator) :
    (a.inbound len).inF.toNat = min (a.inF.toNat + 1) (2 ^ 40 - 1) := satAdd_toNat a.inF 1

theorem Accumulator.inbound_inO_toNat (len : Nat) (a : Accumulator) :
    (a.inbound len).inO.toNat = min (a.inO.toNat + len) (2 ^ 48 - 1) := satAdd_toNat a.inO len

theorem Accumulator.outbound_saturated_iff (len : Nat) (a : Accumulator) :
    (a.outbound len).saturated = true
      ↔ a.saturated = true ∨ 2 ^ 40 ≤ a.outF.toNat + 1 ∨ 2 ^ 48 ≤ a.outO.toNat + len := by
  simp [Accumulator.outbound, satAdd_flag, or_assoc]

theorem Accumulator.inbound_saturated_iff (len : Nat) (a : Accumulator) :
    (a.inbound len).saturated = true
      ↔ a.saturated = true ∨ 2 ^ 40 ≤ a.inF.toNat + 1 ∨ 2 ^ 48 ≤ a.inO.toNat + len := by
  simp [Accumulator.inbound, satAdd_flag, or_assoc]

/-! ## Rating (R155) -/

theorem Accumulator.rate_charge_toNat (fee rate len : Nat) (a : Accumulator) :
    (a.rate fee rate len).charge.toNat
      = min (a.charge.toNat + rateSum fee rate len a.residue.toNat / 1024) (2 ^ 48 - 1) :=
  satAdd_toNat a.charge _

/-- Step 3: below the largest value of the charge units, the residue is the remainder, which 10 bits hold. -/
theorem Accumulator.rate_residue_toNat (fee rate len : Nat) {a : Accumulator} (h : a.charge.toNat < 2 ^ 48 - 1) :
    (a.rate fee rate len).residue.toNat = rateSum fee rate len a.residue.toNat % 1024 := by
  have notFull : a.charge ≠ BitVec.allOnes 48 := fun full => by simp [full] at h
  have remainder : (a.rate fee rate len).residue = BitVec.ofNat 10 (rateSum fee rate len a.residue.toNat % 1024) :=
    if_neg notFull
  simp [remainder]

/-- Charge units that stand at the largest value leave the residue as it stands. -/
theorem Accumulator.rate_residue_of_full (fee rate len : Nat) {a : Accumulator} (h : a.charge.toNat = 2 ^ 48 - 1) :
    (a.rate fee rate len).residue = a.residue := by
  have full : a.charge = BitVec.allOnes 48 := BitVec.eq_of_toNat_eq (h.trans BitVec.toNat_allOnes.symm)
  exact if_pos full

theorem Accumulator.rate_saturated_iff (fee rate len : Nat) (a : Accumulator) :
    (a.rate fee rate len).saturated = true
      ↔ a.saturated = true ∨ 2 ^ 48 ≤ a.charge.toNat + rateSum fee rate len a.residue.toNat / 1024 := by
  simp [Accumulator.rate, satAdd_flag]

/-! ## A frame counted, then rated -/

theorem Accumulator.rate_outbound_saturated_iff (fee rate len : Nat) (a : Accumulator) :
    ((a.outbound len).rate fee rate len).saturated = true
      ↔ a.saturated = true ∨ 2 ^ 40 ≤ a.outF.toNat + 1 ∨ 2 ^ 48 ≤ a.outO.toNat + len
        ∨ 2 ^ 48 ≤ a.charge.toNat + rateSum fee rate len a.residue.toNat / 1024 := by
  rw [rate_saturated_iff, outbound_saturated_iff, outbound_charge, outbound_residue, or_assoc, or_assoc]

theorem Accumulator.rate_inbound_saturated_iff (fee rate len : Nat) (a : Accumulator) :
    ((a.inbound len).rate fee rate len).saturated = true
      ↔ a.saturated = true ∨ 2 ^ 40 ≤ a.inF.toNat + 1 ∨ 2 ^ 48 ≤ a.inO.toNat + len
        ∨ 2 ^ 48 ≤ a.charge.toNat + rateSum fee rate len a.residue.toNat / 1024 := by
  rw [rate_saturated_iff, inbound_saturated_iff, inbound_charge, inbound_residue, or_assoc, or_assoc]

/-- Settles O52: the direction's counts, the charge, the residue and SATURATED each by its own lemma above; the rest is left as it
stands by the definitions of counting and rating. -/
theorem ratingIsExact : Obligations.RatingIsExact := by
  unfold Obligations.RatingIsExact
  intro a fee rate len n up down
  refine ⟨?outF, ?outO, rfl, rfl, rfl, ?charge, ?residue, ?residueFull, ?upSaturated, ?inF, ?inO, ?downSaturated,
    rfl, rfl, rfl, rfl, rfl, rfl, rfl⟩
  case outF => exact a.outbound_outF_toNat len
  case outO => exact a.outbound_outO_toNat len
  case charge => exact (a.outbound len).rate_charge_toNat fee rate len
  case residue => exact Accumulator.rate_residue_toNat fee rate len (a := a.outbound len)
  case residueFull => exact Accumulator.rate_residue_of_full fee rate len (a := a.outbound len)
  case upSaturated => exact a.rate_outbound_saturated_iff fee rate len
  case inF => exact a.inbound_inF_toNat len
  case inO => exact a.inbound_inO_toNat len
  case downSaturated => exact a.rate_inbound_saturated_iff fee rate len

end Sys2Proof.Machine
end

section
/-! The queue of commands and the time base (O1 to O3): what a step takes, and that every command completes. -/

namespace Sys2Proof.Machine

/-! ## Timed events (log entry 1) -/

/-- The timed events that an empty queue is searched for, in their order. -/
def State.timedEvents (s : State) : List (Option Instr) :=
  s.generatorsDue ++ s.portTimersDue ++ s.slotTimersDue ++ [dueAt s.time.now s.line.quiet .lineQuietEnd]

theorem dueAt_eq_some {now : Time} {t : Option Time} {i j : Instr} :
    dueAt now t i = some j ↔ i = j ∧ ∃ u, t = some u ∧ reached now u = true := by
  cases t with
  | none => simp [dueAt]
  | some u => by_cases h : reached now u = true <;> simp [dueAt, h]

/-- Each of them is a command with its own timer. -/
theorem eq_dueAt_of_mem_timedEvents {s : State} {x : Option Instr} (h : x ∈ s.timedEvents) :
    ∃ i, x = dueAt s.time.now (s.timerOf i) i := by
  simp only [State.timedEvents, List.mem_append, List.mem_singleton] at h
  rcases h with ((h | h) | h) | h
  · simp only [State.generatorsDue, List.mem_cons, List.not_mem_nil, or_false] at h
    rcases h with h | h | h | h | h | h | h
    · exact ⟨.sample, h⟩
    · exact ⟨.loadDue, h⟩
    · exact ⟨.helloDue, h⟩
    · exact ⟨.oneSecondEvent, h⟩
    · exact ⟨.refreshEnd, h⟩
    · exact ⟨.intervalEnd, h⟩
    · exact ⟨.shareWindow, h⟩
  · simp only [State.portTimersDue, List.mem_append, List.mem_flatMap, List.mem_map, List.mem_cons,
      List.not_mem_nil, or_false] at h
    rcases h with ⟨p, -, h | h⟩ | ⟨p, -, h⟩
    · exact ⟨.holdExpiry p, h⟩
    · exact ⟨.decayExpiry p, h⟩
    · exact ⟨.lapseExpiry p, h.symm⟩
  · simp only [State.slotTimersDue, List.mem_flatMap, List.mem_cons, List.not_mem_nil, or_false] at h
    obtain ⟨n, -, h | h | h | h⟩ := h
    · exact ⟨.silenceExpiry n, h⟩
    · exact ⟨.joinExpiry n, h⟩
    · exact ⟨.lingerExpiry n, h⟩
    · exact ⟨.loadFreshnessExpiry n, h⟩
  · exact ⟨.lineQuietEnd, h⟩

theorem mem_allPorts (p : Port) : p ∈ allPorts := List.mem_finRange p

theorem mem_allX (x : XIndex) : x ∈ allX := by revert x; decide

theorem mem_allSlots (n : SlotNo) : n ∈ allSlots := by revert n; decide

/-- Every running timer is among them. -/
theorem dueAt_mem_timedEvents {s : State} {i : Instr} {u : Time} (h : s.timerOf i = some u) :
    dueAt s.time.now (s.timerOf i) i ∈ s.timedEvents := by
  simp only [State.timedEvents, List.mem_append, List.mem_singleton]
  cases i with
  | sample | loadDue | helloDue | oneSecondEvent | refreshEnd | intervalEnd | shareWindow =>
    exact .inl (.inl (.inl (by simp [State.generatorsDue, State.timerOf])))
  | holdExpiry p =>
    exact .inl (.inl (.inr (List.mem_append_left _ (List.mem_flatMap.2 ⟨p, mem_allPorts p, by simp [State.timerOf]⟩))))
  | decayExpiry p =>
    exact .inl (.inl (.inr (List.mem_append_left _ (List.mem_flatMap.2 ⟨p, mem_allPorts p, by simp [State.timerOf]⟩))))
  | lapseExpiry x => exact .inl (.inl (.inr (List.mem_append_right _ (List.mem_map_of_mem (mem_allX x)))))
  | silenceExpiry n | joinExpiry n | lingerExpiry n | loadFreshnessExpiry n =>
    exact .inl (.inr (List.mem_flatMap.2 ⟨n, mem_allSlots n, by simp [State.timerOf]⟩))
  | lineQuietEnd => exact .inr rfl
  | _ => simp [State.timerOf] at h

/-- The command that an empty queue takes runs on a timer whose moment has come. -/
theorem timerOf_of_dueCommand {s : State} {i : Instr} (h : s.dueCommand = some i) :
    ∃ u, s.timerOf i = some u ∧ reached s.time.now u = true := by
  obtain ⟨x, mem, hx⟩ := List.exists_of_findSome?_eq_some (show s.timedEvents.findSome? id = some i from h)
  obtain ⟨j, rfl⟩ := eq_dueAt_of_mem_timedEvents mem
  obtain ⟨rfl, u, hu, now⟩ := dueAt_eq_some.1 hx
  exact ⟨u, hu, now⟩

theorem not_reached_of_dueCommand {s : State} (h : s.dueCommand = none) {i : Instr} {u : Time}
    (hu : s.timerOf i = some u) : reached s.time.now u = false := by
  have none_due := List.findSome?_eq_none_iff.1 (show s.timedEvents.findSome? id = none from h) _
    (dueAt_mem_timedEvents hu)
  by_contra now
  have due : dueAt s.time.now (s.timerOf i) i = some i := dueAt_eq_some.2 ⟨rfl, u, hu, by simpa using now⟩
  simp [due] at none_due

theorem step_of_pending {c : Instr} {rest : List Instr} {s : State} (h : s.pending = c :: rest) :
    step s = exec c { s with pending := rest } := by
  unfold step takeNext
  rw [h]

theorem step_of_empty {s : State} (h : s.pending = []) : step s = idle s := by
  unfold step takeNext
  rw [h]

/-- Settles O1. -/
theorem stepTakesTheFrontCommand : Obligations.StepTakesTheFrontCommand := by
  unfold Obligations.StepTakesTheFrontCommand
  intro c rest s h
  exact step_of_pending h

/-- Settles O2, by whether some timed event is due. -/
theorem emptyQueueRunsTheTimeBase : Obligations.EmptyQueueRunsTheTimeBase := by
  unfold Obligations.EmptyQueueRunsTheTimeBase
  intro s h
  rw [step_of_empty h]
  unfold idle
  cases due : s.dueCommand with
  | some i =>
    obtain ⟨u, hu, now⟩ := timerOf_of_dueCommand due
    exact .inl ⟨i, u, hu, now, rfl⟩
  | none => exact .inr ⟨fun i u hu => not_reached_of_dueCommand due hu, rfl⟩

end Sys2Proof.Machine
end

section
/-! The laws of O55 to O58 read four blocks: the buffer, the forwarding table with the reach queue, the meter with its pending
intervals, and the runs of the channels. Here every command is taken apart once into the operations that change one of
them and steps that change none (`Quiet`), so that a relation between states holds along every command when it holds along each
of these operations (`Steps`). -/

namespace Sys2Proof.Machine

/-! ## Steps that change nothing that the laws read -/

/-- A channel stays in its run: it ends, or it keeps source and mark and its cursor, or goes back to the mark. -/
def Channel.Within (x y : Channel) : Prop :=
  y.state = .idle ∨ (x.state ≠ .idle ∧ y.source = x.source ∧ y.mark = x.mark
    ∧ (y.cursor = x.cursor ∨ y.cursor = x.mark.cursor))

theorem Channel.Within.of_same {x y : Channel} (hs : y.state = x.state) (hsrc : y.source = x.source)
    (hm : y.mark = x.mark) (hc : y.cursor = x.cursor) : x.Within y := by
  by_cases h : x.state = .idle
  · exact .inl (hs.trans h)
  · exact .inr ⟨h, hsrc, hm, .inl hc⟩

/-- A channel that is not IDLE may take any state when it keeps source, mark and cursor. -/
theorem Channel.Within.of_busy {x y : Channel} (hs : x.state ≠ .idle) (hsrc : y.source = x.source)
    (hm : y.mark = x.mark) (hc : y.cursor = x.cursor) : x.Within y := .inr ⟨hs, hsrc, hm, .inl hc⟩

theorem Channel.Within.refl (x : Channel) : x.Within x := .of_same rfl rfl rfl rfl

theorem Channel.Within.trans {x y z : Channel} (h : x.Within y) (k : y.Within z) : x.Within z := by
  rcases k with k | ⟨hy, hsrc, hm, hc⟩
  · exact .inl k
  · rcases h with h | ⟨hx, hsrc', hm', hc'⟩
    · exact absurd h hy
    · refine .inr ⟨hx, hsrc.trans hsrc', hm.trans hm', ?_⟩
      rcases hc with hc | hc
      · rw [hc]; exact hc'
      · rw [hc, hm']; exact .inr rfl

theorem Channel.toMark_within (x : Channel) : x.Within x.toMark := by
  by_cases h : x.state = .idle
  · exact .inl h
  · exact .inr ⟨h, rfl, rfl, .inr rfl⟩

theorem Channel.terminate_within (causes : Causes) {x : Channel} (h : x.state ≠ .idle) :
    x.Within (x.terminate causes) := by
  unfold Channel.terminate
  by_cases hb : x.building = []
  · simp only [if_pos hb]; exact .of_busy h rfl rfl rfl
  · simp only [if_neg hb]; exact .of_busy h rfl rfl rfl

/-- Nothing that the laws of O55 to O58 read changes, but for channels that stay in their runs; nor do the waiting commands. -/
structure Quiet (s t : State) : Prop where
  pending : t.pending = s.pending
  station : t.loader.station = s.loader.station
  buffer : t.buffer = s.buffer
  table : t.fwd.table = s.fwd.table
  reach : t.fwd.queue = s.fwd.queue
  accs : t.meter.accs = s.meter.accs
  number : t.meter.number = s.meter.number
  intervals : t.meter.queue = s.meter.queue
  chans : ∀ c, (s.chan c).Within (t.chan c)

theorem Quiet.refl (s : State) : Quiet s s := ⟨rfl, rfl, rfl, rfl, rfl, rfl, rfl, rfl, fun _ => .refl _⟩

theorem Quiet.trans {s t u : State} (h : Quiet s t) (k : Quiet t u) : Quiet s u where
  pending := k.pending.trans h.pending
  station := k.station.trans h.station
  buffer := k.buffer.trans h.buffer
  table := k.table.trans h.table
  reach := k.reach.trans h.reach
  accs := k.accs.trans h.accs
  number := k.number.trans h.number
  intervals := k.intervals.trans h.intervals
  chans := fun c => (h.chans c).trans (k.chans c)

/-- The blocks that the laws read, the loader apart. -/
abbrev readBlocks : List Block := [.pending, .buffer, .fwd, .meter, .chans]

theorem Quiet.of_refetchOnly {l : List Block} {s t : State} (h : Frame l s t) (r : RefetchOnly s t)
    (k : ∀ b ∈ readBlocks, b ∉ l) : Quiet s t where
  pending := h.pending (k _ (by decide))
  station := r.station
  buffer := h.buffer (k _ (by decide))
  table := by rw [h.fwd (k _ (by decide))]
  reach := by rw [h.fwd (k _ (by decide))]
  accs := by rw [h.meter (k _ (by decide))]
  number := by rw [h.meter (k _ (by decide))]
  intervals := by rw [h.meter (k _ (by decide))]
  chans := fun c => by
    have : t.chan c = s.chan c := by rw [State.chan, h.chans (k _ (by decide)), State.chan]
    rw [this]
    exact .refl _

theorem Quiet.of_frame {l : List Block} {s t : State} (h : Frame l s t)
    (k : ∀ b ∈ Block.loader :: readBlocks, b ∉ l) : Quiet s t :=
  .of_refetchOnly h (.of_frame h (k _ (by decide))) fun b hb => k b (List.mem_cons_of_mem _ hb)

theorem Quiet.of_loader {s : State} {l : Loader} (h : l.station = s.loader.station) :
    Quiet s { s with loader := l } := ⟨rfl, h, rfl, rfl, rfl, rfl, rfl, rfl, fun _ => .refl _⟩

theorem Quiet.of_line (s : State) (l : GroupLine) : Quiet s { s with line := l } :=
  ⟨rfl, rfl, rfl, rfl, rfl, rfl, rfl, rfl, fun _ => .refl _⟩

theorem Quiet.setChan {c : Fin 2} {f : Channel → Channel} {s : State} (h : (s.chan c).Within (f (s.chan c))) :
    Quiet s (setChan c f s) :=
  ⟨rfl, rfl, rfl, rfl, rfl, rfl, rfl, rfl, fun d => by
    by_cases hd : d = c
    · subst hd; rw [chan_setChan]; exact h
    · rw [chan_setChan_ne hd]; exact .refl _⟩

theorem Quiet.eachState {α : Type} {f : α → State → State} (k : ∀ a t, Quiet t (f a t)) (as : List α) (s : State) :
    Quiet s (eachState f as s) := by
  induction as generalizing s with
  | nil => exact .refl s
  | cons a as ih => exact (k a s).trans (ih _)

theorem Quiet.eachOut {α : Type} {f : α → State → Out} (k : ∀ a t, Quiet t (f a t).st) (as : List α) (s : State) :
    Quiet s (eachOut f as s).st := by
  induction as generalizing s with
  | nil => exact .refl s
  | cons a as ih => exact (k a s).trans (ih _)

/-! ## Slots 6 and 7 -/

theorem fillEnd_quiet (s : State) : Quiet s (fillEnd s) := by
  unfold fillEnd
  split
  · split
    · exact .refl s
    · next r rs _ =>
      have taken : Quiet s { s with
          line := { s.line with wEnd := some { dst := r.dst, body := .endReport r } }
          chans := { s.chans with readyEnds := rs } } := ⟨rfl, rfl, rfl, rfl, rfl, rfl, rfl, rfl, fun _ => .refl _⟩
      exact taken.trans (.setChan (.of_same rfl rfl rfl rfl))
  · exact .refl s

theorem readyEnd_quiet (c : Fin 2) (s : State) : Quiet s (readyEnd c s) := by
  unfold readyEnd
  dsimp only
  split
  · next causes _ _ =>
    have ready : Quiet s (setChan c (fun y => { y with pendingEnd := some ⟨causes, .ready⟩ }) s) :=
      .setChan (.of_same rfl rfl rfl rfl)
    refine (ready.trans ?_).trans (fillEnd_quiet _)
    exact ⟨rfl, rfl, rfl, rfl, rfl, rfl, rfl, rfl, fun _ => .refl _⟩
  · exact .refl s

theorem fillRecord_quiet (s : State) : Quiet s (fillRecord s) := by
  unfold fillRecord
  split
  · split
    · exact .refl s
    · next c _ =>
      dsimp only
      split
      · exact .refl s
      · next o _ =>
        have taken : Quiet s { s with
            line := { s.line with
              wRecord := some { dst := (s.chan c).dst, body := .record c (s.chan c).source o.seq o.records } }
            chans := { s.chans with nextFirst := 1 - c } } := ⟨rfl, rfl, rfl, rfl, rfl, rfl, rfl, rfl, fun _ => .refl _⟩
        exact taken.trans (.setChan (.of_same rfl rfl rfl rfl))
  · exact .refl s

/-- A channel whose END may be ready, and slot 7 (R173, R179). -/
theorem fillRecord_readyEnd_quiet (c : Fin 2) (s : State) : Quiet s (fillRecord (readyEnd c s)) :=
  (readyEnd_quiet c s).trans (fillRecord_quiet _)

theorem endGone_quiet (c : Fin 2) (s : State) : Quiet s (endGone c s) :=
  (Quiet.setChan (.of_same rfl rfl rfl rfl)).trans (fillEnd_quiet _)

theorem returnRecords_quiet (c : Fin 2) (s : State) : Quiet s (returnRecords c s) := by
  have back (t : State) : Quiet t (setChan c Channel.toMark t) := .setChan (Channel.toMark_within _)
  unfold returnRecords
  split
  · exact back s
  · split
    · exact (Quiet.setChan (.of_same rfl rfl rfl rfl)).trans (.of_frame (askWithdrawal_frame _) (by decide))
    · split
      · exact (Quiet.of_line s _).trans (back _)
      · exact back s

theorem exportEvent_quiet (c : Fin 2) (s : State) : Quiet s (exportEvent c s) := by
  unfold exportEvent
  dsimp only
  split
  · next h =>
    exact (Quiet.setChan (Channel.terminate_within _ (by simp [h.1]))).trans (fillRecord_readyEnd_quiet c _)
  · exact .refl s

theorem holdChannel_quiet {c : Fin 2} {s : State} (h : (s.chan c).state = .running) : Quiet s (holdChannel c s) :=
  ((Quiet.setChan (.of_busy (by simp [h]) rfl rfl rfl)).trans (returnRecords_quiet c _)).trans (fillRecord_quiet _)

theorem haltChannel_quiet (c : Fin 2) (s : State) : Quiet s (haltChannel c s) := by
  unfold haltChannel
  dsimp only
  have idle (t : State) : Quiet t (setChan c (fun x => { x with
      state := .idle, pendingEnd := some ⟨{ halted := true }, .prepared⟩ }) t) := .setChan (.inl rfl)
  split
  · exact ((returnRecords_quiet c s).trans (idle _)).trans (fillRecord_readyEnd_quiet c _)
  · exact (idle s).trans (fillRecord_readyEnd_quiet c _)

theorem conflictChannel_quiet (c : Fin 2) (s : State) : Quiet s (conflictChannel c s) := by
  refine .setChan ?_
  generalize s.chan c = x
  split
  · next h => exact .inr ⟨by simp [h], rfl, rfl, .inr rfl⟩
  · split
    · exact (Channel.toMark_within x).trans (.of_same rfl rfl rfl rfl)
    · exact .of_same rfl rfl rfl rfl

theorem conflictChannels_quiet (s : State) : Quiet s (conflictChannels s) :=
  (Quiet.eachState conflictChannel_quiet bothChans s).trans
    ⟨rfl, rfl, rfl, rfl, rfl, rfl, rfl, rfl, fun _ => .refl _⟩

/-! ## Steps that change what the laws read -/

/-- A relation that every operation on the four blocks goes along, and every quiet step. The removal of an interval and a full
reset stand apart. -/
structure Steps (R : State → State → Prop) : Prop where
  trans : ∀ {s t u}, R s t → R t u → R s u
  quiet : ∀ {s t}, Quiet s t → R s t
  enqueue : ∀ p c (x : Copy) s, s.portReady p = true → x.cells ≤ s.buffer.free → R s (enqueueCopy p c x s)
  transmitted : ∀ p s, R s (endTransmission p s)
  flush : ∀ p s, R s (flushPort p s)
  testSlot : ∀ i s, R s (testSlot i s).st
  learn : ∀ p t a s, R s (learnKey p t a s)
  join : ∀ h t a s, h.station ≠ s.loader.station → R s (joinKey h t a s)
  leave : ∀ st t a s, R s (leaveKey st t a s)
  queueReach : ∀ op t a s, R s (queueReach op t a s)
  composeReach : ∀ s, R s (composeReach s)
  reinsert : ∀ n f s, R s (reinsertFixed n f s)
  age : ∀ i s, R s (ageSlot i s).st
  fillFixed : ∀ n e s, R s (fillFixed n e s)
  testAcc : ∀ k s, R s (testAcc k s).st
  countDrop : ∀ t b s, R s (changeAcc (accKey t b) Accumulator.drop s).st
  flag : ∀ t b s, R s (changeAcc (accKey t b) (fun a => { a with restrained := true }) s).st
  meter : ∀ d e g s, R s (meterFrame d e g s).st
  close : ∀ s, s.closes = true → R s (closeInterval s).st
  start : ∀ c p (i : Interval) s, (∃ n, s.named n = some i) → R s (setChan c (startedChannel p i.number) s)
  produce : ∀ b c s, R s (produce b c s).st
  restart : ∀ s, R s (restartState s)

namespace Steps

variable {R : State → State → Prop} (h : Steps R)
include h

theorem refl (s : State) : R s s := h.quiet (.refl s)

theorem andThen {s : State} {o : Out} {f : State → Out} (ho : R s o.st) (k : ∀ t, R t (f t).st) :
    R s (o.andThen f).st := h.trans ho (k o.st)

theorem also {s : State} {o : Out} {f : State → State} (ho : R s o.st) (k : ∀ t, R t (f t)) :
    R s (o.also f).st := h.trans ho (k o.st)

theorem eachOut {α : Type} {f : α → State → Out} (k : ∀ a t, R t (f a t).st) (as : List α) (s : State) :
    R s (eachOut f as s).st := by
  induction as generalizing s with
  | nil => exact h.refl s
  | cons a as ih => exact h.trans (k a s) (ih _)

theorem eachState {α : Type} {f : α → State → State} (k : ∀ a t, R t (f a t)) (as : List α) (s : State) :
    R s (eachState f as s) := by
  induction as generalizing s with
  | nil => exact h.refl s
  | cons a as ih => exact h.trans (k a s) (ih _)

/-- A frame outside the four blocks and the loader is a quiet step. -/
theorem frame {l : List Block} {s t : State} (hf : Frame l s t) (k : ∀ b ∈ Block.loader :: readBlocks, b ∉ l) : R s t :=
  h.quiet (.of_frame hf k)

/-! ## Event links -/

theorem boundary (s : State) : R s (boundary s).st := by
  unfold Machine.boundary
  split
  · split
    · next hc => exact h.close s hc
    · exact h.quiet ⟨rfl, rfl, rfl, rfl, rfl, rfl, rfl, rfl, fun _ => .refl _⟩
  · exact h.refl s

theorem act (a : LinkAction) (s : State) : R s (act a s).st := by
  cases a with
  | sendLoad => exact h.frame (composeLoad_frame s) (by decide)
  | sendLink => exact h.frame (composeLink_frame s) (by decide)
  | closeInterval => exact h.boundary s
  | exportEvent c => exact h.quiet (exportEvent_quiet c s)
  | markInterval code => exact h.quiet ⟨rfl, rfl, rfl, rfl, rfl, rfl, rfl, rfl, fun _ => .refl _⟩

theorem fireLink (n : Nat) (l : EventLink) (s : State) : R s (fireLink n l s).st :=
  h.also (h.act l.action s) fun t => h.frame (setLink_frame n _ t) (by decide)

theorem hearEvent (e : Event) (n : Nat) (s : State) : R s (hearEvent e n s).st := by
  unfold Machine.hearEvent
  split
  · exact h.refl s
  · split
    · split
      · exact h.fireLink n _ s
      · exact h.frame (setLink_frame n _ s) (by decide)
    · exact h.refl s

theorem takeEvent (e : Event) (s : State) : R s (takeEvent e s).st := by
  unfold Machine.takeEvent
  split
  · exact h.eachOut (h.hearEvent e) _ s
  · exact h.refl s

theorem settleEvents (n : Nat) (es : List Event) (s : State) : R s (settleEvents n es s) := by
  induction n generalizing es s with
  | zero => exact h.refl s
  | succ n ih => exact h.eachState (fun e t => h.trans (h.takeEvent e t) (ih _ _)) es s

theorem conclude (o : Out) : R o.st (conclude o) := h.settleEvents 8 o.evs o.st

theorem lowerHoldOffs (s : State) : R s (lowerHoldOffs s).st := by
  refine h.eachOut (fun n t => ?_) _ s
  unfold lowerHoldOff
  split
  · exact h.refl t
  · split
    · exact h.refl t
    · split
      · exact h.fireLink n _ t
      · exact h.frame (setLink_frame n _ t) (by decide)

/-! ## Ports and peers -/

theorem withView {f : State → Out} {s : State} (hf : R s (f s).st) : R s (withView f s).st :=
  h.andThen hf fun t => h.frame (settleView_frame s t) (by decide)

theorem portToHeld (p : Port) (s : State) : R s (portToHeld p s).st :=
  h.also (h.trans (h.frame (startHold_frame p s) (by decide)) (h.frame (setPort_frame p _ _) (by decide))) (h.flush p)

theorem takeCarrierUp (p : Port) (s : State) : R s (takeCarrierUp p s).st := by
  have carrier : R s (setPort p (fun u => { u with carrier := true }) s) := h.frame (setPort_frame p _ s) (by decide)
  unfold Machine.takeCarrierUp
  dsimp only
  split
  · exact h.trans carrier (h.withView (h.frame (portToUp_frame p _) (by decide)))
  · exact carrier

theorem takeCarrierDown (p : Port) (s : State) : R s (takeCarrierDown p s).st := by
  have carrier : R s (setPort p (fun u => { u with carrier := false }) s) := h.frame (setPort_frame p _ s) (by decide)
  unfold Machine.takeCarrierDown
  dsimp only
  split
  · split
    · exact h.trans carrier (h.withView (h.portToHeld p _))
    · exact h.trans carrier (h.withView (h.portToHeld p _))
    · exact h.trans carrier (h.frame (startHold_frame p _) (by decide))
    · exact carrier
  · exact carrier

theorem expireHold (p : Port) (s : State) : R s (expireHold p s).st := by
  unfold Machine.expireHold
  split
  · exact h.refl s
  · next u _ =>
    have ended (f : PortUnit → PortUnit) : R s (setPort p f (reachTime u s)) :=
      h.trans (h.frame (reachTime_frame u s) (by decide)) (h.frame (setPort_frame p f _) (by decide))
    exact h.trans (ended _) (h.withView (h.frame (endHold_frame p _) (by decide)))

theorem portSecond (p : Port) (s : State) : R s (portSecond p s).st := by
  refine h.also ?_ fun t => h.frame (setPort_frame p _ t) (by decide)
  split
  · exact h.withView (h.frame (comparePort_frame p s) (by decide))
  · exact h.refl s

theorem takePortHello (x : XIndex) (l : List Byte) (s : State) : R s (takePortHello x l s).st := by
  unfold Machine.takePortHello
  split
  · exact h.withView (h.frame (setPort_frame _ _ s) (by decide))
  · exact h.refl s

theorem expireLapse (x : XIndex) (s : State) : R s (expireLapse x s).st := by
  unfold Machine.expireLapse
  split
  · exact h.refl s
  · exact h.trans (h.frame (reachTime_frame _ s) (by decide)) (h.withView (h.frame (setPort_frame _ _ _) (by decide)))

/-! ## Forwarding table -/

theorem testBucket (b : Nat) (s : State) : R s (testBucket b s).st := h.eachOut h.testSlot (bucketSlots b) s

theorem lookup (t : Tenant) (a : Addr) (s : State) : R s (lookup t a s).2.st := by
  unfold Machine.lookup
  dsimp only
  split
  · exact h.testBucket _ s
  · split <;> exact h.refl s

/-- A change of the table's counters and positions alone. -/
theorem fwdCounts {s : State} {f : Forwarding} (ht : f.table = s.fwd.table) (hq : f.queue = s.fwd.queue) :
    R s { s with fwd := f } := h.quiet ⟨rfl, rfl, rfl, ht, hq, rfl, rfl, rfl, fun _ => .refl _⟩

theorem announceFixed (f : FixedCfg) (s : State) : R s (announceFixed f s) := by
  unfold Machine.announceFixed
  split
  · exact h.queueReach _ _ _ s
  · exact h.refl s

theorem announceEntry (i : Nat) (s : State) : R s (announceEntry i s) := by
  unfold Machine.announceEntry
  split
  · split
    · split
      · exact h.queueReach _ _ _ s
      · exact h.refl s
    · exact h.refl s
  · exact h.refl s

theorem advanceSweep (i : Nat) (s : State) : R s (advanceSweep i s) := by
  unfold Machine.advanceSweep
  split
  · exact h.fwdCounts rfl rfl
  · split <;> exact h.fwdCounts rfl rfl

theorem visitSweep (s : State) : R s (visitSweep s).st := by
  unfold Machine.visitSweep
  split
  · split
    · exact h.also (h.testSlot _ s) fun t => h.trans (h.announceEntry _ t) (h.advanceSweep _ _)
    · exact h.refl s
  · exact h.refl s

theorem visitAging (s : State) : R s (visitAging s).st := by
  unfold Machine.visitAging
  split
  · refine h.also (h.eachOut h.age _ s) fun t => ?_
    split <;> exact h.fwdCounts rfl rfl
  · exact h.refl s

theorem endRefresh (s : State) : R s (endRefresh s) := by
  unfold Machine.endRefresh
  dsimp only
  split <;> exact h.fwdCounts rfl rfl

theorem applyItem (st : Station) (it : ReachItem) {s : State} (hs : st ≠ s.loader.station) :
    R s (applyItem st it s).st := by
  have station := (testBucket_refetchOnly (bucketOf it.tenant it.addr) s).station
  unfold Machine.applyItem
  rw [Out.also_st]
  refine h.trans (h.testBucket (bucketOf it.tenant it.addr) s) ?_
  split
  · split
    · exact h.join _ _ _ _ (station ▸ hs)
    · exact h.refl _
  · exact h.leave _ _ _ _

theorem takeReach (st : Station) (r : ReachRx) {s : State} (hs : st ≠ s.loader.station) : R s (takeReach st r s).st := by
  unfold Machine.takeReach
  split
  · next hl =>
    clear hl
    generalize r.items = items
    induction items generalizing s with
    | nil => exact h.refl s
    | cons it items ih =>
      exact h.trans (h.applyItem st it hs) (ih ((applyItem_refetchOnly st it s).station ▸ hs))
  · exact h.fwdCounts rfl rfl

/-! ## Frames -/

theorem admitCopies (d : Descriptor) (l : List Byte) (cs : List CopyPlan) (s : State) :
    R s (admitCopies d l cs s).2 := by
  induction cs generalizing s with
  | nil => exact h.refl s
  | cons c cs ih =>
    simp only [Machine.admitCopies]
    split
    · exact h.trans (h.frame (countDrop_frame _ _ s) (by decide)) (ih _)
    · next hn => exact h.trans (h.enqueue _ _ _ s (admission_eq_none.1 hn).1 (admission_eq_none.1 hn).2.2) (ih _)

theorem reportNone (d : Descriptor) (s : State) : R s (reportNone d s).st := by
  unfold Machine.reportNone
  split
  · exact h.countDrop _ _ s
  · exact h.refl s

theorem restrainFrame (d : Descriptor) (r : DropReason) (s : State) : R s (restrainFrame d r s).st := by
  refine h.andThen (h.trans (h.frame (countDrop_frame _ _ s) (by decide)) (h.reportNone d _)) fun t => ?_
  unfold flagRestrained
  split
  · exact h.flag _ _ t
  · exact h.refl t

theorem admitFrame (d : Descriptor) (l : List Byte) (cs : List CopyPlan) (s : State) : R s (admitFrame d l cs s).st := by
  have admitted := h.admitCopies d l cs s
  unfold Machine.admitFrame
  dsimp only
  split
  · unfold reportAdmitted
    split
    · exact h.trans admitted (h.meter _ _ _ _)
    · exact admitted
  · exact h.trans admitted (h.reportNone d _)

theorem deliver (d : Descriptor) (l : List Byte) (x : Decision) (s : State) : R s (deliver d l x s).st := by
  cases x with
  | drop r => exact h.trans (h.frame (countDrop_frame _ _ s) (by decide)) (h.reportNone d _)
  | copies cs =>
    simp only [Machine.deliver, offerCopies]
    split
    · exact h.refl s
    · split
      · exact h.restrainFrame _ _ s
      · exact h.admitFrame _ _ _ s

theorem decideFrame (d : Descriptor) (s : State) : R s (decideFrame d s).2.st := by
  unfold Machine.decideFrame
  split
  · unfold decideEdge
    split <;> split
    all_goals first | exact h.refl s | exact h.lookup _ _ s
  · unfold decideCross
    split
    · exact h.refl s
    · split
      · exact h.refl s
      · split
        · exact h.refl s
        · exact h.lookup _ _ s

theorem forwardFrame (d : Descriptor) (l : List Byte) (s : State) : R s (forwardFrame d l s).st :=
  h.andThen (h.decideFrame d s) (h.deliver d l _)

theorem learnFrame (d : Descriptor) (a : Addr) (s : State) : R s (learnFrame d a s).st := by
  unfold Machine.learnFrame
  split
  · split
    · exact h.refl s
    · exact h.also (h.testBucket _ s) (h.learn _ _ _)
  · exact h.refl s

theorem readTenant (t : Tenant) (s : State) : R s (readTenant t s).2.st :=
  h.quiet (.of_refetchOnly (readTenant_frame t s) (readTenant_refetchOnly t s) (by decide))

theorem edgeFrame (p : Port) (l : List Byte) (s : State) : R s (edgeFrame p l s).st := by
  have rules : R s (searchRules p (frameView l) s.rules s).2.st :=
    h.quiet (.of_refetchOnly (searchRules_frame _ _ _ s) (searchRules_refetchOnly _ _ _ s) (by decide))
  unfold Machine.edgeFrame
  dsimp only
  split
  · exact h.also rules fun t => h.frame (countDrop_frame _ _ t) (by decide)
  · refine h.andThen rules fun s1 => ?_
    split
    · exact h.also (h.readTenant _ s1) fun t => h.frame (countDrop_frame _ _ t) (by decide)
    · exact h.andThen (h.readTenant _ s1) fun s2 => h.andThen (h.learnFrame _ _ s2) (h.forwardFrame _ _)

theorem crossFrame (p : Port) (l : List Byte) (s : State) : R s (crossFrame p l s).st := by
  have dropped (r : DropReason) (t : State) : R t (Machine.countDrop p r t) := h.frame (countDrop_frame _ _ t) (by decide)
  unfold Machine.crossFrame
  split
  · exact dropped _ s
  · split
    · exact dropped _ s
    · split
      · exact dropped _ s
      · dsimp only
        split
        · exact h.also (h.readTenant _ s) (dropped _)
        · exact h.andThen (h.readTenant _ s) (h.forwardFrame _ _)

theorem takeFrame (p : Port) (l : List Byte) (s : State) : R s (takeFrame p l s).st := by
  unfold Machine.takeFrame
  split
  · exact h.refl s
  · split
    · exact h.frame (dropIngress_frame _ _ s) (by decide)
    · split
      · split
        · exact h.takePortHello _ _ s
        · exact h.crossFrame _ _ s
      · exact h.edgeFrame _ _ s

/-! ## Periodic events -/

theorem takeSample (s : State) : R s (takeSample s).st := by
  have raised : R s (raiseSample s) := h.trans (h.frame (reachTime_frame _ s) (by decide))
    (h.quiet ⟨rfl, rfl, rfl, rfl, rfl, rfl, rfl, rfl, fun _ => .refl _⟩)
  unfold Machine.takeSample
  dsimp only
  split
  · refine h.andThen (h.andThen (h.trans raised (h.frame (sampleLoad_frame _) (by decide))) fun t => ?_) h.lowerHoldOffs
    exact h.frame (sampleRestraint_frame t) (by decide)
  · exact raised

theorem makePortHello (x : XIndex) (s : State) : R s (makePortHello x s) := by
  unfold Machine.makePortHello
  split
  · exact h.refl s
  · next hr =>
    split
    · exact h.refl s
    · split
      · exact h.frame (countDrop_frame _ _ s) (by decide)
      · next hf => exact h.enqueue _ _ _ s (by simpa using hr) (show 1 ≤ s.buffer.free by omega)

theorem countHello_quiet (s : State) : R s (countHello s) := by
  unfold countHello
  dsimp only
  split
  · exact h.quiet ⟨rfl, rfl, rfl, rfl, rfl, rfl, rfl, rfl, fun _ => .refl _⟩
  · exact h.quiet (.of_loader rfl)

theorem actHello (s : State) : R s (actHello s) := by
  unfold Machine.actHello
  split
  · refine h.trans (h.trans (h.countHello_quiet s) (h.eachState h.makePortHello allX _)) ?_
    unfold periodicLink
    split
    · exact h.frame (composeLink_frame _) (by decide)
    · exact h.refl _
  · exact h.refl s

/-- The time base takes the time to a due moment, and the next one is set. -/
theorem timed (t : Time) (s : State) (b : State → TimeBase) :
    R s { reachTime t s with time := b (reachTime t s) } :=
  h.trans (h.frame (reachTime_frame t s) (by decide)) (h.quiet ⟨rfl, rfl, rfl, rfl, rfl, rfl, rfl, rfl, fun _ => .refl _⟩)

theorem takeLoadDue (s : State) : R s (takeLoadDue s) := by
  unfold Machine.takeLoadDue
  split
  · exact h.refl s
  · exact h.trans (h.timed _ s fun s1 => { s1.time with loadDue := _ }) (h.frame (composeLoad_frame _) (by decide))

theorem takeHelloDue (s : State) : R s (takeHelloDue s) := by
  unfold Machine.takeHelloDue
  split
  · exact h.refl s
  · exact h.trans (h.trans (h.timed _ s fun s1 => { s1.time with helloDue := _ }) (h.actHello _))
      (h.frame (composeHello_frame _) (by decide))

theorem takeRefreshEnd (s : State) : R s (takeRefreshEnd s) := by
  unfold Machine.takeRefreshEnd
  split
  · exact h.refl s
  · exact h.trans (h.timed _ s fun s1 => { s1.time with refreshDue := _ }) (h.endRefresh _)

theorem takeIntervalEnd (s : State) : R s (takeIntervalEnd s).st := by
  unfold Machine.takeIntervalEnd
  split
  · exact h.refl s
  · exact h.trans (h.timed _ s fun s1 => { s1.time with intervalDue := _ }) (h.boundary _)

theorem takeSecond (s : State) : R s (takeSecond s).st := by
  have raised : R s (raiseSecond s) := h.timed _ s fun s1 => { s1.time with secondDue := _ }
  unfold Machine.takeSecond
  dsimp only
  split
  · exact raised
  · exact h.also (h.trans raised (h.eachOut h.portSecond allPorts _)) fun t => h.fwdCounts rfl rfl

theorem takeShareWindow (s : State) : R s (takeShareWindow s) := by
  refine h.trans (h.timed _ s fun s1 => { s1.time with shareDue := _ })
    (h.trans (h.eachState (fun c t => h.quiet (.setChan ?_)) bothChans _) (h.quiet (fillRecord_quiet _)))
  exact .of_same rfl rfl rfl rfl

/-! ## Start and refetch -/

theorem addClamps (n : Nat) (s : State) : R s (addClamps n s) := h.quiet (.of_loader rfl)

theorem fillCollector (e : List Byte) (s : State) : R s (fillCollector e s) := by
  unfold Machine.fillCollector
  dsimp only
  split
  · exact h.addClamps 1 s
  · split
    · exact h.refl s
    · exact h.quiet ⟨rfl, rfl, rfl, rfl, rfl, rfl, rfl, rfl, fun _ => .refl _⟩

theorem fillTables (img : List Byte) (s : State) : R s (fillTables img s) := by
  have other {t u : State} (q : Quiet t u) : R t u := h.quiet q
  have taken (p : Params) (t : State) : R t { t with params := p } :=
    other ⟨rfl, rfl, rfl, rfl, rfl, rfl, rfl, rfl, fun _ => .refl _⟩
  have params : R s (fillParams (sectionEntries img 1 5) (Machine.addClamps (unknownSects img) s)) :=
    h.trans (h.trans (h.addClamps _ s) (taken _ _)) (h.addClamps _ _)
  have port (e : List Byte) (t : State) : R t (fillPort e t) := by
    unfold fillPort
    split
    · exact h.trans (h.frame (setPort_frame _ _ t) (by decide)) (h.addClamps _ _)
    · exact h.addClamps 1 t
  have rule (e : List Byte) (t : State) : R t (fillRule e t) :=
    other ⟨rfl, rfl, rfl, rfl, rfl, rfl, rfl, rfl, fun _ => .refl _⟩
  have tenant (e : List Byte) (t : State) : R t (fillTenant e t) :=
    other ⟨rfl, rfl, rfl, rfl, rfl, rfl, rfl, rfl, fun _ => .refl _⟩
  have tariff (e : List Byte) (t : State) : R t (fillTariff e t) :=
    other ⟨rfl, rfl, rfl, rfl, rfl, rfl, rfl, rfl, fun _ => .refl _⟩
  have link (e : List Byte) (t : State) : R t (fillLink e t) := by
    unfold fillLink
    split <;> exact other ⟨rfl, rfl, rfl, rfl, rfl, rfl, rfl, rfl, fun _ => .refl _⟩
  have fixed (n : Nat) (es : List (List Byte)) (t : State) : R t (fillFixedAll n es t) := by
    induction es generalizing n t with
    | nil => exact h.refl t
    | cons e es ih => exact h.trans (h.fillFixed n e t) (ih _ _)
  have ports := h.trans params (h.eachState port (sectionEntries img 2 2) _)
  have rules := h.trans ports (h.eachState rule (sectionEntries img 3 16) _)
  have tenants := h.trans rules (h.eachState tenant (sectionEntries img 4 18) _)
  have tariffs := h.trans tenants (h.eachState tariff (sectionEntries img 5 13) _)
  have links := h.trans tariffs (h.eachState link (sectionEntries img 7 6) _)
  have collectors := h.trans links (h.eachState h.fillCollector (sectionEntries img 8 1) _)
  have filled := h.trans collectors (fixed 0 (sectionEntries img 6 10) _)
  exact h.trans filled (h.eachState (fun (x : Nat × FixedCfg) t => h.announceFixed x.2 t) _ _)

theorem enterPhase (p : Phase) (s : State) : R s (enterPhase p s) := h.quiet (.of_loader rfl)

theorem restartGenerators (s : State) : R s (restartGenerators s) :=
  h.quiet ⟨rfl, rfl, rfl, rfl, rfl, rfl, rfl, rfl, fun _ => .refl _⟩

theorem enterJoining (s : State) : R s (enterJoining s).st := by
  have opened : R s (openJoining (Machine.restartGenerators (Machine.enterPhase .joining s))) :=
    h.trans (h.trans (h.enterPhase .joining s) (h.restartGenerators _))
      (h.quiet ⟨rfl, rfl, rfl, rfl, rfl, rfl, rfl, rfl, fun _ => .refl _⟩)
  have isolated (t : State) : R t (if t.uCount = 0 then turnIsolated true t else .of t).st := by
    split
    · exact h.frame (turnIsolated_frame true t) (by decide)
    · exact h.refl t
  have started (t : State) : R t (Machine.eachOut startPort allPorts t).st :=
    h.frame (Frame.eachOut startPort_frame allPorts t) (by decide)
  unfold Machine.enterJoining
  refine h.also (h.andThen (h.trans opened (started _)) isolated) ?_
  exact fun t => h.trans (h.trans (h.frame (composeHello_frame t) (by decide)) (h.frame (composeLink_frame _) (by decide)))
    (h.composeReach _)

theorem enterFailsafe (reason : Nat) (img : List Byte) (s : State) : R s (enterFailsafe reason img s) := by
  have params (n : Nat) : R s (Machine.addClamps n { s with params := (salvageParams img).1 }) :=
    h.quiet ⟨rfl, rfl, rfl, rfl, rfl, rfl, rfl, rfl, fun _ => .refl _⟩
  have collectors (t : State) : R t (salvageCollectors img t) := by
    unfold salvageCollectors
    split
    · exact h.quiet ⟨rfl, rfl, rfl, rfl, rfl, rfl, rfl, rfl, fun _ => .refl _⟩
    · exact h.eachState h.fillCollector _ t
  unfold Machine.enterFailsafe
  refine h.trans ?_ (h.frame (composeHello_frame _) (by decide))
  refine h.trans (h.trans ?_ (h.enterPhase _ _)) (h.restartGenerators _)
  exact h.trans (h.trans (params _) (collectors _)) (h.quiet (.of_loader rfl))

theorem completeLoad (img : List Byte) (s : State) : R s (completeLoad img s).st := by
  unfold Machine.completeLoad
  split
  · unfold endLoading
    split
    · exact h.enterFailsafe _ img s
    · exact h.trans (h.fillTables img s) (h.enterJoining _)
  · exact h.refl s

theorem setInteg (i : CfgItem) (v : Integrity) (s : State) : R s (setInteg i v s) :=
  h.frame (setInteg_frame i v s) (by decide)

theorem leaveRefetch (s : State) : R s (leaveRefetch s) := by
  unfold Machine.leaveRefetch
  dsimp only
  split
  · exact h.quiet (.of_loader rfl)
  · refine h.trans ?_ (h.setInteg _ _ _)
    exact h.quiet (.of_loader rfl)

theorem restoreEntry (i : CfgItem) (e : List Byte) (s : State) : R s (restoreEntry i e s) := by
  unfold Machine.restoreEntry
  split <;> exact h.quiet ⟨rfl, rfl, rfl, rfl, rfl, rfl, rfl, rfl, fun _ => .refl _⟩

theorem reinsertRestored (i : CfgItem) (e : List Byte) (s : State) : R s (reinsertRestored i e s).st := by
  unfold Machine.reinsertRestored
  split
  · exact h.also (h.testBucket _ s) (h.reinsert _ _)
  · exact h.refl s

theorem completeRead (e : List Byte) (s : State) : R s (completeRead e s).st := by
  unfold Machine.completeRead
  split
  · exact h.refl s
  · split
    · unfold endRead
      split
      · exact h.trans (h.trans (h.restoreEntry _ e s) (h.leaveRefetch _)) (h.reinsertRestored _ e _)
      · split
        · exact h.quiet (.of_loader rfl)
        · refine h.trans (h.trans ?_ (h.setInteg _ _ _)) (h.leaveRefetch _)
          exact h.quiet (.of_loader rfl)
    · exact h.refl s

/-! ## The group line, sending -/

theorem offerMessage (s : State) : R s (offerMessage s) := by
  unfold Machine.offerMessage
  split
  · split
    · exact h.quiet (.of_line s _)
    · exact h.refl s
  · exact h.refl s

theorem returnMessage (m : TxMsg) (s : State) : R s (returnMessage m s) := by
  unfold Machine.returnMessage
  split
  · exact h.refl s
  · exact h.quiet (.of_line s _)

theorem channelFreed (c : Fin 2) (s : State) : R s (channelFreed c s).st :=
  h.also (h.produce false c s) fun t => h.quiet (fillRecord_readyEnd_quiet c t)

theorem withdrawnOutcome (m : TxMsg) (s : State) : R s (withdrawnOutcome m s).st := by
  unfold Machine.withdrawnOutcome
  split
  · exact h.trans (h.quiet (.setChan (Channel.toMark_within _))) (h.channelFreed _ _)
  · exact h.refl s

theorem slotFreed (m : TxMsg) (s : State) : R s (slotFreed m s) := by
  unfold Machine.slotFreed
  split
  · split
    · exact h.restart s
    · exact h.refl s
  · exact h.composeReach s
  · exact h.quiet (endGone_quiet _ s)
  · exact h.refl s

theorem completedOutcome (m : TxMsg) (s : State) : R s (completedOutcome m s).st := by
  unfold Machine.completedOutcome
  split
  · exact h.trans (h.quiet (.setChan (.of_same rfl rfl rfl rfl))) (h.channelFreed _ _)
  · exact h.slotFreed m s

theorem discardedOutcome (m : TxMsg) (s : State) : R s (discardedOutcome m s).st := by
  unfold Machine.discardedOutcome
  split
  · exact h.trans (h.quiet (.setChan (.of_same rfl rfl rfl rfl))) (h.channelFreed _ _)
  · exact h.slotFreed m s

theorem loseArbitration (s : State) : R s (loseArbitration s).st := by
  unfold Machine.loseArbitration
  split
  · exact h.refl s
  · split
    · exact h.trans (h.quiet (.of_line s _)) (h.withdrawnOutcome _ _)
    · exact h.trans (h.quiet (.of_line s _)) (h.returnMessage _ _)

theorem completeMessage (s : State) : R s (completeMessage s).st := by
  unfold Machine.completeMessage
  split
  · exact h.refl s
  · exact h.trans (h.quiet (.of_line s _)) (h.completedOutcome _ _)

theorem countDiscard (s : State) : R s (countDiscard s) := by
  unfold Machine.countDiscard enterQuiet
  split <;> exact h.quiet (.of_line s _)

theorem transmitErrorAt (s : State) : R s (transmitErrorAt s).st := by
  unfold Machine.transmitErrorAt
  split
  · exact h.refl s
  · dsimp only
    have cleared : R s (clearLine { s with line := { s.line with txError := satInc s.line.txError } }) :=
      h.quiet (.of_line s _)
    split
    · exact h.trans cleared (h.withdrawnOutcome _ _)
    · split
      · exact cleared
      · split
        · exact h.trans cleared (h.returnMessage _ _)
        · exact h.trans (h.trans cleared (h.countDiscard _)) (h.discardedOutcome _ _)

theorem endQuiet (s : State) : R s (endQuiet s) := by
  unfold Machine.endQuiet
  split
  · exact h.refl s
  · exact h.trans (h.frame (reachTime_frame _ s) (by decide)) (h.quiet (.of_line _ _))

theorem enterConflict (s : State) : R s (enterConflict s).st := by
  unfold Machine.enterConflict
  dsimp only
  refine h.andThen (h.also ?_ fun t => ?_) fun t => h.frame (dropLostDiversion_frame t) (by decide)
  · refine h.trans ?_ (h.frame (Frame.eachOut freeSlotNow_frame allSlots _) (by decide))
    refine h.trans (h.trans ?_ (h.quiet (conflictChannels_quiet _))) (h.frame (composeHello_frame _) (by decide))
    exact h.quiet (.of_line s _)
  · exact h.eachState (fun x u => h.trans (h.flush _ u) (h.frame (setPort_frame _ _ _) (by decide))) allX t

/-! ## Orders -/

end Steps

/-- A run of steps, or one that a discard opens: quiet steps, the removal of an interval that may be discarded, and then a run
of steps. -/
def DiscardOr (R : State → State → Prop) (s t : State) : Prop :=
  R s t ∨ ∃ n s1, Quiet s s1 ∧ s1.discardRefusal n = none ∧ R (removeInterval n s1).st t

namespace Steps

variable {R : State → State → Prop} (h : Steps R)
include h

theorem discardOr_refl (s : State) : DiscardOr R s s := .inl (h.refl s)

theorem discardOr_quiet {s t : State} (k : Quiet s t) : DiscardOr R s t := .inl (h.quiet k)

theorem discardOr_trans {s t u : State} (k : DiscardOr R s t) (r : R t u) : DiscardOr R s u := by
  rcases k with k | ⟨n, s1, q, hr, k⟩
  · exact .inl (h.trans k r)
  · exact .inr ⟨n, s1, q, hr, h.trans k r⟩

theorem quiet_discardOr {s t u : State} (q : Quiet s t) (k : DiscardOr R t u) : DiscardOr R s u := by
  rcases k with k | ⟨n, s1, q', hr, k⟩
  · exact .inl (h.trans (h.quiet q) k)
  · exact .inr ⟨n, s1, q.trans q', hr, k⟩

theorem orderStart (ps : List Byte) (s : State) : R s (orderStart ps s).2.st := by
  unfold Machine.orderStart
  split
  · unfold startOn
    split
    · exact h.refl s
    · split
      · exact h.refl s
      · next i hi =>
        split
        · exact h.refl s
        · exact h.trans (h.start _ _ i s ⟨_, hi⟩) (h.produce _ _ _)
  · exact h.refl s

theorem orderHalt (ps : List Byte) (s : State) : R s (orderHalt ps s).2.st := by
  unfold Machine.orderHalt
  split
  · exact h.refl s
  · split
    · exact h.refl s
    · split
      · exact h.refl s
      · exact h.quiet (haltChannel_quiet _ s)

theorem orderHold (ps : List Byte) (s : State) : R s (orderHold ps s).2.st := by
  unfold Machine.orderHold
  split
  · exact h.refl s
  · split
    · next hr => exact h.quiet (holdChannel_quiet hr)
    · exact h.refl s

theorem orderResume (ps : List Byte) (s : State) : R s (orderResume ps s).2.st := by
  unfold Machine.orderResume
  split
  · exact h.refl s
  · split
    · exact h.refl s
    · split
      · exact h.refl s
      · next hs =>
        exact h.trans (h.quiet (.setChan (.of_busy (fun k => hs (.inl k)) rfl rfl rfl))) (h.produce _ _ _)

theorem orderDiscard (ps : List Byte) (s : State) : DiscardOr R s (orderDiscard ps s).2.st := by
  unfold Machine.orderDiscard
  split
  · exact h.discardOr_refl s
  · unfold discardOf
    split
    · exact h.discardOr_refl s
    · next hn => exact .inr ⟨_, s, .refl s, hn, h.refl _⟩

theorem orderStatus (ps : List Byte) (s : State) : R s (orderStatus ps s).2.st := by
  unfold Machine.orderStatus
  split
  · exact h.refl s
  · dsimp only
    split
    · unfold statusStation; split <;> exact h.refl s
    · unfold statusPort
      split
      · split <;> exact h.refl s
      · exact h.refl s
    · unfold statusPeers; split <;> exact h.refl s
    · unfold statusTenant
      split
      · exact h.refl s
      · exact h.eachOut h.testAcc _ s
      · exact h.refl s
    · unfold statusIntervals; split <;> exact h.refl s
    · exact h.refl s

theorem orderRule (kind : Byte) (ps : List Byte) (s : State) : DiscardOr R s (orderRule kind ps s).2.st := by
  unfold Machine.orderRule
  generalize kind.toNat = k
  split
  · exact .inl (h.orderStart ps s)
  · exact .inl (h.orderHalt ps s)
  · exact .inl (h.orderHold ps s)
  · exact .inl (h.orderResume ps s)
  · exact h.orderDiscard ps s
  · exact .inl (h.boundary s)
  · exact .inl (h.orderStatus ps s)
  · exact h.discardOr_quiet ⟨rfl, rfl, rfl, rfl, rfl, rfl, rfl, rfl, fun _ => .refl _⟩
  · exact h.discardOr_refl s

theorem takeOrder (src dst : Station) (kind : Byte) (tag : BitVec 16) {f : State → Verdict × Out} {s : State}
    (hf : DiscardOr R s (f s).2.st) : DiscardOr R s (takeOrder src dst kind tag f s).st := by
  have judged : DiscardOr R s (judgeOrder kind f s).2.st := by
    unfold judgeOrder
    split
    · exact h.discardOr_refl s
    · split
      · exact h.discardOr_refl s
      · exact hf
  unfold Machine.takeOrder
  split
  · exact h.discardOr_quiet ⟨rfl, rfl, rfl, rfl, rfl, rfl, rfl, rfl, fun _ => .refl _⟩
  · split
    · exact h.discardOr_refl s
    · split
      · exact h.discardOr_quiet ⟨rfl, rfl, rfl, rfl, rfl, rfl, rfl, rfl, fun _ => .refl _⟩
      · exact h.discardOr_trans judged (h.quiet (.of_line _ _))

theorem takeOrderPayload (src dst : Station) (l : List Byte) (s : State) :
    DiscardOr R s (takeOrderPayload src dst l s).st := by
  refine h.takeOrder _ _ _ _ ?_
  split
  · exact h.discardOr_refl s
  · exact h.orderRule _ _ s

/-! ## Reception -/

/-- A received message (R142 to R144): its dispatch starts at a state of the same station number, another than its
source. -/
theorem receive (cls : Nat) (src dst : Station) (payload : List Byte) {f : State → Out}
    (hf : ∀ t : State, src ≠ t.loader.station → DiscardOr R t (f t).st) (s : State) :
    DiscardOr R s (receive cls src dst payload f s).st := by
  have heard : Quiet s (refreshHeard src s) := .of_frame (refreshHeard_frame src s) (by decide)
  unfold Machine.receive
  split
  · exact h.discardOr_refl s
  · split
    · exact h.discardOr_quiet (.of_line s _)
    · split
      · unfold ownNumber
        split
        · unfold ownHello
          split
          · exact h.discardOr_refl s
          · exact .inl (h.enterConflict s)
        · exact h.discardOr_quiet (.of_line s _)
      · next own =>
        split
        · exact h.quiet_discardOr heard (hf _ (heard.station ▸ own))
        · exact h.discardOr_quiet heard

theorem withPayload {α : Type} (r : Option α) {f : α → State → Out} {s : State} (hf : ∀ x, R s (f x s).st) :
    R s (withPayload r f s).st := by
  unfold Machine.withPayload
  split
  · exact h.quiet (.of_line s _)
  · exact hf _

theorem helloPayload (src : Station) (payload : List Byte) (s : State) :
    R s (Machine.withPayload (readHello payload) (takeHello src) s).st :=
  h.withPayload _ fun x => h.frame (takeHello_frame src x s) (by decide)

theorem linkPayload (src : Station) (payload : List Byte) (s : State) :
    R s (Machine.withPayload (readLink payload) (takeLink src) s).st :=
  h.withPayload _ fun x => h.frame (takeLink_frame src x s) (by decide)

theorem loadPayload (src : Station) (payload : List Byte) (s : State) :
    R s (Machine.withPayload (readLoad payload) (fun r t => .of (takeLoad src r t)) s).st :=
  h.withPayload _ fun x => h.frame (takeLoad_frame src x s) (by decide)

theorem reachPayload (src : Station) (payload : List Byte) {s : State} (hs : src ≠ s.loader.station) :
    R s (Machine.withPayload (readReach payload) (Machine.takeReach src) s).st :=
  h.withPayload _ fun x => h.takeReach src x hs

theorem dispatch (cls : Nat) (src dst : Station) (payload : List Byte) {s : State} (hs : src ≠ s.loader.station) :
    DiscardOr R s (dispatch cls src dst payload s).st := by
  unfold Machine.dispatch
  split
  · exact .inl (h.linkPayload src payload s)
  · exact .inl (h.helloPayload src payload s)
  · exact h.takeOrderPayload src dst payload s
  · exact .inl (h.loadPayload src payload s)
  · exact .inl (h.reachPayload src payload hs)
  · exact h.discardOr_refl s

theorem receiveOctets (m : List Byte) (ranOn own : Bool) (s : State) : DiscardOr R s (receiveOctets m ranOn own s).st := by
  unfold Machine.receiveOctets
  split
  · exact h.discardOr_refl s
  · split
    · exact h.discardOr_quiet (.of_line s _)
    · split
      · exact h.discardOr_refl s
      · exact h.receive _ _ _ _ (fun t ht => h.dispatch _ _ _ _ ht) s

theorem receiveOrder (kind : Byte) (src dst : Station) (tag : BitVec 16) (ps : List Byte) (s : State) :
    DiscardOr R s (receiveOrder kind src dst tag ps s).st :=
  h.receive _ _ _ _ (fun t _ => h.takeOrder _ _ _ _ (h.orderRule kind ps t)) s

/-! ## Every command and every step -/

theorem done {s t : State} {o : Out} (e : done o = .next t) (k : DiscardOr R s o.st) : DiscardOr R s t := by
  cases e
  exact h.discardOr_trans k (h.conclude o)

/-- The time base after a timed command that changes what stands beside the laws. -/
theorem timedFrame {l : List Block} {s t : State} (hf : Frame l s t) (k : ∀ b ∈ Block.loader :: readBlocks, b ∉ l) :
    DiscardOr R s t := .inl (h.frame hf k)

theorem exec {i : Instr} {s t : State} (hi : ∀ v, i ≠ .fullReset v) (e : exec i s = .next t) : DiscardOr R s t := by
  cases i with
  | frameReceived p o => exact h.done e (.inl (h.takeFrame p o s))
  | transmissionEnd p => exact h.done e (.inl (h.transmitted p s))
  | carrierUp p => exact h.done e (.inl (h.takeCarrierUp p s))
  | carrierDown p => exact h.done e (.inl (h.takeCarrierDown p s))
  | holdExpiry p => exact h.done e (.inl (h.expireHold p s))
  | decayExpiry p => exact h.done e (h.timedFrame (expireDecay_frame p s) (by decide))
  | oneSecondEvent => exact h.done e (.inl (h.takeSecond s))
  | agingVisit => exact h.done e (.inl (h.visitAging s))
  | sample => exact h.done e (.inl (h.takeSample s))
  | loadDue => exact h.done e (.inl (h.takeLoadDue s))
  | helloDue => exact h.done e (.inl (h.takeHelloDue s))
  | refreshEnd => exact h.done e (.inl (h.takeRefreshEnd s))
  | sweepVisit => exact h.done e (.inl (h.visitSweep s))
  | intervalEnd => exact h.done e (.inl (h.takeIntervalEnd s))
  | shareWindow => exact h.done e (.inl (h.takeShareWindow s))
  | lapseExpiry x => exact h.done e (.inl (h.expireLapse x s))
  | silenceExpiry n => exact h.done e (h.timedFrame (expireSilence_frame n s) (by decide))
  | joinExpiry n => exact h.done e (h.timedFrame (expireJoin_frame n s) (by decide))
  | lingerExpiry n => exact h.done e (h.timedFrame (expireLinger_frame n s) (by decide))
  | loadFreshnessExpiry n => exact h.done e (h.timedFrame (expireFreshness_frame n s) (by decide))
  | lineQuietEnd => exact h.done e (.inl (h.endQuiet s))
  | messageOffered => exact h.done e (.inl (h.offerMessage s))
  | arbitrationLost => exact h.done e (.inl (h.loseArbitration s))
  | transmitError => exact h.done e (.inl (h.transmitErrorAt s))
  | messageCompleted => exact h.done e (.inl (h.completeMessage s))
  | messageDiscardedRx m r o => exact h.done e (h.receiveOctets m r o s)
  | helloReceived a b p => exact h.done e (h.receive _ _ _ _ (fun u _ => .inl (h.helloPayload a p u)) s)
  | linkReceived a b p => exact h.done e (h.receive _ _ _ _ (fun u _ => .inl (h.linkPayload a p u)) s)
  | loadReceived a b p => exact h.done e (h.receive _ _ _ _ (fun u _ => .inl (h.loadPayload a p u)) s)
  | reachReceived a b p => exact h.done e (h.receive _ _ _ _ (fun u hu => .inl (h.reachPayload a p hu)) s)
  | startExport a b g p => exact h.done e (h.receiveOrder 1 a b g p s)
  | haltExport a b g p => exact h.done e (h.receiveOrder 2 a b g p s)
  | holdExport a b g p => exact h.done e (h.receiveOrder 3 a b g p s)
  | resumeExport a b g p => exact h.done e (h.receiveOrder 4 a b g p s)
  | discardInterval a b g p => exact h.done e (h.receiveOrder 5 a b g p s)
  | closeInterval a b g p => exact h.done e (h.receiveOrder 6 a b g p s)
  | status a b g p => exact h.done e (h.receiveOrder 7 a b g p s)
  | restart a b g p => exact h.done e (h.receiveOrder 8 a b g p s)
  | unknownOrder a b p => exact h.done e (h.receive _ _ _ _ (fun u _ => h.takeOrderPayload a b p u) s)
  | refetchReadComplete o => exact h.done e (.inl (h.completeRead o s))
  | fullReset v => exact absurd rfl (hi v)
  | imageLoadComplete img => exact h.done e (.inl (h.completeLoad img s))
  | messageNotHandedOn c a b => exact h.done e (h.receive _ _ _ _ (fun u _ => h.discardOr_refl u) s)

/-- Every step is a full reset, or such a run from the state without its front command. -/
theorem step {s t : State} (e : step s = .next t) :
    (∃ v, s.pending.head? = some (.fullReset v) ∧ t = resetState v { s with pending := s.pending.tail })
      ∨ DiscardOr R { s with pending := s.pending.tail } t := by
  cases hp : s.pending with
  | nil =>
    rw [step_of_empty hp] at e
    unfold idle at e
    have same : ({ s with pending := [] } : State) = s := by rw [← hp]
    rw [List.tail_nil, same]
    refine .inr ?_
    split at e
    · next i due =>
      obtain ⟨u, hu, -⟩ := timerOf_of_dueCommand due
      refine h.exec (fun v hv => ?_) e
      rw [hv] at hu
      exact nomatch hu
    · cases e
      exact h.discardOr_quiet ⟨rfl, rfl, rfl, rfl, rfl, rfl, rfl, rfl, fun _ => .refl _⟩
  | cons c rest =>
    rw [step_of_pending hp] at e
    by_cases hc : ∃ v, c = .fullReset v
    · obtain ⟨v, rfl⟩ := hc
      cases e
      exact .inl ⟨v, rfl, rfl⟩
    · exact .inr (h.exec (fun v hv => hc ⟨v, hv⟩) e)

end Steps

/-! ## The waiting commands (O3) -/

theorem exec_next (c : Instr) (s : State) : ∃ t, exec c s = .next t := by
  cases c <;> exact ⟨_, rfl⟩

theorem addClamps_frame (n : Nat) (s : State) : Frame [.loader] s (addClamps n s) := by
  intro b hb; cases b <;> first | rfl | simp at hb

theorem setFixed_frame (m : List (Nat × FixedCfg)) (s : State) : Frame [.fixed] s { s with fixed := m } := by
  intro b hb; cases b <;> first | rfl | simp at hb

theorem fillFixed_frame (n : Nat) (e : List Byte) (s : State) : Frame [.fwd, .fixed, .loader] s (fillFixed n e s) := by
  have clamps (m : Nat) (t : State) : Frame [.fwd, .fixed, .loader] t (addClamps m t) :=
    (addClamps_frame m t).mono (by decide)
  unfold fillFixed
  dsimp only
  split
  · exact (clamps _ s).trans (clamps 1 _)
  · split
    · exact (clamps _ s).trans (clamps 1 _)
    · exact (clamps _ s).trans ((setFixed_frame _ _).seq (putEntry_frame _ _ _) (by decide) (by decide))

/-- No operation touches the waiting commands; a restart keeps them (log entry 3). -/
theorem pending_steps : Steps fun s t => t.pending = s.pending where
  trans h k := k.trans h
  quiet q := q.pending
  enqueue p c x s _ _ := (enqueueCopy_frame p c x s).pending (by decide)
  transmitted p s := (endTransmission_frame p s).pending (by decide)
  flush p s := (flushPort_frame p s).pending (by decide)
  testSlot i s := (testSlot_frame i s).pending (by decide)
  learn p t a s := (learnKey_frame p t a s).pending (by decide)
  join x t a s _ := (joinKey_frame x t a s).pending (by decide)
  leave st t a s := (leaveKey_frame st t a s).pending (by decide)
  queueReach op t a s := (queueReach_frame op t a s).pending (by decide)
  composeReach s := (composeReach_frame s).pending (by decide)
  reinsert n f s := (reinsertFixed_frame n f s).pending (by decide)
  age i s := (ageSlot_frame i s).pending (by decide)
  fillFixed n e s := (fillFixed_frame n e s).pending (by decide)
  testAcc k s := (testAcc_frame k s).pending (by decide)
  countDrop t b s := (changeAcc_frame _ _ s).pending (by decide)
  flag t b s := (changeAcc_frame _ _ s).pending (by decide)
  meter d e g s := (meterFrame_frame d e g s).pending (by decide)
  close s _ := (closeInterval_frame s).pending (by decide)
  start c p i s _ := (setChan_frame c _ s).pending (by decide)
  produce b c s := (produce_frame b c s).pending (by decide)
  restart _ := rfl

/-- Settles O3. -/
theorem everyCommandCompletes : Obligations.EveryCommandCompletes := by
  unfold Obligations.EveryCommandCompletes
  intro c s
  obtain ⟨t, e⟩ := exec_next c s
  refine ⟨t, e, ?_⟩
  by_cases hc : ∃ v, c = .fullReset v
  · obtain ⟨v, rfl⟩ := hc
    cases e
    rfl
  · rcases pending_steps.exec (fun v hv => hc ⟨v, hv⟩) e with k | ⟨n, s1, q, -, k⟩
    · exact k
    · exact k.trans (((removeInterval_frame n s1).pending (by decide)).trans q.pending)

end Sys2Proof.Machine
end

section
/-! The buffer manager (chapter 4): what an admission, a transmission end and a flush do to queues, pool and tenants, and the
conservation of cells (O14, O17, O58). -/

namespace Sys2Proof.Machine

/-! ## Conditions of a port, spelt out -/

theorem acting_iff {s : State} : s.acting = true ↔ s.loader.phase = .joining ∨ s.loader.phase = .running := by
  simp [State.acting]

theorem usable_iff {s : State} {p : Port} :
    s.usable p = true ↔ (s.port p).link = .up ∨ (s.port p).link = .degraded := by
  simp [State.usable, LinkState.usable]

theorem portReady_iff {s : State} {p : Port} : s.portReady p = true ↔ s.takesFrames p := by
  unfold State.portReady State.inService State.takesFrames
  rw [Bool.and_eq_true, Bool.and_eq_true, acting_iff, usable_iff, and_assoc]
  cases s.line.conflict <;> simp

theorem portReady_eq_false_iff {s : State} {p : Port} : s.portReady p = false ↔ ¬ s.takesFrames p := by
  rw [← portReady_iff, Bool.not_eq_true]

/-! ## Cells of tenants -/

theorem tenantCells_of_buffer {s t : State} (h : t.buffer = s.buffer) (y : Tenant) :
    t.tenantCells y = s.tenantCells y := by unfold State.tenantCells; rw [h]

/-- Setting the cells of a tenant; an unlisted tenant reads 0, so a value of 0 asks for the canonical form. -/
theorem mapGet_mapSet_tenant {m : List (Nat × Nat)} {x y : Tenant} {n : Nat} (h : n ≠ 0 ∨ mapWf m = true) :
    mapGet 0 (mapSet 0 m x.toNat n) y.toNat = if y = x then n else mapGet 0 m y.toNat := by
  by_cases e : y = x
  · subst e
    rw [if_pos rfl]
    rcases h with h | h
    · simp [mapGet, mapSet, h]
    · exact mapGet_mapSet h _ _
  · rw [if_neg e]
    exact mapGet_mapSet_ne m (fun k => e (BitVec.eq_of_toNat_eq k)) n

theorem tenantCells_holdCells {x : Copy} {s : State} (h : 1 ≤ x.cells ∨ mapWf s.buffer.tenantOcc = true) (y : Tenant) :
    (holdCells x s).tenantCells y = s.tenantCells y + if y = x.tenant then x.cells else 0 := by
  have set := mapGet_mapSet_tenant (m := s.buffer.tenantOcc) (x := x.tenant) (y := y)
    (n := s.tenantCells x.tenant + x.cells) (h.imp (fun h => by omega) id)
  refine set.trans ?_
  split
  · next e => rw [e]
  · rfl

theorem tenantCells_returnCells {x : Copy} {s : State} (h : mapWf s.buffer.tenantOcc = true) (y : Tenant) :
    (returnCells x s).tenantCells y = s.tenantCells y - if y = x.tenant then x.cells else 0 := by
  refine (mapGet_mapSet_tenant (.inr h)).trans ?_
  split
  · next e => rw [e]
  · rfl

/-! ## Queues -/

@[simp] theorem classes_setClass (c : Cls) (f : ClassQueue → ClassQueue) (q : PortQueues) :
    (setClass c f q).classes[c] = f q.classes[c] := by simp [setClass]

theorem classes_setClass_ne {c d : Cls} (h : d ≠ c) (f : ClassQueue → ClassQueue) (q : PortQueues) :
    (setClass c f q).classes[d] = q.classes[d] := by
  have : ¬ c.val = d.val := fun k => h (Fin.ext k.symm)
  simp [setClass, this]

theorem find?_classes (f : Cls → Bool) (d : Cls) :
    ([3, 2, 1, 0] : List Cls).find? f = some d ↔ f d = true ∧ ∀ e : Cls, d < e → f e = false := by
  revert f d
  decide

/-- The class that a port chooses is the highest one that holds a copy (R68). -/
theorem nextClass_eq_some {q : PortQueues} {d : Cls} :
    q.nextClass = some d ↔ q.classes[d].copies ≠ [] ∧ ∀ e : Cls, d < e → q.classes[e].copies = [] := by
  rw [PortQueues.nextClass, find?_classes]
  simp

theorem sendsHighest_of_nextClass {q : PortQueues} (h : q.sending = q.nextClass) : q.sendsHighest :=
  fun d => by rw [h, nextClass_eq_some]

/-! ## Transmission -/

theorem startTransmission_free (p : Port) (s : State) : (startTransmission p s).buffer.free = s.buffer.free := by
  unfold startTransmission; split <;> rfl

theorem startTransmission_tenantOcc (p : Port) (s : State) :
    (startTransmission p s).buffer.tenantOcc = s.buffer.tenantOcc := by
  unfold startTransmission; split <;> rfl

theorem startTransmission_queues (p : Port) (s : State) :
    (startTransmission p s).buffer.ports[p] =
      if s.portReady p = true ∧ (s.buffer.ports[p]).sending = none then
        { s.buffer.ports[p] with sending := (s.buffer.ports[p]).nextClass }
      else s.buffer.ports[p] := by
  unfold startTransmission
  by_cases hr : s.portReady p = true
  · rw [if_pos hr, queues_setQueues]
    cases (s.buffer.ports[p]).sending <;> simp [hr]
  · simp [hr]

theorem startTransmission_queues_ne {p q : Port} (h : q ≠ p) (s : State) :
    (startTransmission p s).buffer.ports[q] = s.buffer.ports[q] := by
  unfold startTransmission
  split
  · exact queues_setQueues_ne h _ _
  · rfl

/-- The start of a transmission leaves the class queues and the counts. -/
theorem startTransmission_same (p : Port) (s : State) (q : Port) :
    (∀ c : Cls, ((startTransmission p s).buffer.ports[q]).classes[c] = (s.buffer.ports[q]).classes[c])
      ∧ ((startTransmission p s).buffer.ports[q]).txCopies = (s.buffer.ports[q]).txCopies
      ∧ ((startTransmission p s).buffer.ports[q]).txOctets = (s.buffer.ports[q]).txOctets := by
  by_cases h : q = p
  · subst h
    rw [startTransmission_queues]
    split <;> exact ⟨fun _ => rfl, rfl, rfl⟩
  · rw [startTransmission_queues_ne h]
    exact ⟨fun _ => rfl, rfl, rfl⟩

/-- At a ready port with no copy in transmission the highest class that holds one is chosen. -/
theorem startTransmission_sendsHighest {p : Port} {s : State} (hr : s.portReady p = true)
    (hs : (s.buffer.ports[p]).sending = none) : ((startTransmission p s).buffer.ports[p]).sendsHighest := by
  refine sendsHighest_of_nextClass ?_
  rw [startTransmission_queues, if_pos ⟨hr, hs⟩]
  rfl

/-- A copy in transmission stays. -/
theorem startTransmission_sending {p : Port} {s : State} {d : Cls} (hs : (s.buffer.ports[p]).sending = some d) :
    ((startTransmission p s).buffer.ports[p]).sending = some d := by
  rw [startTransmission_queues, if_neg fun k => nomatch k.2.symm.trans hs]
  exact hs

/-! ## Admission -/

/-- A copy that is taken at a ready port with cells left is enqueued as R64 says. -/
theorem enqueueCopy_enqueued {p : Port} {c : Cls} {x : Copy} {s : State} (hr : s.portReady p = true)
    (hf : x.cells ≤ s.buffer.free) (hx : 1 ≤ x.cells ∨ mapWf s.buffer.tenantOcc = true) :
    Enqueued p c x s (enqueueCopy p c x s) := by
  have held : (holdCells x (setQueues p (setClass c (ClassQueue.push x)) s)).buffer.ports[p] =
      setClass c (ClassQueue.push x) s.buffer.ports[p] := queues_setQueues p _ s
  have ready : (holdCells x (setQueues p (setClass c (ClassQueue.push x)) s)).portReady p = true := hr
  have same := startTransmission_same p (holdCells x (setQueues p (setClass c (ClassQueue.push x)) s)) p
  rw [held] at same
  obtain ⟨classes, copies, octets⟩ := same
  refine ⟨?_, ?_, fun d hd => ?_, fun d hd => ?_, fun hd => ?_, copies, octets, fun q hq => ?_, fun y => ?_⟩
  · unfold enqueueCopy
    rw [startTransmission_free]
    exact Nat.sub_add_cancel hf
  · exact (classes c).trans (classes_setClass c _ _)
  · exact (classes d).trans (classes_setClass_ne hd _ _)
  · refine startTransmission_sending ?_
    rw [held]
    exact hd
  · refine startTransmission_sendsHighest ready ?_
    rw [held]
    exact hd
  · exact (startTransmission_queues_ne hq _).trans (queues_setQueues_ne hq _ s)
  · have occ : (enqueueCopy p c x s).tenantCells y =
        (holdCells x (setQueues p (setClass c (ClassQueue.push x)) s)).tenantCells y :=
      congrArg (fun m => mapGet 0 m y.toNat) (startTransmission_tenantOcc p _)
    exact occ.trans (tenantCells_holdCells hx y)

theorem admitCopies_of_refused {d : Descriptor} {octets : List Byte} {c : CopyPlan} {cs : List CopyPlan} {s : State}
    {r : DropReason} (h : s.admission c.port d.tcls (copyOf d octets c).cells = some r) :
    admitCopies d octets (c :: cs) s = admitCopies d octets cs (countDrop c.port r s) := by
  simp [admitCopies, h]

theorem admitCopies_of_admitted {d : Descriptor} {octets : List Byte} {c : CopyPlan} {cs : List CopyPlan} {s : State}
    (h : s.admission c.port d.tcls (copyOf d octets c).cells = none) :
    admitCopies d octets (c :: cs) s =
      (some c, (admitCopies d octets cs (enqueueCopy c.port d.tcls (copyOf d octets c) s)).2) := by
  simp [admitCopies, h]

/-- Settles O14, the tests by their order, the copies one by one. -/
theorem copiesAreAdmittedInOrder : Obligations.CopiesAreAdmittedInOrder := by
  unfold Obligations.CopiesAreAdmittedInOrder
  refine ⟨fun s p c n => ⟨fun h => ?_, fun h full => ?_, fun h room empty => ?_, fun h room => ?_⟩,
    fun d octets c cs s => ⟨fun r hr => ?_, fun ready room big => ?_⟩⟩
  · simp [State.admission, portReady_eq_false_iff.2 h]
  · simp [-Fin.getElem_fin, State.admission, portReady_iff.2 h, full]
  · simp [-Fin.getElem_fin, State.admission, portReady_iff.2 h, empty, Nat.not_lt.2 room]
  · exact admission_eq_none.2 ⟨portReady_iff.2 h, room⟩
  · exact admitCopies_of_refused hr
  · have admitted : s.admission c.port d.tcls (copyOf d octets c).cells = none :=
      admission_eq_none.2 ⟨portReady_iff.2 ready, room⟩
    exact ⟨_, enqueueCopy_enqueued (portReady_iff.2 ready) room.2 (.inl big), enqueueCopy_frame _ _ _ s,
      admitCopies_of_admitted admitted⟩

/-! ## The end of a transmission -/

/-- The end of a transmission at a port that sends the front copy `x` of class `c`. -/
theorem endTransmission_of_sending {p : Port} {s : State} {c : Cls} {x : Copy} {xs : List Copy}
    (hs : (s.buffer.ports[p]).sending = some c) (hx : ((s.buffer.ports[p]).classes[c]).copies = x :: xs) :
    endTransmission p s = startTransmission p (returnCells x (setQueues p (PortQueues.sent c x) s)) := by
  unfold endTransmission
  rw [hs]
  dsimp only
  rw [hx]

theorem endTransmission_of_silent {p : Port} {s : State} (hs : (s.buffer.ports[p]).sending = none) :
    endTransmission p s = s := by
  unfold endTransmission
  rw [hs]

theorem classes_sent (c : Cls) (x : Copy) (q : PortQueues) : (q.sent c x).classes[c] = (q.classes[c]).pop :=
  classes_setClass c _ q

theorem classes_sent_ne {c d : Cls} (h : d ≠ c) (x : Copy) (q : PortQueues) :
    (q.sent c x).classes[d] = q.classes[d] := classes_setClass_ne h _ q

theorem ClassQueue.pop_of_cons {q : ClassQueue} {x : Copy} {xs : List Copy} (h : q.copies = x :: xs) :
    q.pop = { copies := xs, occ := q.occ - x.cells, num := q.num - 1 } := by
  unfold ClassQueue.pop
  rw [h]

/-- What the end of a transmission of the front copy `x` of class `c` leaves, the copies `xs` behind it (R68, R69). -/
structure Transmitted (p : Port) (c : Cls) (x : Copy) (xs : List Copy) (s t : State) : Prop where
  free : t.buffer.free = s.buffer.free + x.cells
  taken : (t.buffer.ports[p]).classes[c] =
    { copies := xs, occ := ((s.buffer.ports[p]).classes[c]).occ - x.cells
      num := ((s.buffer.ports[p]).classes[c]).num - 1 }
  others : ∀ d : Cls, d ≠ c → (t.buffer.ports[p]).classes[d] = (s.buffer.ports[p]).classes[d]
  txCopies : (t.buffer.ports[p]).txCopies = (s.buffer.ports[p]).txCopies + 1
  txOctets : (t.buffer.ports[p]).txOctets = (s.buffer.ports[p]).txOctets + BitVec.ofNat 48 x.length
  next : s.takesFrames p → (t.buffer.ports[p]).sendsHighest
  none : ¬ s.takesFrames p → (t.buffer.ports[p]).sending = none
  only : OnlyQueues p s t
  tenants : mapWf s.buffer.tenantOcc = true →
    ∀ y : Tenant, t.tenantCells y = s.tenantCells y - if y = x.tenant then x.cells else 0

theorem endTransmission_transmitted {p : Port} {s : State} {c : Cls} {x : Copy} {xs : List Copy}
    (hs : (s.buffer.ports[p]).sending = some c) (hx : ((s.buffer.ports[p]).classes[c]).copies = x :: xs) :
    Transmitted p c x xs s (endTransmission p s) := by
  rw [endTransmission_of_sending hs hx]
  generalize hu : returnCells x (setQueues p (PortQueues.sent c x) s) = u
  have queue : u.buffer.ports[p] = (s.buffer.ports[p]).sent c x := hu ▸ queues_setQueues p _ s
  have ready : u.portReady p = s.portReady p := hu ▸ rfl
  have idle : (u.buffer.ports[p]).sending = .none := by rw [queue]; rfl
  obtain ⟨classes, copies, octets⟩ := startTransmission_same p u p
  rw [queue] at classes copies octets
  exact {
    free := (startTransmission_free p u).trans (hu ▸ rfl)
    taken := (classes c).trans ((classes_sent c x _).trans (ClassQueue.pop_of_cons hx))
    others := fun d hd => (classes d).trans (classes_sent_ne hd x _)
    txCopies := copies
    txOctets := octets
    next := fun h => startTransmission_sendsHighest (ready.trans (portReady_iff.2 h)) idle
    none := fun h => by
      rw [startTransmission_queues, if_neg fun k => h (portReady_iff.1 (ready ▸ k.1))]
      exact idle
    only := fun q hq => (startTransmission_queues_ne hq u).trans (hu ▸ queues_setQueues_ne hq _ s)
    tenants := fun wf y => by
      have occ : (startTransmission p u).tenantCells y = u.tenantCells y :=
        congrArg (fun m => mapGet 0 m y.toNat) (startTransmission_tenantOcc p u)
      rw [occ, ← hu]
      exact tenantCells_returnCells (s := setQueues p (PortQueues.sent c x) s) wf y }

/-- Settles O17. -/
theorem transmissionEndReturnsCells : Obligations.TransmissionEndReturnsCells := by
  unfold Obligations.TransmissionEndReturnsCells
  intro s p
  refine ⟨fun silent => ?_, fun c x xs hs hx wf => ?_⟩
  · exact (done_of _).trans (congrArg _ (endTransmission_of_silent silent))
  · have h := endTransmission_transmitted hs hx
    exact ⟨_, done_of _, endTransmission_frame p s, h.only, h.free, h.taken, h.others, h.txCopies, h.txOctets, h.next,
      h.none, h.tenants wf⟩

/-! ## Flushes -/

/-- What the return of some copies, one by one, leaves (R70). -/
theorem flushCopies_leave (p : Port) (xs : List Copy) (s : State) :
    let t := eachState (flushCopy p) xs s
    t.buffer.free = s.buffer.free + cellsOf xs ∧ t.buffer.ports = s.buffer.ports
      ∧ (mapWf s.buffer.tenantOcc = true → mapWf t.buffer.tenantOcc = true
          ∧ ∀ y : Tenant, t.tenantCells y = s.tenantCells y - tenantCellsOf y xs) := by
  induction xs generalizing s with
  | nil => exact ⟨rfl, rfl, fun wf => ⟨wf, fun _ => rfl⟩⟩
  | cons x xs ih =>
    obtain ⟨free, ports, tenants⟩ := ih (flushCopy p x s)
    refine ⟨?_, ports, fun wf => ?_⟩
    · refine free.trans ?_
      simp only [cellsOf, List.map_cons, List.sum_cons, ← Nat.add_assoc]
      rfl
    · obtain ⟨wf', cells⟩ := tenants (mapSet_wf wf _ _)
      refine ⟨wf', fun y => (cells y).trans ?_⟩
      have one : (flushCopy p x s).tenantCells y = s.tenantCells y - if y = x.tenant then x.cells else 0 :=
        tenantCells_returnCells wf y
      rw [one, Nat.sub_sub]
      congr 1
      unfold tenantCellsOf cellsOf
      by_cases e : x.tenant = y
      · simp [e]
      · simp [e, Ne.symm e]

theorem flushPort_flushed (p : Port) (s : State) : Flushed p s (flushPort p s) := by
  obtain ⟨free, ports, tenants⟩ := flushCopies_leave p (s.buffer.ports[p]).allCopies s
  have queue : (flushPort p s).buffer.ports[p] =
      { s.buffer.ports[p] with classes := Vector.replicate 4 {}, sending := none } := by
    refine (queues_setQueues p _ _).trans ?_
    rw [ports]
  refine ⟨free, fun c => ?_, ?_, ?_, ?_, fun q hq => ?_, fun wf => (tenants wf).2⟩
  · rw [queue]
    exact Vector.getElem_replicate c.isLt
  · rw [queue]
  · rw [queue]
  · rw [queue]
  · refine (queues_setQueues_ne hq _ _).trans ?_
    rw [ports]

end Sys2Proof.Machine
end

section
/-! R72, the conservation of cells (O58): each operation of the buffer manager changes one port, and most one class of it, so
that every sum over the copies changes by what that class gains or loses. -/

namespace Sys2Proof.Machine

/-! ## Sums over the copies -/

/-- A sum changes with one of its terms. -/
theorem sum_add_of_only {ι : Type} [Fintype ι] [DecidableEq ι] {f g : ι → Nat} {i : ι} (h : ∀ j, j ≠ i → g j = f j) :
    ∑ j, g j + f i = ∑ j, f j + g i := by
  have rest : ∑ j ∈ Finset.univ.erase i, g j = ∑ j ∈ Finset.univ.erase i, f j :=
    Finset.sum_congr rfl fun j hj => h j (Finset.ne_of_mem_erase hj)
  rw [← Finset.add_sum_erase _ g (Finset.mem_univ i), ← Finset.add_sum_erase _ f (Finset.mem_univ i), rest]
  omega

theorem cellsOf_append (l m : List Copy) : cellsOf (l ++ m) = cellsOf l + cellsOf m := by
  simp [cellsOf]

/-- The cells of the copies of a list that a test selects. -/
def cellsWhere (f : Copy → Bool) (l : List Copy) : Nat := cellsOf (l.filter f)

theorem cellsWhere_cons (f : Copy → Bool) (x : Copy) (l : List Copy) :
    cellsWhere f (x :: l) = (if f x = true then x.cells else 0) + cellsWhere f l := by
  by_cases h : f x = true <;> simp [cellsWhere, cellsOf, h]

theorem cellsWhere_append (f : Copy → Bool) (l m : List Copy) :
    cellsWhere f (l ++ m) = cellsWhere f l + cellsWhere f m := by
  simp [cellsWhere, cellsOf]

theorem cellsWhere_flatMap {α : Type} (f : Copy → Bool) (g : α → List Copy) (as : List α) :
    cellsWhere f (as.flatMap g) = (as.map fun a => cellsWhere f (g a)).sum := by
  induction as with
  | nil => rfl
  | cons a as ih => rw [List.flatMap_cons, cellsWhere_append, ih, List.map_cons, List.sum_cons]

theorem cellsWhere_true (l : List Copy) : cellsWhere (fun _ => true) l = cellsOf l := by
  simp [cellsWhere]

theorem PortQueues.cellsWhere_allCopies (f : Copy → Bool) (q : PortQueues) :
    cellsWhere f q.allCopies = ∑ c : Cls, cellsWhere f (q.classes[c]).copies := by
  rw [PortQueues.allCopies, cellsWhere_flatMap, Fin.sum_univ_four]
  simp [allCls, Nat.add_assoc]

theorem State.cellsWhere_allCopies (f : Copy → Bool) (s : State) :
    cellsWhere f s.allCopies = ∑ p : Port, cellsWhere f (s.buffer.ports[p]).allCopies := by
  rw [State.allCopies, cellsWhere_flatMap, Fin.sum_univ_def]
  rfl

/-- One port changes. -/
theorem cellsWhere_of_onlyQueues {p : Port} {s t : State} (h : OnlyQueues p s t) (f : Copy → Bool) :
    cellsWhere f t.allCopies + cellsWhere f (s.buffer.ports[p]).allCopies =
      cellsWhere f s.allCopies + cellsWhere f (t.buffer.ports[p]).allCopies := by
  rw [State.cellsWhere_allCopies, State.cellsWhere_allCopies]
  exact sum_add_of_only (f := fun q : Port => cellsWhere f (s.buffer.ports[q]).allCopies)
    (g := fun q : Port => cellsWhere f (t.buffer.ports[q]).allCopies) fun q hq => by
      have := h q hq
      simp only [Fin.getElem_fin] at this
      simp only [Fin.getElem_fin, this]

/-- One class of one port changes. -/
theorem cellsWhere_of_onlyClass {p : Port} {c : Cls} {s t : State} (h : OnlyQueues p s t)
    (k : ∀ d : Cls, d ≠ c → (t.buffer.ports[p]).classes[d] = (s.buffer.ports[p]).classes[d]) (f : Copy → Bool) :
    cellsWhere f t.allCopies + cellsWhere f ((s.buffer.ports[p]).classes[c]).copies =
      cellsWhere f s.allCopies + cellsWhere f ((t.buffer.ports[p]).classes[c]).copies := by
  have port := cellsWhere_of_onlyQueues h f
  have cls := sum_add_of_only (f := fun d : Cls => cellsWhere f ((s.buffer.ports[p]).classes[d]).copies)
    (g := fun d : Cls => cellsWhere f ((t.buffer.ports[p]).classes[d]).copies) (i := c) fun d hd => by
      have := k d hd
      simp only [Fin.getElem_fin] at this
      simp only [Fin.getElem_fin, this]
  rw [← PortQueues.cellsWhere_allCopies, ← PortQueues.cellsWhere_allCopies] at cls
  omega

/-! ## The law -/

/-- A queue's occupancy and number are those of its copies. -/
def ClassQueue.Counted (q : ClassQueue) : Prop := q.occ = cellsOf q.copies ∧ q.num = q.copies.length

theorem ClassQueue.Counted.push {q : ClassQueue} (h : q.Counted) (x : Copy) :
    ClassQueue.Counted { copies := q.copies ++ [x], occ := q.occ + x.cells, num := q.num + 1 } := by
  obtain ⟨occ, num⟩ := h
  refine ⟨?_, by simp [num]⟩
  rw [cellsOf_append, occ]
  rfl

theorem ClassQueue.Counted.pop {q : ClassQueue} (h : q.Counted) {x : Copy} {xs : List Copy} (e : q.copies = x :: xs) :
    ClassQueue.Counted { copies := xs, occ := q.occ - x.cells, num := q.num - 1 } := by
  obtain ⟨occ, num⟩ := h
  rw [e] at occ num
  refine ⟨?_, by simp [num]⟩
  simp only [occ, cellsOf, List.map_cons, List.sum_cons]
  omega

theorem cellLaw_iff {s : State} : s.cellLaw ↔
    (∀ (p : Port) (c : Cls), ((s.buffer.ports[p]).classes[c]).Counted)
      ∧ (∀ t : Tenant, s.tenantCells t = cellsWhere (fun x => x.tenant == t) s.allCopies)
      ∧ mapWf s.buffer.tenantOcc = true
      ∧ s.buffer.free + cellsWhere (fun _ => true) s.allCopies = Config.poolCells := by
  rw [cellsWhere_true]
  rfl

theorem cellLaw_of_buffer {s t : State} (h : t.buffer = s.buffer) (k : s.cellLaw) : t.cellLaw := by
  unfold State.cellLaw State.allCopies State.tenantCells
  rw [h]
  exact k

/-- The copies of one class are counted again after it has changed. -/
theorem counted_of_onlyClass {p : Port} {c : Cls} {s t : State} (h : OnlyQueues p s t)
    (k : ∀ d : Cls, d ≠ c → (t.buffer.ports[p]).classes[d] = (s.buffer.ports[p]).classes[d])
    (counted : ∀ (q : Port) (d : Cls), ((s.buffer.ports[q]).classes[d]).Counted)
    (new : ((t.buffer.ports[p]).classes[c]).Counted) (q : Port) (d : Cls) :
    ((t.buffer.ports[q]).classes[d]).Counted := by
  by_cases hq : q = p
  · subst hq
    by_cases hd : d = c
    · exact hd ▸ new
    · rw [k d hd]
      exact counted q d
  · have := counted q d
    rw [h q hq]
    exact this

theorem Enqueued.cellLaw {p : Port} {c : Cls} {x : Copy} {s t : State} (h : Enqueued p c x s t)
    (wf : mapWf t.buffer.tenantOcc = true) (law : s.cellLaw) : t.cellLaw := by
  obtain ⟨free, queue, others, -, -, -, -, only, tenants⟩ := h
  obtain ⟨counted, occ, -, pool⟩ := cellLaw_iff.1 law
  have gain (f : Copy → Bool) :
      cellsWhere f t.allCopies = cellsWhere f s.allCopies + if f x = true then x.cells else 0 := by
    have := cellsWhere_of_onlyClass only others f
    rw [queue, cellsWhere_append, cellsWhere_cons] at this
    have nil : cellsWhere f [] = 0 := rfl
    omega
  refine cellLaw_iff.2 ⟨counted_of_onlyClass only others counted ?_, fun y => ?_, wf, ?_⟩
  · rw [queue]
    exact (counted p c).push x
  · rw [tenants, occ, gain]
    simp only [beq_iff_eq, eq_comm (a := y)]
  · have := gain fun _ => true
    simp only [if_true] at this
    omega

theorem Transmitted.cellLaw {p : Port} {c : Cls} {x : Copy} {xs : List Copy} {s t : State}
    (h : Transmitted p c x xs s t) (front : ((s.buffer.ports[p]).classes[c]).copies = x :: xs)
    (wf : mapWf t.buffer.tenantOcc = true) (law : s.cellLaw) : t.cellLaw := by
  obtain ⟨counted, occ, wfs, pool⟩ := cellLaw_iff.1 law
  have loss (f : Copy → Bool) :
      cellsWhere f t.allCopies + (if f x = true then x.cells else 0) = cellsWhere f s.allCopies := by
    have := cellsWhere_of_onlyClass h.only h.others f
    rw [front, h.taken, cellsWhere_cons] at this
    simp only at this
    omega
  refine cellLaw_iff.2 ⟨counted_of_onlyClass h.only h.others counted ?_, fun y => ?_, wf, ?_⟩
  · rw [h.taken]
    exact (counted p c).pop front
  · have := loss fun z => z.tenant == y
    rw [h.tenants wfs, occ, ← this]
    simp only [beq_iff_eq, eq_comm (a := y)]
    omega
  · have := loss fun _ => true
    have free := h.free
    simp only [if_true] at this
    omega

theorem Flushed.cellLaw {p : Port} {s t : State} (h : Flushed p s t) (wf : mapWf t.buffer.tenantOcc = true)
    (law : s.cellLaw) : t.cellLaw := by
  obtain ⟨free, empty, -, -, -, only, tenants⟩ := h
  obtain ⟨counted, occ, wfs, pool⟩ := cellLaw_iff.1 law
  have none (f : Copy → Bool) : cellsWhere f (t.buffer.ports[p]).allCopies = 0 := by
    rw [PortQueues.cellsWhere_allCopies]
    exact Finset.sum_eq_zero fun c _ => by rw [empty c]; rfl
  have loss (f : Copy → Bool) :
      cellsWhere f t.allCopies + cellsWhere f (s.buffer.ports[p]).allCopies = cellsWhere f s.allCopies := by
    have := cellsWhere_of_onlyQueues only f
    rwa [none, Nat.add_zero] at this
  refine cellLaw_iff.2 ⟨fun q c => ?_, fun y => ?_, wf, ?_⟩
  · by_cases hq : q = p
    · subst hq
      rw [empty c]
      exact ⟨rfl, rfl⟩
    · have := counted q c
      rw [only q hq]
      exact this
  · have := loss fun z => z.tenant == y
    rw [tenants wfs, occ, ← this]
    exact Nat.add_sub_cancel _ _
  · have := loss fun _ => true
    rw [cellsWhere_true (s.buffer.ports[p]).allCopies] at this
    omega

/-- An empty buffer keeps the law. -/
theorem cellLaw_of_empty {s : State} (h : s.buffer = {}) : s.cellLaw := by
  have port (p : Port) : s.buffer.ports[p] = {} := by rw [h]; exact Vector.getElem_replicate p.isLt
  have cls (c : Cls) : (({} : PortQueues).classes[c]) = {} := Vector.getElem_replicate c.isLt
  have none (f : Copy → Bool) : cellsWhere f s.allCopies = 0 := by
    rw [State.cellsWhere_allCopies]
    exact Finset.sum_eq_zero fun p _ => by rw [port p]; rfl
  refine cellLaw_iff.2 ⟨fun p c => ?_, fun t => ?_, by rw [h]; rfl, by rw [none, h]; rfl⟩
  · rw [port p, cls c]
    exact ⟨rfl, rfl⟩
  · rw [none, State.tenantCells, h]
    rfl

/-! ## Every step -/

theorem enqueueCopy_tenantOcc_wf {p : Port} {c : Cls} {x : Copy} {s : State} (h : mapWf s.buffer.tenantOcc = true) :
    mapWf (enqueueCopy p c x s).buffer.tenantOcc = true := by
  rw [enqueueCopy, startTransmission_tenantOcc]
  exact mapSet_wf h _ _

theorem endTransmission_cellLaw (p : Port) {s : State} (law : s.cellLaw) : (endTransmission p s).cellLaw := by
  cases hs : (s.buffer.ports[p]).sending with
  | none => rwa [endTransmission_of_silent hs]
  | some c =>
    cases hx : ((s.buffer.ports[p]).classes[c]).copies with
    | nil =>
      have : endTransmission p s = s := by
        unfold endTransmission
        rw [hs]
        dsimp only
        rw [hx]
      rwa [this]
    | cons x xs =>
      refine (endTransmission_transmitted hs hx).cellLaw hx ?_ law
      rw [endTransmission_of_sending hs hx, startTransmission_tenantOcc]
      exact mapSet_wf law.2.2.1 _ _

theorem cellLaw_steps : Steps fun s t => s.cellLaw → t.cellLaw where
  trans h k := k ∘ h
  quiet q := cellLaw_of_buffer q.buffer
  enqueue p c x s ready free law :=
    (enqueueCopy_enqueued ready free (.inr law.2.2.1)).cellLaw (enqueueCopy_tenantOcc_wf law.2.2.1) law
  transmitted p s law := endTransmission_cellLaw p law
  flush p s law := (flushPort_flushed p s).cellLaw ((flushCopies_leave p _ s).2.2 law.2.2.1).1 law
  testSlot i s := cellLaw_of_buffer ((testSlot_frame i s).buffer (by decide))
  learn p t a s := cellLaw_of_buffer ((learnKey_frame p t a s).buffer (by decide))
  join x t a s _ := cellLaw_of_buffer ((joinKey_frame x t a s).buffer (by decide))
  leave st t a s := cellLaw_of_buffer ((leaveKey_frame st t a s).buffer (by decide))
  queueReach op t a s := cellLaw_of_buffer ((queueReach_frame op t a s).buffer (by decide))
  composeReach s := cellLaw_of_buffer ((composeReach_frame s).buffer (by decide))
  reinsert n f s := cellLaw_of_buffer ((reinsertFixed_frame n f s).buffer (by decide))
  age i s := cellLaw_of_buffer ((ageSlot_frame i s).buffer (by decide))
  fillFixed n e s := cellLaw_of_buffer ((fillFixed_frame n e s).buffer (by decide))
  testAcc k s := cellLaw_of_buffer ((testAcc_frame k s).buffer (by decide))
  countDrop t b s := cellLaw_of_buffer ((changeAcc_frame _ _ s).buffer (by decide))
  flag t b s := cellLaw_of_buffer ((changeAcc_frame _ _ s).buffer (by decide))
  meter d e g s := cellLaw_of_buffer ((meterFrame_frame d e g s).buffer (by decide))
  close s _ := cellLaw_of_buffer ((closeInterval_frame s).buffer (by decide))
  start c p i s _ := cellLaw_of_buffer ((setChan_frame c _ s).buffer (by decide))
  produce b c s := cellLaw_of_buffer ((produce_frame b c s).buffer (by decide))
  restart _ _ := cellLaw_of_empty rfl

/-- Settles O58: a discard of an interval leaves the buffer, and a full reset empties it. -/
theorem cellsAreConserved : Obligations.CellsAreConserved := by
  unfold Obligations.CellsAreConserved
  intro s t law e
  rcases cellLaw_steps.step e with ⟨v, -, rfl⟩ | k | ⟨n, s1, q, -, k⟩
  · exact cellLaw_of_empty rfl
  · exact k law
  · exact k (cellLaw_of_buffer (((removeInterval_frame n s1).buffer (by decide)).trans q.buffer) law)

end Sys2Proof.Machine
end

section
/-! R16, R17 and R24, the laws of the forwarding table and the reach queue (O55). The table's law is said of its map, place by
place, so that each write of an entry has one rule. -/

namespace Sys2Proof.Machine

/-! ## Sparse maps, read place by place -/

theorem mem_of_mapFind {α : Type} {m : List (Nat × α)} {i : Nat} {x : α} (h : mapFind m i = some x) : (i, x) ∈ m := by
  induction m with
  | nil => simp [mapFind] at h
  | cons y m ih =>
    simp only [mapFind] at h
    split at h
    · next e => cases h; subst e; exact List.mem_cons_self
    · exact List.mem_cons_of_mem _ (ih h)

theorem mapFind_of_mem {α : Type} {m : List (Nat × α)} (wf : mapWf m = true) {i : Nat} {x : α} (h : (i, x) ∈ m) :
    mapFind m i = some x := by
  induction m with
  | nil => simp at h
  | cons y m ih =>
    obtain ⟨k, v⟩ := y
    obtain ⟨above, wfm⟩ := mapWf_cons.1 wf
    rcases List.mem_cons.1 h with h | h
    · cases h; simp [mapFind]
    · have lt := above _ h
      simp only [mapFind]
      rw [if_neg (by simp only at lt; omega)]
      exact ih wfm h

theorem nodup_of_mapWf {α : Type} {m : List (Nat × α)} (wf : mapWf m = true) : m.Nodup := by
  induction m with
  | nil => exact List.nodup_nil
  | cons y m ih =>
    obtain ⟨k, v⟩ := y
    obtain ⟨above, wfm⟩ := mapWf_cons.1 wf
    exact List.nodup_cons.2 ⟨fun h => lt_irrefl _ (above _ h), ih wfm⟩

/-- What stands at a place after an insertion. -/
theorem mapFind_mapInsert_eq {α : Type} {m : List (Nat × α)} {i j : Nat} {x y : α}
    (h : mapFind (mapInsert m i x) j = some y) : (j = i ∧ y = x) ∨ (j ≠ i ∧ mapFind m j = some y) := by
  by_cases e : j = i
  · subst e
    rw [mapFind_mapInsert] at h
    exact .inl ⟨rfl, (Option.some.inj h).symm⟩
  · rw [mapFind_mapInsert_ne m e] at h
    exact .inr ⟨e, h⟩

theorem mapFind_mapErase_eq {α : Type} {m : List (Nat × α)} (wf : mapWf m = true) {i j : Nat} {y : α}
    (h : mapFind (mapErase m i) j = some y) : j ≠ i ∧ mapFind m j = some y := by
  by_cases e : j = i
  · subst e
    rw [mapFind_mapErase wf] at h
    cases h
  · rw [mapFind_mapErase_ne m e] at h
    exact ⟨e, h⟩

/-! ## Buckets -/

theorem mem_bucketSlots {b i : Nat} : i ∈ bucketSlots b ↔ i / 4 = b := by
  simp only [bucketSlots, List.mem_cons, List.not_mem_nil, or_false]
  omega

theorem FwdEntry.isFor_iff {e : FwdEntry} {t : Tenant} {a : Addr} : e.isFor t a = true ↔ e.tenant = t ∧ e.addr = a := by
  simp [FwdEntry.isFor]

/-- The index of a key is one of its bucket, with an entry of the key. -/
theorem entry_of_keyIndex {m : List (Nat × FwdEntry)} {t : Tenant} {a : Addr} {i : Nat} (h : keyIndex m t a = some i) :
    i / 4 = bucketOf t a ∧ ∃ e, mapFind m i = some e ∧ e.tenant = t ∧ e.addr = a := by
  have found := List.find?_some h
  refine ⟨mem_bucketSlots.1 (List.mem_of_find?_eq_some h), ?_⟩
  obtain ⟨e, he, key⟩ := (Option.any_eq_true _ _).1 found
  exact ⟨e, he, FwdEntry.isFor_iff.1 key⟩

theorem not_key_of_keyIndex {m : List (Nat × FwdEntry)} {t : Tenant} {a : Addr} (h : keyIndex m t a = none) {i : Nat}
    (hi : i / 4 = bucketOf t a) {e : FwdEntry} (he : mapFind m i = some e) : ¬ (e.tenant = t ∧ e.addr = a) := by
  have := List.find?_eq_none.1 h i (mem_bucketSlots.2 hi)
  rw [he] at this
  exact fun k => this (FwdEntry.isFor_iff.2 k)

theorem freeSlot_eq_some {m : List (Nat × FwdEntry)} {b i : Nat} (h : freeSlot m b = some i) :
    i / 4 = b ∧ mapFind m i = none :=
  ⟨mem_bucketSlots.1 (List.mem_of_find?_eq_some h), by simpa using List.find?_some h⟩

/-- The choice among candidates gives one of them. -/
theorem mem_of_foldl_olderOf {l : List (Nat × Nat)} {m : Option (Nat × Nat)} {x : Nat × Nat}
    (h : l.foldl olderOf m = some x) : x ∈ l ∨ m = some x := by
  induction l generalizing m with
  | nil => exact .inr h
  | cons c l ih =>
    rcases ih h with h | h
    · exact .inl (List.mem_cons_of_mem _ h)
    · cases m with
      | none => cases h; exact .inl List.mem_cons_self
      | some b =>
        simp only [olderOf] at h
        split at h
        · cases h; exact .inl List.mem_cons_self
        · exact .inr h

/-- A slot chosen among the candidates of a bucket is one of its slots, and taken. -/
theorem chosen_of_foldl_olderOf {b i : Nat} {s : State} {f : Nat → FwdEntry → Option (Nat × Nat)}
    (hf : ∀ j e x, f j e = some x → x.1 = j)
    (h : (((bucketSlots b).filterMap fun j => (mapFind s.fwd.table j).bind (f j)).foldl olderOf none).map Prod.fst = some i) :
    i / 4 = b ∧ ∃ e x, mapFind s.fwd.table i = some e ∧ f i e = some x := by
  obtain ⟨x, hx, rfl⟩ := Option.map_eq_some_iff.1 h
  rcases mem_of_foldl_olderOf hx with mem | k
  · obtain ⟨j, hj, found⟩ := List.mem_filterMap.1 mem
    obtain ⟨e, he, val⟩ := Option.bind_eq_some_iff.1 found
    have := hf j e x val
    subst this
    exact ⟨mem_bucketSlots.1 hj, e, x, he, val⟩
  · cases k

theorem victimSlot_eq_some {b i : Nat} {s : State} (h : victimSlot b s = some i) :
    i / 4 = b ∧ ∃ e, mapFind s.fwd.table i = some e ∧ e.holderOnly = true := by
  obtain ⟨hi, e, x, he, val⟩ := chosen_of_foldl_olderOf
    (f := fun j e => if e.holderOnly then some (j, newestAge s.fwd.period e.holders) else none)
    (fun j e x k => by split at k <;> cases k; rfl) h
  refine ⟨hi, e, he, ?_⟩
  by_contra k
  simp [k] at val

theorem oldestLocal_eq_some {b i : Nat} {s : State} (h : oldestLocal b s = some i) :
    i / 4 = b ∧ ∃ e, mapFind s.fwd.table i = some e ∧ e.origin = .learned := by
  obtain ⟨hi, e, x, he, val⟩ := chosen_of_foldl_olderOf
    (f := fun j e => if e.origin = .learned then some (j, e.age) else none)
    (fun j e x k => by split at k <;> cases k; rfl) h
  refine ⟨hi, e, he, ?_⟩
  by_contra k
  simp [k] at val

/-! ## The table's law, place by place -/

/-- The holders of an entry (section 2.1): at most 5, no station twice, never this one. -/
def HoldersOk (own : Station) (hs : List Holder) : Prop :=
  hs.length ≤ 5 ∧ (hs.map Holder.station).Nodup ∧ own ∉ hs.map Holder.station

/-- An entry has something to hold (R17). -/
def FwdEntry.Kept (e : FwdEntry) : Prop := e.localPort.isSome = true ∨ e.origin ≠ .learned ∨ e.holders ≠ []

/-- R16 and R17 of a table, but that an entry at a place of `bare` may hold nothing. -/
structure TableOk (own : Station) (bare : Nat → Prop) (m : List (Nat × FwdEntry)) : Prop where
  wf : mapWf m = true
  place : ∀ {i e}, mapFind m i = some e → i / 4 = bucketOf e.tenant e.addr
  holders : ∀ {i e}, mapFind m i = some e → HoldersOk own e.holders
  kept : ∀ {i e}, mapFind m i = some e → ¬ bare i → e.Kept
  once : ∀ {i j e f}, mapFind m i = some e → mapFind m j = some f → e.tenant = f.tenant → e.addr = f.addr → i = j

theorem tableLaw_iff {s : State} : s.tableLaw ↔ TableOk s.loader.station (fun _ => False) s.fwd.table := by
  constructor
  · rintro ⟨wf, keys, each⟩
    have entry {i e} (h : mapFind s.fwd.table i = some e) := each _ (mem_of_mapFind h)
    refine ⟨wf, fun h => (entry h).1, fun h => (entry h).2.2, fun h _ => (entry h).2.1, fun hi hj ht ha => ?_⟩
    have := (List.nodup_map_iff_inj_on (nodup_of_mapWf wf)).1 keys _ (mem_of_mapFind hi) _ (mem_of_mapFind hj)
      (Prod.ext ht ha)
    exact congrArg Prod.fst this
  · intro ok
    refine ⟨ok.wf, (List.nodup_map_iff_inj_on (nodup_of_mapWf ok.wf)).2 fun x hx y hy key => ?_, fun x hx => ?_⟩
    · obtain ⟨ht, ha⟩ := Prod.mk.inj key
      have fx := mapFind_of_mem ok.wf hx
      have fy := mapFind_of_mem ok.wf hy
      have same := ok.once fx fy ht ha
      rw [same, fy] at fx
      exact Prod.ext same (Option.some.inj fx).symm
    · have fx := mapFind_of_mem ok.wf hx
      exact ⟨ok.place fx, ok.kept fx not_false, ok.holders fx⟩

namespace TableOk

variable {own : Station} {bare : Nat → Prop} {m : List (Nat × FwdEntry)}

/-- An entry is written over one of its key. -/
theorem replace (ok : TableOk own bare m) {i : Nat} {e e' : FwdEntry} (he : mapFind m i = some e)
    (ht : e'.tenant = e.tenant) (ha : e'.addr = e.addr) (hh : HoldersOk own e'.holders)
    (hk : ¬ bare i → e'.Kept) : TableOk own bare (mapInsert m i e') where
  wf := mapInsert_wf ok.wf _ _
  place h := by
    rcases mapFind_mapInsert_eq h with ⟨rfl, rfl⟩ | ⟨-, h⟩
    · rw [ht, ha]; exact ok.place he
    · exact ok.place h
  holders h := by
    rcases mapFind_mapInsert_eq h with ⟨rfl, rfl⟩ | ⟨-, h⟩
    · exact hh
    · exact ok.holders h
  kept h := by
    rcases mapFind_mapInsert_eq h with ⟨rfl, rfl⟩ | ⟨-, h⟩
    · exact hk
    · exact ok.kept h
  once h k := by
    rcases mapFind_mapInsert_eq h with ⟨rfl, rfl⟩ | ⟨-, old⟩ <;>
      rcases mapFind_mapInsert_eq k with ⟨rfl, rfl⟩ | ⟨-, old'⟩
    · exact fun _ _ => rfl
    · rw [ht, ha]; exact ok.once he old'
    · rw [ht, ha]; exact ok.once old he
    · exact ok.once old old'

/-- An entry of a new key is written at a place of its bucket, whatever stood there. -/
theorem insert (ok : TableOk own bare m) {i : Nat} {e : FwdEntry} (new : keyIndex m e.tenant e.addr = none)
    (hi : i / 4 = bucketOf e.tenant e.addr) (hh : HoldersOk own e.holders) (hk : e.Kept) :
    TableOk own bare (mapInsert m i e) where
  wf := mapInsert_wf ok.wf _ _
  place h := by
    rcases mapFind_mapInsert_eq h with ⟨rfl, rfl⟩ | ⟨-, h⟩
    · exact hi
    · exact ok.place h
  holders h := by
    rcases mapFind_mapInsert_eq h with ⟨rfl, rfl⟩ | ⟨-, h⟩
    · exact hh
    · exact ok.holders h
  kept h := by
    rcases mapFind_mapInsert_eq h with ⟨rfl, rfl⟩ | ⟨-, h⟩
    · exact fun _ => hk
    · exact ok.kept h
  once h k := by
    have other {j : Nat} {f : FwdEntry} (hf : mapFind m j = some f) (ht : f.tenant = e.tenant) (ha : f.addr = e.addr) :
        False := not_key_of_keyIndex new (by rw [ok.place hf, ht, ha]) hf ⟨ht, ha⟩
    rcases mapFind_mapInsert_eq h with ⟨rfl, rfl⟩ | ⟨-, old⟩ <;>
      rcases mapFind_mapInsert_eq k with ⟨rfl, rfl⟩ | ⟨-, old'⟩
    · exact fun _ _ => rfl
    · exact fun ht ha => (other old' ht.symm ha.symm).elim
    · exact fun ht ha => (other old ht ha).elim
    · exact ok.once old old'

theorem erase (ok : TableOk own bare m) (i : Nat) : TableOk own bare (mapErase m i) where
  wf := mapErase_wf ok.wf i
  place h := ok.place (mapFind_mapErase_eq ok.wf h).2
  holders h := ok.holders (mapFind_mapErase_eq ok.wf h).2
  kept h := ok.kept (mapFind_mapErase_eq ok.wf h).2
  once h k := ok.once (mapFind_mapErase_eq ok.wf h).2 (mapFind_mapErase_eq ok.wf k).2

/-- The one place that may hold nothing is erased, or holds something after all. -/
theorem settle {i : Nat} (ok : TableOk own (· = i) m) (h : ∀ {e}, mapFind m i = some e → e.Kept) :
    TableOk own (fun _ => False) m where
  wf := ok.wf
  place := ok.place
  holders := ok.holders
  kept {j e} hj _ := by
    by_cases k : j = i
    · exact h (k ▸ hj)
    · exact ok.kept hj k
  once := ok.once

theorem weaken (ok : TableOk own (fun _ => False) m) : TableOk own bare m where
  wf := ok.wf
  place := ok.place
  holders := ok.holders
  kept h _ := ok.kept h not_false
  once := ok.once

/-- A change of one entry that leaves key, port and origin, and its holders in order. -/
theorem modify (ok : TableOk own bare m) (i : Nat) {g : FwdEntry → FwdEntry}
    (hg : ∀ {e}, mapFind m i = some e → (g e).tenant = e.tenant ∧ (g e).addr = e.addr ∧ HoldersOk own (g e).holders
      ∧ (¬ bare i → (g e).Kept)) : TableOk own bare (mapModify m i g) := by
  unfold mapModify
  split
  · next e he =>
    obtain ⟨ht, ha, hh, hk⟩ := hg he
    exact ok.replace he ht ha hh hk
  · exact ok

theorem announceItem (ok : TableOk own bare m) (it : ReachItem) : TableOk own bare (announceItem it m) := by
  unfold Machine.announceItem
  split
  · exact ok
  · refine ok.modify _ fun {e} he => ?_
    have same := ok.kept he
    have holders := ok.holders he
    cases it.op with
    | join =>
      dsimp only
      split <;> exact ⟨rfl, rfl, holders, same⟩
    | leave => exact ⟨rfl, rfl, holders, same⟩

theorem announceItems (ok : TableOk own bare m) (is : List ReachItem) : TableOk own bare (announceItems is m) := by
  induction is generalizing m with
  | nil => exact ok
  | cons i is ih => exact ih (ok.announceItem i)

end TableOk

theorem HoldersOk.nil (own : Station) : HoldersOk own [] := ⟨Nat.zero_le _, List.nodup_nil, List.not_mem_nil⟩

theorem HoldersOk.filter {own : Station} {hs : List Holder} (h : HoldersOk own hs) (f : Holder → Bool) :
    HoldersOk own (hs.filter f) := by
  obtain ⟨len, nodup, free⟩ := h
  have sub : ((hs.filter f).map Holder.station).Sublist (hs.map Holder.station) := List.filter_sublist.map _
  exact ⟨(List.length_filter_le f hs).trans len, nodup.sublist sub, fun k => free (sub.subset k)⟩

theorem insertHolder_perm (h : Holder) (hs : List Holder) : (insertHolder h hs).Perm (h :: hs) := by
  induction hs with
  | nil => exact .refl _
  | cons x xs ih =>
    unfold insertHolder
    split
    · exact .refl _
    · exact (ih.cons x).trans (.swap h x xs)

theorem HoldersOk.insert {own : Station} {h : Holder} {hs : List Holder} (ok : HoldersOk own hs) (room : hs.length < 5)
    (new : h.station ∉ hs.map Holder.station) (other : h.station ≠ own) : HoldersOk own (insertHolder h hs) := by
  obtain ⟨-, nodup, free⟩ := ok
  have perm := insertHolder_perm h hs
  have stations := perm.map Holder.station
  refine ⟨?_, ?_, ?_⟩
  · rw [perm.length_eq]
    exact room
  · exact stations.nodup_iff.2 (List.nodup_cons.2 ⟨new, nodup⟩)
  · rw [stations.mem_iff, List.map_cons, List.mem_cons]
    exact not_or.2 ⟨other.symm, free⟩

theorem mem_of_oldestDead {s : State} {hs : List Holder} {d : Holder} (h : oldestDead s hs = some d) : d ∈ hs := by
  have fold (l : List Holder) (m : Option Holder) (k : l.foldl (fun m h => match m with
      | none => some h
      | some x => if holderAge s.fwd.period x < holderAge s.fwd.period h then some h else some x) m = some d) :
      d ∈ l ∨ m = some d := by
    induction l generalizing m with
    | nil => exact .inr k
    | cons c l ih =>
      rcases ih _ k with k | k
      · exact .inl (List.mem_cons_of_mem _ k)
      · cases m with
        | none => cases k; exact .inl List.mem_cons_self
        | some b =>
          simp only at k
          split at k
          · cases k; exact .inl List.mem_cons_self
          · exact .inr k
  rcases fold _ _ h with k | k
  · exact (List.mem_filter.1 k).1
  · cases k

theorem joinHolders_ne_nil (s : State) (h : Holder) {hs : List Holder} (k : hs ≠ []) : joinHolders s h hs ≠ [] := by
  have inserted (l : List Holder) : insertHolder h l ≠ [] := fun e => by
    have := (insertHolder_perm h l).length_eq
    rw [e] at this
    cases this
  unfold joinHolders
  split
  · simpa using k
  · split
    · exact inserted _
    · split
      · exact inserted _
      · exact k

/-- The holders after a JOIN of another station (R28). -/
theorem HoldersOk.join {own : Station} {hs : List Holder} (ok : HoldersOk own hs) (s : State) {h : Holder}
    (other : h.station ≠ own) : HoldersOk own (joinHolders s h hs) := by
  unfold joinHolders
  split
  · have stations : (hs.map fun x => if x.station == h.station then h else x).map Holder.station =
        hs.map Holder.station := by
      rw [List.map_map]
      refine List.map_congr_left fun x _ => ?_
      by_cases e : x.station = h.station <;> simp [e]
    unfold HoldersOk
    rw [stations, List.length_map]
    exact ok
  · next absent =>
    have new : h.station ∉ hs.map Holder.station := fun k => by
      obtain ⟨x, hx, e⟩ := List.mem_map.1 k
      exact absent (List.any_eq_true.2 ⟨x, hx, by simp [e]⟩)
    split
    · next room => exact ok.insert room new other
    · split
      · next d hd =>
        have shorter : (hs.filter fun x => x != d).length < hs.length :=
          List.length_filter_lt_length_iff_exists.2 ⟨d, mem_of_oldestDead hd, by simp⟩
        exact (ok.filter _).insert (by have := ok.1; omega)
          (fun k => new ((List.filter_sublist.map Holder.station).subset k)) other
      · exact ok

/-! ## The operations on the table -/

section

variable {own : Station} {bare : Nat → Prop} {s : State}

theorem enqueueReach_table (op : ReachOp) (t : Tenant) (a : Addr) (s : State) :
    (enqueueReach op t a s).fwd.table = s.fwd.table := by
  unfold enqueueReach
  split
  · rfl
  · split
    · rfl
    · split <;> rfl

theorem TableOk.composeReach (ok : TableOk own bare s.fwd.table) : TableOk own bare (composeReach s).fwd.table := by
  unfold Machine.composeReach
  split
  · exact ok.announceItems _
  · exact ok

theorem TableOk.queueReach (ok : TableOk own bare s.fwd.table) (op : ReachOp) (t : Tenant) (a : Addr) :
    TableOk own bare (queueReach op t a s).fwd.table :=
  TableOk.composeReach (by rwa [enqueueReach_table])

theorem TableOk.withdrawKey (ok : TableOk own bare s.fwd.table) (t : Tenant) (a : Addr) (x : Bool) :
    TableOk own bare (withdrawKey t a x s).fwd.table := by
  unfold Machine.withdrawKey
  split
  · exact ok.queueReach _ _ _
  · exact ok

theorem TableOk.announceFixed (ok : TableOk own bare s.fwd.table) (f : FixedCfg) :
    TableOk own bare (announceFixed f s).fwd.table := by
  unfold Machine.announceFixed
  split
  · exact ok.queueReach _ _ _
  · exact ok

theorem TableOk.entryFault (ok : TableOk own bare s.fwd.table) (i : Nat) (e : FwdEntry) :
    TableOk own bare (entryFault i e s).st.fwd.table := by
  have dropped : TableOk own bare (dropEntry i s).fwd.table := ok.erase i
  have left : TableOk own bare
      (if e.localPort.isSome then Machine.queueReach .leave e.tenant e.addr (dropEntry i s) else dropEntry i s).fwd.table := by
    split
    · exact dropped.queueReach _ _ _
    · exact dropped
  unfold Machine.entryFault
  cases e.origin with
  | learned => exact left
  | fixed n => rwa [show (configFault ⟨.fixed, n⟩ _).st.fwd = _ from (configFault_frame _ _).fwd (by decide)]

theorem TableOk.testSlot (ok : TableOk own bare s.fwd.table) (i : Nat) : TableOk own bare (testSlot i s).st.fwd.table := by
  unfold Machine.testSlot
  split
  · split
    · exact ok
    · exact ok.entryFault i _
  · exact ok

theorem TableOk.removeEmpty {i : Nat} (ok : TableOk own (· = i) s.fwd.table) :
    TableOk own (fun _ => False) (removeEmpty i s).fwd.table := by
  unfold Machine.removeEmpty
  split
  · next e he =>
    split
    · exact (ok.erase i).settle fun h => absurd rfl (mapFind_mapErase_eq ok.wf h).1
    · next full =>
      refine ok.settle fun {f} hf => ?_
      cases he.symm.trans hf
      unfold FwdEntry.Kept
      by_contra k
      simp only [not_or, not_not, Bool.not_eq_true, Option.isSome_eq_false_iff, Option.isNone_iff_eq_none] at k
      exact full ⟨k.2.1, k.1, k.2.2⟩
  · next he => exact ok.settle fun hf => by cases he.symm.trans hf

variable (ok : TableOk own (fun _ => False) s.fwd.table)
include ok

theorem TableOk.learnKey (p : Fin 24) (t : Tenant) (a : Addr) :
    TableOk own (fun _ => False) (learnKey p t a s).fwd.table := by
  unfold Machine.learnKey
  split
  · next i hi =>
    split
    · exact ok
    · next e he =>
      split
      · have hs := ok.holders he
        have taught : TableOk own (fun _ => False) (putEntry i { e with localPort := some p, age := 0 } s).fwd.table :=
          ok.replace he rfl rfl hs fun _ => .inl rfl
        dsimp only
        split
        · exact taught
        · exact taught.queueReach _ _ _
      · exact ok
  · next absent =>
    split
    · next i hi =>
      have place : i / 4 = bucketOf t a := by
        rcases (Option.orElse_eq_some _ _ _).1 hi with hi | ⟨-, hi⟩
        · exact (freeSlot_eq_some hi).1
        · exact (victimSlot_eq_some hi).1
      have inserted : TableOk own (fun _ => False) (putEntry i (freshEntry t a (some p) []) s).fwd.table :=
        ok.insert absent place (.nil own) (.inl rfl)
      exact inserted.queueReach _ _ _
    · exact ok

theorem TableOk.joinKey {h : Holder} (other : h.station ≠ own) (t : Tenant) (a : Addr) :
    TableOk own (fun _ => False) (joinKey h t a s).fwd.table := by
  unfold Machine.joinKey
  split
  · refine ok.modify _ fun {e} he => ⟨rfl, rfl, (ok.holders he).join s other, fun _ => ?_⟩
    rcases ok.kept he not_false with k | k | k
    · exact .inl k
    · exact .inr (.inl k)
    · exact .inr (.inr (joinHolders_ne_nil s h k))
  · next absent =>
    split
    · next i hi =>
      exact ok.insert absent (freeSlot_eq_some hi).1
        ⟨by simp [freshEntry], by simp [freshEntry], by simpa [freshEntry] using other.symm⟩ (.inr (.inr (by simp [freshEntry])))
    · exact ok

theorem TableOk.leaveKey (st : Station) (t : Tenant) (a : Addr) :
    TableOk own (fun _ => False) (leaveKey st t a s).fwd.table := by
  unfold Machine.leaveKey
  split
  · next i hi =>
    split
    · next e he =>
      split
      · refine TableOk.removeEmpty (TableOk.replace ok.weaken he rfl rfl ((ok.holders he).filter _) fun k => absurd rfl k)
      · exact ok
    · exact ok
  · exact ok

theorem TableOk.displaceFixed (n : Nat) {f : FixedCfg} {i : Nat} (absent : keyIndex s.fwd.table f.tenant f.addr = none)
    (hi : i / 4 = bucketOf f.tenant f.addr) : TableOk own (fun _ => False) (displaceFixed n f i s).fwd.table := by
  unfold Machine.displaceFixed
  split
  · next e _ =>
    have put : TableOk own (fun _ => False) (putEntry i (fixedEntry n f) s).fwd.table :=
      ok.insert absent hi (.nil own) (.inr (.inl (by simp [fixedEntry])))
    refine TableOk.announceFixed ?_ f
    split
    · exact put.withdrawKey _ _ _
    · exact put
  · exact ok

theorem TableOk.reinsertFixed (n : Nat) (f : FixedCfg) :
    TableOk own (fun _ => False) (reinsertFixed n f s).fwd.table := by
  unfold Machine.reinsertFixed
  dsimp only
  split
  · next i hi =>
    split
    · next e he =>
      have hs := ok.holders he
      have put : TableOk own (fun _ => False)
          (putEntry i { e with origin := .fixed n, localPort := f.localPort, age := 0, entry := f.entry } s).fwd.table :=
        ok.replace he rfl rfl hs fun _ => .inr (.inl (by simp))
      split
      · exact put.announceFixed f
      · split
        · exact put.withdrawKey _ _ _
        · exact put
    · exact ok
  · next absent =>
    split
    · next i hi =>
      have put : TableOk own (fun _ => False) (putEntry i (fixedEntry n f) s).fwd.table :=
        ok.insert absent (freeSlot_eq_some hi).1 (.nil own) (.inr (.inl (by simp [fixedEntry])))
      exact put.announceFixed f
    · split
      · next i hi =>
        refine TableOk.displaceFixed ok n absent ?_
        rcases (Option.orElse_eq_some _ _ _).1 hi with hi | ⟨-, hi⟩
        · exact (victimSlot_eq_some hi).1
        · exact (oldestLocal_eq_some hi).1
      · exact ok

/-- Local aging may leave its place with nothing to hold; the walk settles it after the holders' expiry (R34, R35). -/
theorem TableOk.ageLocal (i : Nat) : TableOk own (· = i) (ageLocal i s).fwd.table := by
  unfold Machine.ageLocal
  split
  · next e he =>
    split
    · have hs := ok.holders he
      have lost (x : Option (Fin 24)) (n : Nat) :
          TableOk own (· = i) (putEntry i { e with localPort := x, age := n } s).fwd.table :=
        TableOk.replace ok.weaken he rfl rfl hs fun k => absurd rfl k
      dsimp only
      split
      · exact (lost _ _).withdrawKey _ _ _
      · exact lost _ _
    · exact ok.weaken
  · exact ok.weaken

theorem TableOk.ageSlot (i : Nat) : TableOk own (fun _ => False) (ageSlot i s).st.fwd.table := by
  unfold Machine.ageSlot
  split
  · split
    · have aged := TableOk.ageLocal ok i
      exact TableOk.removeEmpty (aged.modify i fun he => ⟨rfl, rfl, (aged.holders he).filter _, fun k => absurd rfl k⟩)
    · exact ok.entryFault i _
  · exact ok

theorem TableOk.fillFixed (n : Nat) (e : List Byte) :
    TableOk own (fun _ => False) (fillFixed n e s).fwd.table := by
  unfold Machine.fillFixed
  dsimp only
  split
  · exact ok
  · next absent =>
    split
    · exact ok
    · next i hi =>
      have new : keyIndex s.fwd.table (readFixedEntry e).1.tenant (readFixedEntry e).1.addr = none := by simpa using absent
      exact ok.insert new (freeSlot_eq_some hi).1 (.nil own) (.inr (.inl (by simp [fixedEntry])))

end

/-! ## Every step keeps the table's law -/

theorem tableLaw_of {s t : State} (hs : t.loader.station = s.loader.station)
    (ht : TableOk s.loader.station (fun _ => False) s.fwd.table → TableOk s.loader.station (fun _ => False) t.fwd.table) :
    s.tableLaw → t.tableLaw := fun law => by
  rw [tableLaw_iff, hs]
  exact ht (tableLaw_iff.1 law)

theorem tableLaw_of_fwd {s t : State} (hs : t.loader.station = s.loader.station) (ht : t.fwd.table = s.fwd.table) :
    s.tableLaw → t.tableLaw := tableLaw_of hs fun ok => by rwa [ht]

theorem tableLaw_of_empty {s : State} (h : s.fwd.table = []) : s.tableLaw := by
  unfold State.tableLaw
  rw [h]
  exact ⟨rfl, List.nodup_nil, fun _ k => by cases k⟩

theorem fillFixed_station (n : Nat) (e : List Byte) (s : State) :
    (fillFixed n e s).loader.station = s.loader.station := by
  unfold fillFixed
  dsimp only
  split
  · rfl
  · split <;> rfl

theorem Frame.station {l : List Block} {s t : State} (h : Frame l s t) (k : Block.loader ∉ l) :
    t.loader.station = s.loader.station := by rw [h.loader k]

theorem tableLaw_steps : Steps fun s t => s.tableLaw → t.tableLaw where
  trans h k := k ∘ h
  quiet q := tableLaw_of_fwd q.station q.table
  enqueue p c x s _ _ := tableLaw_of_fwd ((enqueueCopy_frame p c x s).station (by decide))
    (by rw [(enqueueCopy_frame p c x s).fwd (by decide)])
  transmitted p s := tableLaw_of_fwd ((endTransmission_frame p s).station (by decide))
    (by rw [(endTransmission_frame p s).fwd (by decide)])
  flush p s := tableLaw_of_fwd ((flushPort_frame p s).station (by decide))
    (by rw [(flushPort_frame p s).fwd (by decide)])
  testSlot i s := tableLaw_of (testSlot_refetchOnly i s).station fun ok => ok.testSlot i
  learn p t a s := tableLaw_of ((learnKey_frame p t a s).station (by decide)) fun ok => ok.learnKey p t a
  join x t a s hx := tableLaw_of ((joinKey_frame x t a s).station (by decide)) fun ok => ok.joinKey hx t a
  leave st t a s := tableLaw_of ((leaveKey_frame st t a s).station (by decide)) fun ok => ok.leaveKey st t a
  queueReach op t a s := tableLaw_of ((queueReach_frame op t a s).station (by decide)) fun ok => ok.queueReach op t a
  composeReach s := tableLaw_of ((composeReach_frame s).station (by decide)) fun ok => ok.composeReach
  reinsert n f s := tableLaw_of ((reinsertFixed_frame n f s).station (by decide)) fun ok => ok.reinsertFixed n f
  age i s := tableLaw_of (ageSlot_refetchOnly i s).station fun ok => ok.ageSlot i
  fillFixed n e s := tableLaw_of (fillFixed_station n e s) fun ok => ok.fillFixed n e
  testAcc k s := tableLaw_of_fwd (testAcc_refetchOnly k s).station (by rw [(testAcc_frame k s).fwd (by decide)])
  countDrop t b s := tableLaw_of_fwd (changeAcc_refetchOnly _ _ s).station (by rw [(changeAcc_frame _ _ s).fwd (by decide)])
  flag t b s := tableLaw_of_fwd (changeAcc_refetchOnly _ _ s).station (by rw [(changeAcc_frame _ _ s).fwd (by decide)])
  meter d e g s := tableLaw_of_fwd (meterFrame_refetchOnly d e g s).station
    (by rw [(meterFrame_frame d e g s).fwd (by decide)])
  close s _ := tableLaw_of_fwd (closeInterval_refetchOnly s).station (by rw [(closeInterval_frame s).fwd (by decide)])
  start c p i s _ := tableLaw_of_fwd ((setChan_frame c _ s).station (by decide))
    (by rw [(setChan_frame c _ s).fwd (by decide)])
  produce b c s := tableLaw_of_fwd (produce_refetchOnly b c s).station (by rw [(produce_frame b c s).fwd (by decide)])
  restart _ _ := tableLaw_of_empty rfl

/-! ## The reach queue -/

theorem ReachItem.isFor_iff {i : ReachItem} {t : Tenant} {a : Addr} : i.isFor t a = true ↔ (i.tenant, i.addr) = (t, a) := by
  simp [ReachItem.isFor]

/-- R24 of a queue. -/
def ReachOk (q : List ReachItem) : Prop := q.length ≤ 512 ∧ (q.map fun i => (i.tenant, i.addr)).Nodup

theorem enqueueReach_ok {op : ReachOp} {t : Tenant} {a : Addr} {s : State} (ok : ReachOk s.fwd.queue) :
    ReachOk (enqueueReach op t a s).fwd.queue := by
  obtain ⟨len, nodup⟩ := ok
  unfold enqueueReach
  split
  · have keys : (s.fwd.queue.map fun i => if i.isFor t a then { i with op := op } else i).map (fun i => (i.tenant, i.addr)) =
        s.fwd.queue.map fun i => (i.tenant, i.addr) := by
      rw [List.map_map]
      refine List.map_congr_left fun i _ => ?_
      simp only [Function.comp_apply]
      split <;> rfl
    unfold ReachOk
    dsimp only
    rw [keys, List.length_map]
    exact ⟨len, nodup⟩
  · next absent =>
    split
    · next room =>
      have new : (t, a) ∉ s.fwd.queue.map fun i => (i.tenant, i.addr) := fun k => by
        obtain ⟨i, hi, key⟩ := List.mem_map.1 k
        exact absent (List.any_eq_true.2 ⟨i, hi, ReachItem.isFor_iff.2 key⟩)
      unfold ReachOk
      dsimp only
      rw [List.map_append, List.length_append]
      refine ⟨?_, List.nodup_append.2 ⟨nodup, List.nodup_singleton _, fun x hx y hy e => ?_⟩⟩
      · have : s.fwd.queue.length < 512 := room
        simp only [List.length_singleton]
        omega
      · cases List.mem_singleton.1 hy
        subst e
        exact new hx
    · split <;> exact ⟨len, nodup⟩

theorem composeReach_ok {s : State} (ok : ReachOk s.fwd.queue) : ReachOk (composeReach s).fwd.queue := by
  unfold composeReach
  split
  · refine ⟨?_, ok.2.sublist ((List.drop_sublist _ _).map _)⟩
    have := ok.1
    simp only [List.length_drop]
    omega
  · exact ok

theorem queueReach_ok {op : ReachOp} {t : Tenant} {a : Addr} {s : State} (ok : ReachOk s.fwd.queue) :
    ReachOk (queueReach op t a s).fwd.queue := composeReach_ok (enqueueReach_ok ok)

theorem withdrawKey_ok {t : Tenant} {a : Addr} {x : Bool} {s : State} (ok : ReachOk s.fwd.queue) :
    ReachOk (withdrawKey t a x s).fwd.queue := by
  unfold withdrawKey
  split
  · exact queueReach_ok ok
  · exact ok

theorem announceFixed_ok {f : FixedCfg} {s : State} (ok : ReachOk s.fwd.queue) :
    ReachOk (announceFixed f s).fwd.queue := by
  unfold announceFixed
  split
  · exact queueReach_ok ok
  · exact ok

theorem entryFault_ok {i : Nat} {e : FwdEntry} {s : State} (ok : ReachOk s.fwd.queue) :
    ReachOk (entryFault i e s).st.fwd.queue := by
  have left : ReachOk
      (if e.localPort.isSome then queueReach .leave e.tenant e.addr (dropEntry i s) else dropEntry i s).fwd.queue := by
    split
    · exact queueReach_ok (s := dropEntry i s) ok
    · exact ok
  unfold entryFault
  cases e.origin with
  | learned => exact left
  | fixed n => rwa [show (configFault ⟨.fixed, n⟩ _).st.fwd = _ from (configFault_frame _ _).fwd (by decide)]

theorem testSlot_ok {i : Nat} {s : State} (ok : ReachOk s.fwd.queue) : ReachOk (testSlot i s).st.fwd.queue := by
  unfold testSlot
  split
  · split
    · exact ok
    · exact entryFault_ok ok
  · exact ok

theorem learnKey_ok {p : Fin 24} {t : Tenant} {a : Addr} {s : State} (ok : ReachOk s.fwd.queue) :
    ReachOk (learnKey p t a s).fwd.queue := by
  have put (i : Nat) (e : FwdEntry) : ReachOk (queueReach .join t a (putEntry i e s)).fwd.queue :=
    queueReach_ok (s := putEntry i e s) ok
  unfold learnKey
  split
  · split
    · exact ok
    · split
      · dsimp only
        split
        · exact ok
        · exact put _ _
      · exact ok
  · split
    · exact put _ _
    · exact ok

theorem joinKey_queue (h : Holder) (t : Tenant) (a : Addr) (s : State) : (joinKey h t a s).fwd.queue = s.fwd.queue := by
  unfold joinKey
  split
  · rfl
  · split <;> rfl

theorem removeEmpty_queue (i : Nat) (s : State) : (removeEmpty i s).fwd.queue = s.fwd.queue := by
  unfold removeEmpty
  split
  · split <;> rfl
  · rfl

theorem leaveKey_queue (st : Station) (t : Tenant) (a : Addr) (s : State) :
    (leaveKey st t a s).fwd.queue = s.fwd.queue := by
  unfold leaveKey
  split
  · split
    · split
      · exact removeEmpty_queue _ _
      · rfl
    · rfl
  · rfl

theorem reinsertFixed_ok {n : Nat} {f : FixedCfg} {s : State} (ok : ReachOk s.fwd.queue) :
    ReachOk (reinsertFixed n f s).fwd.queue := by
  unfold reinsertFixed
  dsimp only
  split
  · split
    · split
      · exact announceFixed_ok ok
      · split
        · exact withdrawKey_ok ok
        · exact ok
    · exact ok
  · split
    · exact announceFixed_ok ok
    · split
      · unfold displaceFixed
        split
        · refine announceFixed_ok ?_
          split
          · exact withdrawKey_ok ok
          · exact ok
        · exact ok
      · exact ok

theorem ageLocal_ok {i : Nat} {s : State} (ok : ReachOk s.fwd.queue) : ReachOk (ageLocal i s).fwd.queue := by
  unfold ageLocal
  split
  · split
    · dsimp only
      split
      · exact withdrawKey_ok ok
      · exact ok
    · exact ok
  · exact ok

theorem ageSlot_ok {i : Nat} {s : State} (ok : ReachOk s.fwd.queue) : ReachOk (ageSlot i s).st.fwd.queue := by
  unfold ageSlot
  split
  · split
    · rw [Out.of_st, removeEmpty_queue]
      exact ageLocal_ok ok
    · exact entryFault_ok ok
  · exact ok

theorem fillFixed_queue (n : Nat) (e : List Byte) (s : State) : (fillFixed n e s).fwd.queue = s.fwd.queue := by
  unfold fillFixed
  dsimp only
  split
  · rfl
  · split <;> rfl

theorem reachLaw_of_queue {s t : State} (h : t.fwd.queue = s.fwd.queue) : s.reachLaw → t.reachLaw := by
  unfold State.reachLaw
  rw [h]
  exact id

theorem reachLaw_steps : Steps fun s t => s.reachLaw → t.reachLaw where
  trans h k := k ∘ h
  quiet q := reachLaw_of_queue q.reach
  enqueue p c x s _ _ := reachLaw_of_queue (by rw [(enqueueCopy_frame p c x s).fwd (by decide)])
  transmitted p s := reachLaw_of_queue (by rw [(endTransmission_frame p s).fwd (by decide)])
  flush p s := reachLaw_of_queue (by rw [(flushPort_frame p s).fwd (by decide)])
  testSlot _ _ := testSlot_ok
  learn _ _ _ _ := learnKey_ok
  join x t a s _ := reachLaw_of_queue (joinKey_queue x t a s)
  leave st t a s := reachLaw_of_queue (leaveKey_queue st t a s)
  queueReach _ _ _ _ := queueReach_ok
  composeReach _ := composeReach_ok
  reinsert _ _ _ := reinsertFixed_ok
  age _ _ := ageSlot_ok
  fillFixed n e s := reachLaw_of_queue (fillFixed_queue n e s)
  testAcc k s := reachLaw_of_queue (by rw [(testAcc_frame k s).fwd (by decide)])
  countDrop t b s := reachLaw_of_queue (by rw [(changeAcc_frame _ _ s).fwd (by decide)])
  flag t b s := reachLaw_of_queue (by rw [(changeAcc_frame _ _ s).fwd (by decide)])
  meter d e g s := reachLaw_of_queue (by rw [(meterFrame_frame d e g s).fwd (by decide)])
  close s _ := reachLaw_of_queue (by rw [(closeInterval_frame s).fwd (by decide)])
  start c p i s _ := reachLaw_of_queue (by rw [(setChan_frame c _ s).fwd (by decide)])
  produce b c s := reachLaw_of_queue (by rw [(produce_frame b c s).fwd (by decide)])
  restart _ _ := ⟨Nat.zero_le _, List.nodup_nil⟩

/-- Settles O55: a discard of an interval leaves the table and the reach queue, and a full reset empties them. -/
theorem forwardingLawsAreKept : Obligations.ForwardingLawsAreKept := by
  unfold Obligations.ForwardingLawsAreKept
  intro s t e
  constructor
  · intro law
    rcases tableLaw_steps.step e with ⟨v, -, rfl⟩ | k | ⟨n, s1, q, -, k⟩
    · exact tableLaw_of_empty rfl
    · exact k law
    · exact k (tableLaw_of_fwd (removeInterval_refetchOnly n s1).station
        (by rw [(removeInterval_frame n s1).fwd (by decide)]) (tableLaw_of_fwd q.station q.table law))
  · intro law
    rcases reachLaw_steps.step e with ⟨v, -, rfl⟩ | k | ⟨n, s1, q, -, k⟩
    · exact ⟨Nat.zero_le _, List.nodup_nil⟩
    · exact k law
    · exact k (reachLaw_of_queue (by rw [(removeInterval_frame n s1).fwd (by decide)]) (reachLaw_of_queue q.reach law))

end Sys2Proof.Machine
end

section
/-! R163 and R180: the pending intervals, the sources of the channels and their cursors (O56). First what the closing of the live
interval and the production of records do to the blocks these laws read. -/

namespace Sys2Proof.Machine

/-! ## Reads of accumulators -/

/-- Accumulators were read: those that passed their check stand as they stood, and the intervals too. -/
structure Tested (s t : State) : Prop where
  number : t.meter.number = s.meter.number
  intervals : t.meter.queue = s.meter.queue
  chans : t.chans = s.chans
  law : s.accLaw → t.accLaw
  kept : s.accLaw → ∀ k, (s.acc k).checkGood = true → t.acc k = s.acc k

theorem Tested.refl (s : State) : Tested s s := ⟨rfl, rfl, rfl, id, fun _ _ _ => rfl⟩

theorem Tested.trans {s t u : State} (h : Tested s t) (k : Tested t u) : Tested s u where
  number := k.number.trans h.number
  intervals := k.intervals.trans h.intervals
  chans := k.chans.trans h.chans
  law := k.law ∘ h.law
  kept law n good := by
    have same := h.kept law n good
    rw [k.kept (h.law law) n (same ▸ good), same]

theorem acc_putAcc {s : State} (law : s.accLaw) (k : Nat) (a : Accumulator) : (putAcc k a s).acc k = a :=
  mapGet_mapSet law.1 k a

theorem acc_putAcc_ne {s : State} {k n : Nat} (h : n ≠ k) (a : Accumulator) : (putAcc k a s).acc n = s.acc n :=
  mapGet_mapSet_ne _ h a

theorem mem_mapSet {α : Type} [DecidableEq α] {d : α} {m : List (Nat × α)} {n : Nat} {x : α} {y : Nat × α}
    (h : y ∈ mapSet d m n x) : y = (n, x) ∨ y ∈ m := by
  unfold mapSet at h
  split at h
  · exact .inr (mem_mapErase h)
  · exact mem_mapInsert h

theorem putAcc_accLaw {s : State} (law : s.accLaw) {k : Nat} (hk : k < 1024) (a : Accumulator) : (putAcc k a s).accLaw := by
  refine ⟨mapSet_wf law.1 _ _, fun x hx => ?_⟩
  rcases mem_mapSet hx with rfl | hx
  · exact hk
  · exact law.2 x hx

/-- An accumulator that fails its check is listed. -/
theorem key_lt_of_faulty {s : State} (law : s.accLaw) {k : Nat} (bad : ¬ (s.acc k).checkGood = true) : k < 1024 := by
  cases h : mapFind s.meter.accs k with
  | none => exact absurd (by simp [State.acc, mapGet, h]) bad
  | some a => exact law.2 _ (mem_of_mapFind h)

theorem accLaw_of_accs {s t : State} (h : t.meter.accs = s.meter.accs) (law : s.accLaw) : t.accLaw := by
  unfold State.accLaw
  rwa [h]

theorem acc_of_accs {s t : State} (h : t.meter.accs = s.meter.accs) (k : Nat) : t.acc k = s.acc k := by
  unfold State.acc
  rw [h]

theorem testAcc_tested (k : Nat) (s : State) : Tested s (testAcc k s).st := by
  by_cases good : (s.acc k).checkGood = true
  · rw [testAcc_good good]
    exact .refl s
  · have e : (testAcc k s).st = (integrityFault (putAcc k { suspect := true } s)).st := by
      unfold testAcc
      rw [if_neg good]
    have same : (testAcc k s).st.meter = (putAcc k { suspect := true } s).meter := by
      rw [e, (integrityFault_frame _).meter (by decide)]
    refine ⟨by rw [same]; rfl, by rw [same]; rfl, (testAcc_frame k s).chans (by decide), fun law => ?_, fun _ n hn => ?_⟩
    · exact accLaw_of_accs (congrArg Meter.accs same) (putAcc_accLaw law (key_lt_of_faulty law good) _)
    · have ne : n ≠ k := fun e => good (e ▸ hn)
      rw [acc_of_accs (congrArg Meter.accs same), acc_putAcc_ne ne]

theorem testAccs_tested (ks : List Nat) (s : State) : Tested s (eachOut testAcc ks s).st := by
  induction ks generalizing s with
  | nil => exact .refl s
  | cons k ks ih => exact (testAcc_tested k s).trans (ih _)

/-! ## Metering (R151 to R155) -/

/-- Metering leaves the live number, the pending intervals and the channels. -/
structure PendingsKept (s t : State) : Prop where
  number : t.meter.number = s.meter.number
  intervals : t.meter.queue = s.meter.queue
  chans : t.chans = s.chans

theorem Tested.pendings {s t : State} (h : Tested s t) : PendingsKept s t := ⟨h.number, h.intervals, h.chans⟩

theorem changeAcc_pendings (k : Nat) (f : Accumulator → Accumulator) (s : State) : PendingsKept s (changeAcc k f s).st :=
  ⟨(testAcc_tested k s).number, (testAcc_tested k s).intervals, (testAcc_tested k s).chans⟩

/-- A metered frame writes its accumulator once, after the read of accumulator and tariff. -/
theorem meterFrame_cases (d : Descriptor) (e : Port) (g : Option GroupTag) (s : State) :
    let s1 := (readTariff d.tariffs[d.bcls.val] (testAcc (accKey d.tenant d.bcls) s).st).2.st
    let a := (s1.acc (accKey d.tenant d.bcls)).count d
    (∃ fee rate, (meterFrame d e g s).st = putAcc (accKey d.tenant d.bcls) (a.rate fee rate d.length) s1)
      ∨ (meterFrame d e g s).st = putAcc (accKey d.tenant d.bcls) { a with tariffFault := true } s1 := by
  unfold meterFrame
  simp only [Out.andThen_st, Out.also_st]
  split
  · exact .inl ⟨_, _, rfl⟩
  · exact .inr rfl

theorem readTariff_meter (n : Nat) (s : State) : (readTariff n s).2.st.meter = s.meter :=
  (readTariff_frame n s).meter (by decide)

theorem meterFrame_pendings (d : Descriptor) (e : Port) (g : Option GroupTag) (s : State) :
    PendingsKept s (meterFrame d e g s).st := by
  have tested := testAcc_tested (accKey d.tenant d.bcls) s
  have tariff := readTariff_meter d.tariffs[d.bcls.val] (testAcc (accKey d.tenant d.bcls) s).st
  have number := (congrArg Meter.number tariff).trans tested.number
  have intervals := (congrArg Meter.queue tariff).trans tested.intervals
  have chans := (meterFrame_frame d e g s).chans (by decide)
  rcases meterFrame_cases d e g s with ⟨_, _, h⟩ | h
  · exact ⟨by rw [h]; exact number, by rw [h]; exact intervals, chans⟩
  · exact ⟨by rw [h]; exact number, by rw [h]; exact intervals, chans⟩

/-! ## The close (R161) -/

/-- The live interval was closed. -/
structure Closed (s t : State) : Prop where
  number : t.meter.number = s.meter.number + 1
  intervals : ∃ i, i.number = s.meter.number ∧ t.meter.queue = s.meter.queue ++ [i]
  chans : t.chans = s.chans

theorem closeInterval_closed (s : State) : Closed s (closeInterval s).st := by
  have tested := testAccs_tested (s.meter.accs.map Prod.fst) s
  refine ⟨?_, ?_, (closeInterval_frame s).chans (by decide)⟩
  · rw [← tested.number]
    rfl
  · rw [← tested.intervals, ← tested.number]
    exact ⟨_, rfl, rfl⟩

theorem State.closes_iff {s : State} :
    s.closes = true ↔ s.meter.queue.length < 2 ∧ s.meter.number ≠ BitVec.allOnes 32 := by
  simp [State.closes]

theorem toNat_succ_of_ne_allOnes {n : Count} (h : n ≠ BitVec.allOnes 32) : (n + 1).toNat = n.toNat + 1 := by
  have small : n.toNat < 2 ^ 32 - 1 := by
    have : n.toNat ≠ 2 ^ 32 - 1 := fun k => h (BitVec.eq_of_toNat_eq (k.trans BitVec.toNat_allOnes.symm))
    have := n.isLt
    omega
  rw [BitVec.toNat_add, show (1 : Count).toNat = 1 from rfl]
  omega

theorem State.interval_eq_some {s : State} {n : Count} {i : Interval} (h : s.interval n = some i) :
    i ∈ s.meter.queue ∧ i.number = n :=
  ⟨List.mem_of_find?_eq_some h, by simpa using List.find?_some h⟩

theorem State.named_eq_some {s : State} {n : Nat} {i : Interval} (h : s.named n = some i) : i ∈ s.meter.queue := by
  unfold State.named at h
  split at h
  · exact List.mem_of_head? h
  · exact (State.interval_eq_some h).1

/-- An accepted discard: the number is pending and no channel reads it. -/
theorem discardRefusal_eq_none {s : State} {n : Count} (h : s.discardRefusal n = none) :
    (∃ i, s.interval n = some i) ∧ ∀ c, (s.chan c).state ≠ .idle → (s.chan c).source ≠ n := by
  unfold State.discardRefusal at h
  split at h
  · cases h
  · next pending =>
    split at h
    · cases h
    · next free =>
      refine ⟨Option.ne_none_iff_exists'.1 (by simpa using pending), fun c busy same => free ?_⟩
      refine List.ne_nil_of_mem (a := c) (List.mem_filter.2 ⟨?_, ?_⟩)
      · fin_cases c <;> decide
      · have b : s.chans.ctx[c.val].state ≠ .idle := busy
        have e : s.chans.ctx[c.val].source = n := same
        simp [Channel.reads, b, e]

/-- The state with an interval's records gone, before a standing deferral is closed. -/
def State.without (s : State) (n : Count) : State :=
  { s with meter := { s.meter with queue := s.meter.queue.filter fun i => i.number != n } }

theorem removeInterval_cases (n : Count) (s : State) :
    (removeInterval n s).st = s.without n
      ∨ (s.meter.number ≠ BitVec.allOnes 32 ∧ (removeInterval n s).st = (closeInterval (s.without n)).st) := by
  unfold removeInterval
  dsimp only
  split
  · next h =>
    simp only [Bool.and_eq_true, bne_iff_ne] at h
    exact .inr ⟨h.2, rfl⟩
  · exact .inl rfl

/-! ## Production (R172) -/

/-- What examination leaves of a channel: its source and its mark, with the cursor moved by at most `n` records. -/
def Channel.Examined (n : Nat) (x y : Channel) : Prop :=
  y.source = x.source ∧ y.mark = x.mark ∧ y.cursor ≤ x.cursor + n

theorem Channel.Examined.trans {n m : Nat} {x y z : Channel} (h : x.Examined n y) (k : y.Examined m z) :
    x.Examined (m + n) z := by
  obtain ⟨src, mark, cur⟩ := h
  obtain ⟨src', mark', cur'⟩ := k
  exact ⟨src'.trans src, mark'.trans mark, by omega⟩

theorem Channel.build_examined (n : Nat) (x : Channel) : x.Examined n x.build := ⟨rfl, rfl, Nat.le_add_right _ _⟩

theorem Channel.terminate_examined (n : Nat) (causes : Causes) (x : Channel) : x.Examined n (x.terminate causes) := by
  have half : (if x.building = [] then x else x.build).source = x.source ∧
      (if x.building = [] then x else x.build).mark = x.mark ∧
      (if x.building = [] then x else x.build).cursor = x.cursor := by
    split <;> exact ⟨rfl, rfl, rfl⟩
  obtain ⟨src, mark, cur⟩ := half
  exact ⟨src, mark, by rw [show (x.terminate causes).cursor = _ from cur]; omega⟩

theorem examine_examined (b : Bool) (r : Record) (x : Channel) (s : State) : x.Examined 1 (examine b r x s).1.1 := by
  unfold examine
  split
  · exact ⟨rfl, rfl, le_rfl⟩
  · split
    · exact ⟨rfl, rfl, Nat.le_add_right _ _⟩
    · split
      · dsimp only
        split <;> exact ⟨rfl, rfl, le_rfl⟩
      · exact ⟨rfl, rfl, le_rfl⟩

theorem examineAll_examined (total : Nat) (rs : List Record) (b : Bool) (x : Channel) (s : State) :
    x.Examined rs.length (examineAll total rs b x s).1 := by
  induction rs generalizing b x s with
  | nil => exact Channel.terminate_examined _ _ x
  | cons r rs ih =>
    have step := examine_examined b r x s
    have stay {y z : Channel} (h : x.Examined 1 y) (k : y.Examined 0 z) : x.Examined (rs.length + 1) z := by
      obtain ⟨src, mark, cur⟩ := h.trans k
      exact ⟨src, mark, by omega⟩
    unfold examineAll
    split
    · exact Channel.terminate_examined _ _ x
    · split
      · exact Channel.build_examined _ x
      · dsimp only
        split
        · exact stay step (Channel.terminate_examined 0 _ _)
        · exact step.trans (ih _ _ _)

theorem examineAll_chans (total : Nat) (rs : List Record) (b : Bool) (x : Channel) (s : State) :
    Quiet s (examineAll total rs b x s).2.st :=
  .of_refetchOnly (examineAll_frame total rs b x s) (examineAll_refetchOnly total rs b x s) (by decide)

/-- Production writes its channel back once, and the rest of it is quiet. -/
theorem produce_cases (b : Bool) (c : Fin 2) (s : State) :
    (produce b c s).st = s ∨
      ((s.chan c).state = .running ∧ ∃ s1 y, Quiet s s1 ∧ (∀ d, s1.chan d = s.chan d)
        ∧ ({ s.chan c with mark := (s.chan c).markNow } : Channel).Examined
            ((s.sourceRecords (s.chan c)).length - (s.chan c).cursor) y
        ∧ Quiet (setChan c (fun _ => y) s1) (produce b c s).st) := by
  unfold produce
  dsimp only
  split
  · next h =>
    have ex := examineAll_examined (s.sourceRecords (s.chan c)).length
      ((s.sourceRecords (s.chan c)).drop (s.chan c).cursor) b { s.chan c with mark := (s.chan c).markNow } s
    rw [List.length_drop] at ex
    refine .inr ⟨h.1, _, _, examineAll_chans _ _ _ _ _, fun d => ?_, ex, fillRecord_readyEnd_quiet c _⟩
    rw [State.chan, (examineAll_frame _ _ _ _ _).chans (by decide), State.chan]
  · exact .inl rfl

/-! ## The interval queue (R163) -/

/-- A channel that is not IDLE was so before, with the same source. -/
def SourcesKept (s t : State) : Prop :=
  ∀ c : Fin 2, (t.chan c).state ≠ .idle → (s.chan c).state ≠ .idle ∧ (t.chan c).source = (s.chan c).source

theorem SourcesKept.of_chans {s t : State} (h : t.chans = s.chans) : SourcesKept s t := fun c busy => by
  unfold State.chan at busy ⊢
  rw [h] at busy ⊢
  exact ⟨busy, rfl⟩

theorem Channel.Within.source {x y : Channel} (h : x.Within y) (busy : y.state ≠ .idle) :
    x.state ≠ .idle ∧ y.source = x.source := by
  rcases h with idle | ⟨hx, src, -⟩
  · exact absurd idle busy
  · exact ⟨hx, src⟩

theorem intervalLaw_of_same {s t : State} (hn : t.meter.number = s.meter.number) (hq : t.meter.queue = s.meter.queue)
    (hc : SourcesKept s t) : s.intervalLaw → t.intervalLaw := by
  rintro ⟨len, rising, below, sources⟩
  refine ⟨by rwa [hq], by rwa [hq], by rwa [hq, hn], fun c busy => ?_⟩
  obtain ⟨before, src⟩ := hc c busy
  rw [hq, src]
  exact sources c before

theorem intervalLaw_of_frame {l : List Block} {s t : State} (h : Frame l s t) (k : Block.meter ∉ l ∧ Block.chans ∉ l) :
    s.intervalLaw → t.intervalLaw :=
  intervalLaw_of_same (by rw [h.meter k.1]) (by rw [h.meter k.1]) (.of_chans (h.chans k.2))

theorem PendingsKept.intervalLaw {s t : State} (h : PendingsKept s t) : s.intervalLaw → t.intervalLaw :=
  intervalLaw_of_same h.number h.intervals (.of_chans h.chans)

theorem Quiet.intervalLaw {s t : State} (q : Quiet s t) : s.intervalLaw → t.intervalLaw :=
  intervalLaw_of_same q.number q.intervals fun c busy => (q.chans c).source busy

theorem Closed.intervalLaw {s t : State} (h : Closed s t) (room : s.meter.queue.length < 2)
    (more : s.meter.number ≠ BitVec.allOnes 32) : s.intervalLaw → t.intervalLaw := by
  rintro ⟨-, rising, below, sources⟩
  obtain ⟨i, hi, queue⟩ := h.intervals
  have number : t.meter.number.toNat = s.meter.number.toNat + 1 := by rw [h.number, toNat_succ_of_ne_allOnes more]
  refine ⟨?_, ?_, ?_, fun c busy => ?_⟩
  · rw [queue, List.length_append, List.length_singleton]
    omega
  · rw [queue, List.map_append, List.pairwise_append]
    refine ⟨rising, List.pairwise_singleton _ _, fun x hx y hy => ?_⟩
    obtain ⟨j, hj, rfl⟩ := List.mem_map.1 hx
    cases List.mem_singleton.1 hy
    show j.number.toNat < i.number.toNat
    rw [hi]
    exact below j hj
  · intro j hj
    rw [number]
    rw [queue, List.mem_append, List.mem_singleton] at hj
    rcases hj with hj | rfl
    · have := below j hj
      omega
    · rw [hi]
      omega
  · obtain ⟨before, src⟩ := SourcesKept.of_chans h.chans c busy
    obtain ⟨j, hj, e⟩ := sources c before
    exact ⟨j, by rw [queue]; exact List.mem_append_left _ hj, by rw [src, e]⟩

/-- What an accepted discard leaves of the queue. -/
theorem without_intervalLaw {n : Count} {s : State} (h : s.discardRefusal n = none) (law : s.intervalLaw) :
    (s.without n).intervalLaw ∧ (s.without n).meter.queue.length < 2 := by
  obtain ⟨⟨i, pending⟩, free⟩ := discardRefusal_eq_none h
  obtain ⟨hi, number⟩ := State.interval_eq_some pending
  obtain ⟨len, rising, below, sources⟩ := law
  have shorter : (s.without n).meter.queue.length < s.meter.queue.length :=
    List.length_filter_lt_length_iff_exists.2 ⟨i, hi, by simp [number]⟩
  refine ⟨⟨by omega, rising.sublist (List.filter_sublist.map _), fun j hj => below j (List.mem_filter.1 hj).1,
    fun c busy => ?_⟩, by omega⟩
  obtain ⟨j, hj, e⟩ := sources c busy
  exact ⟨j, List.mem_filter.2 ⟨hj, by simpa [e] using free c busy⟩, e⟩

theorem removeInterval_intervalLaw {n : Count} {s : State} (h : s.discardRefusal n = none) (law : s.intervalLaw) :
    (removeInterval n s).st.intervalLaw := by
  obtain ⟨kept, room⟩ := without_intervalLaw h law
  rcases removeInterval_cases n s with e | ⟨more, e⟩
  · rwa [e]
  · rw [e]
    exact (closeInterval_closed _).intervalLaw room more kept

theorem intervalLaw_steps : Steps fun s t => s.intervalLaw → t.intervalLaw where
  trans h k := k ∘ h
  quiet q := q.intervalLaw
  enqueue p c x s _ _ := intervalLaw_of_frame (enqueueCopy_frame p c x s) (by decide)
  transmitted p s := intervalLaw_of_frame (endTransmission_frame p s) (by decide)
  flush p s := intervalLaw_of_frame (flushPort_frame p s) (by decide)
  testSlot i s := intervalLaw_of_frame (testSlot_frame i s) (by decide)
  learn p t a s := intervalLaw_of_frame (learnKey_frame p t a s) (by decide)
  join x t a s _ := intervalLaw_of_frame (joinKey_frame x t a s) (by decide)
  leave st t a s := intervalLaw_of_frame (leaveKey_frame st t a s) (by decide)
  queueReach op t a s := intervalLaw_of_frame (queueReach_frame op t a s) (by decide)
  composeReach s := intervalLaw_of_frame (composeReach_frame s) (by decide)
  reinsert n f s := intervalLaw_of_frame (reinsertFixed_frame n f s) (by decide)
  age i s := intervalLaw_of_frame (ageSlot_frame i s) (by decide)
  fillFixed n e s := intervalLaw_of_frame (fillFixed_frame n e s) (by decide)
  testAcc k s := (testAcc_tested k s).pendings.intervalLaw
  countDrop t b s := (changeAcc_pendings _ _ s).intervalLaw
  flag t b s := (changeAcc_pendings _ _ s).intervalLaw
  meter d e g s := (meterFrame_pendings d e g s).intervalLaw
  close s h := (closeInterval_closed s).intervalLaw (State.closes_iff.1 h).1 (State.closes_iff.1 h).2
  start c p i s h law := by
    obtain ⟨n, named⟩ := h
    obtain ⟨len, rising, below, sources⟩ := law
    refine ⟨len, rising, below, fun d busy => ?_⟩
    by_cases e : d = c
    · subst e
      exact ⟨i, State.named_eq_some named, by rw [chan_setChan]; rfl⟩
    · rw [chan_setChan_ne e] at busy ⊢
      exact sources d busy
  produce b c s law := by
    rcases produce_cases b c s with e | ⟨run, s1, y, q, same, ⟨src, -⟩, q'⟩
    · rwa [e]
    · refine q'.intervalLaw (intervalLaw_of_same (s := s1) rfl rfl (fun d busy => ?_) (q.intervalLaw law))
      by_cases e : d = c
      · subst e
        rw [chan_setChan, same]
        exact ⟨by simp [run], src⟩
      · rw [chan_setChan_ne e] at busy ⊢
        exact ⟨busy, rfl⟩
  restart s law := by
    obtain ⟨len, rising, below, -⟩ := law
    exact ⟨len, rising, below, fun c busy => absurd (by fin_cases c <;> rfl) busy⟩

/-! ## Cursors (R180) -/

/-- Every number that names a pending interval names the same one after. -/
def IntervalsKept (s t : State) : Prop := ∀ n i, s.interval n = some i → t.interval n = some i

theorem IntervalsKept.of_queue {s t : State} (h : t.meter.queue = s.meter.queue) : IntervalsKept s t := fun n i hi => by
  unfold State.interval at hi ⊢
  rwa [h]

theorem IntervalsKept.length_le {s t : State} (h : IntervalsKept s t) {x y : Channel} (src : y.source = x.source) :
    (s.sourceRecords x).length ≤ (t.sourceRecords y).length := by
  unfold State.sourceRecords
  rw [src]
  cases k : s.interval x.source with
  | none => exact Nat.zero_le _
  | some i => rw [h _ _ k]

/-- The cursors stay where they are, or go back to the mark. -/
theorem cursorLaw_of_within {s t : State} (hi : IntervalsKept s t) (hc : ∀ c, (s.chan c).Within (t.chan c)) :
    s.cursorLaw → t.cursorLaw := by
  intro law c busy
  rcases hc c with idle | ⟨before, src, mark, cur⟩
  · exact absurd idle busy
  · have le := hi.length_le src
    obtain ⟨cursor_le, mark_le⟩ := law c before
    rw [mark]
    exact ⟨by rcases cur with e | e <;> omega, by omega⟩

theorem Channel.Within.of_chans {s t : State} (h : t.chans = s.chans) (c : Fin 2) : (s.chan c).Within (t.chan c) := by
  unfold State.chan
  rw [h]
  exact .refl _

theorem cursorLaw_of_frame {l : List Block} {s t : State} (h : Frame l s t) (k : Block.meter ∉ l ∧ Block.chans ∉ l) :
    s.cursorLaw → t.cursorLaw :=
  cursorLaw_of_within (.of_queue (by rw [h.meter k.1])) (.of_chans (h.chans k.2))

theorem PendingsKept.cursorLaw {s t : State} (h : PendingsKept s t) : s.cursorLaw → t.cursorLaw :=
  cursorLaw_of_within (.of_queue h.intervals) (.of_chans h.chans)

theorem Quiet.cursorLaw {s t : State} (q : Quiet s t) : s.cursorLaw → t.cursorLaw :=
  cursorLaw_of_within (.of_queue q.intervals) q.chans

theorem Closed.cursorLaw {s t : State} (h : Closed s t) : s.cursorLaw → t.cursorLaw := by
  refine cursorLaw_of_within (fun n i hi => ?_) (.of_chans h.chans)
  obtain ⟨j, -, queue⟩ := h.intervals
  unfold State.interval at hi ⊢
  rw [queue, List.find?_append, hi]
  rfl

/-- The records of another number are the same without the interval. -/
theorem interval_without {n m : Count} (h : m ≠ n) (s : State) : (s.without n).interval m = s.interval m := by
  have same (l : List Interval) : (l.filter fun i => i.number != n).find? (fun i => i.number == m) =
      l.find? fun i => i.number == m := by
    rw [List.find?_filter]
    refine List.find?_congr fun i _ => ?_
    by_cases e : i.number = m
    · simp [e, h]
    · simp [e]
  exact same _

theorem removeInterval_cursorLaw {n : Count} {s : State} (h : s.discardRefusal n = none) (law : s.cursorLaw) :
    (removeInterval n s).st.cursorLaw := by
  obtain ⟨-, free⟩ := discardRefusal_eq_none h
  have kept : (s.without n).cursorLaw := fun c busy => by
    have same : (s.without n).sourceRecords (s.chan c) = s.sourceRecords (s.chan c) := by
      unfold State.sourceRecords
      rw [interval_without (free c busy)]
    have := law c busy
    rwa [← same] at this
  rcases removeInterval_cases n s with e | ⟨-, e⟩
  · rwa [e]
  · rw [e]
    exact (closeInterval_closed _).cursorLaw kept

theorem cursorLaw_steps : Steps fun s t => s.cursorLaw → t.cursorLaw where
  trans h k := k ∘ h
  quiet q := q.cursorLaw
  enqueue p c x s _ _ := cursorLaw_of_frame (enqueueCopy_frame p c x s) (by decide)
  transmitted p s := cursorLaw_of_frame (endTransmission_frame p s) (by decide)
  flush p s := cursorLaw_of_frame (flushPort_frame p s) (by decide)
  testSlot i s := cursorLaw_of_frame (testSlot_frame i s) (by decide)
  learn p t a s := cursorLaw_of_frame (learnKey_frame p t a s) (by decide)
  join x t a s _ := cursorLaw_of_frame (joinKey_frame x t a s) (by decide)
  leave st t a s := cursorLaw_of_frame (leaveKey_frame st t a s) (by decide)
  queueReach op t a s := cursorLaw_of_frame (queueReach_frame op t a s) (by decide)
  composeReach s := cursorLaw_of_frame (composeReach_frame s) (by decide)
  reinsert n f s := cursorLaw_of_frame (reinsertFixed_frame n f s) (by decide)
  age i s := cursorLaw_of_frame (ageSlot_frame i s) (by decide)
  fillFixed n e s := cursorLaw_of_frame (fillFixed_frame n e s) (by decide)
  testAcc k s := (testAcc_tested k s).pendings.cursorLaw
  countDrop t b s := (changeAcc_pendings _ _ s).cursorLaw
  flag t b s := (changeAcc_pendings _ _ s).cursorLaw
  meter d e g s := (meterFrame_pendings d e g s).cursorLaw
  close s _ := (closeInterval_closed s).cursorLaw
  start c p i s _ law := fun d busy => by
    by_cases e : d = c
    · subst e
      rw [chan_setChan]
      exact ⟨Nat.zero_le _, Nat.zero_le _⟩
    · rw [chan_setChan_ne e] at busy ⊢
      exact law d busy
  produce b c s law := by
    rcases produce_cases b c s with e | ⟨run, s1, y, q, same, ⟨src, mark, cur⟩, q'⟩
    · rwa [e]
    · refine q'.cursorLaw fun d busy => ?_
      by_cases e : d = c
      · subst e
        obtain ⟨cursor_le, -⟩ := law d (by simp [run])
        have le := (IntervalsKept.of_queue q.intervals).length_le (x := s.chan d) src
        rw [chan_setChan, mark]
        dsimp only at cur
        have goal : y.cursor ≤ (s1.sourceRecords y).length ∧ (s.chan d).cursor ≤ (s1.sourceRecords y).length := by
          constructor <;> omega
        exact goal
      · rw [chan_setChan_ne e] at busy ⊢
        exact q.cursorLaw law d busy
  restart s _ := fun c busy => absurd (by fin_cases c <;> rfl) busy

/-- Settles O56: a discard needs a number that no channel reads, and a full reset leaves no interval and no run. -/
theorem intervalLawsAreKept : Obligations.IntervalLawsAreKept := by
  unfold Obligations.IntervalLawsAreKept
  intro s t e
  constructor
  · intro law
    rcases intervalLaw_steps.step e with ⟨v, -, rfl⟩ | k | ⟨n, s1, q, free, k⟩
    · exact ⟨Nat.zero_le _, List.Pairwise.nil, fun i hi => (List.not_mem_nil hi).elim,
        fun c busy => absurd (by fin_cases c <;> rfl) busy⟩
    · exact k law
    · exact k (removeInterval_intervalLaw free (q.intervalLaw law))
  · intro law
    rcases cursorLaw_steps.step e with ⟨v, -, rfl⟩ | k | ⟨n, s1, q, free, k⟩
    · exact fun c busy => absurd (by fin_cases c <;> rfl) busy
    · exact k law
    · exact k (removeInterval_cursorLaw free (q.cursorLaw law))

end Sys2Proof.Machine
end

section
/-! R158 and R165: no count of a live accumulator decreases, and no sum over it and the records of the pending intervals (O57). -/

namespace Sys2Proof.Machine

/-! ## One accumulator -/

/-- No count decreases, nor the charge with its residue. -/
def Accumulator.Le (a b : Accumulator) : Prop := ∀ f ∈ meterCounts, f.1 a ≤ f.1 b

theorem Accumulator.le_iff {a b : Accumulator} :
    a.Le b ↔ a.outF.toNat ≤ b.outF.toNat ∧ a.outO.toNat ≤ b.outO.toNat ∧ a.inF.toNat ≤ b.inF.toNat
      ∧ a.inO.toNat ≤ b.inO.toNat ∧ a.drops.toNat ≤ b.drops.toNat
      ∧ a.charge.toNat * 1024 + a.residue.toNat ≤ b.charge.toNat * 1024 + b.residue.toNat := by
  simp [Accumulator.Le, meterCounts]

theorem Accumulator.Le.refl (a : Accumulator) : a.Le a := fun _ _ => le_rfl

theorem Accumulator.Le.trans {a b c : Accumulator} (h : a.Le b) (k : b.Le c) : a.Le c :=
  fun f hf => (h f hf).trans (k f hf)

/-- The charge units alone do not decrease, as a residue is below 1,024. -/
theorem Accumulator.Le.charge {a b : Accumulator} (h : a.Le b) : a.charge.toNat ≤ b.charge.toNat := by
  obtain ⟨-, -, -, -, -, le⟩ := le_iff.1 h
  have := a.residue.isLt
  have := b.residue.isLt
  omega

theorem le_satAdd {w : Nat} (c : BitVec w) (n : Nat) : c.toNat ≤ (satAdd c n).1.toNat := by
  rw [satAdd_toNat]
  have := c.isLt
  omega

theorem Accumulator.le_drop (a : Accumulator) : a.Le a.drop :=
  le_iff.2 ⟨le_rfl, le_rfl, le_rfl, le_rfl, le_satAdd _ _, le_rfl⟩

theorem Accumulator.le_count (d : Descriptor) (a : Accumulator) : a.Le (a.count d) := by
  unfold Accumulator.count
  split
  · exact le_iff.2 ⟨le_rfl, le_rfl, le_satAdd _ _, le_satAdd _ _, le_rfl, le_rfl⟩
  · exact le_iff.2 ⟨le_satAdd _ _, le_satAdd _ _, le_rfl, le_rfl, le_rfl, le_rfl⟩

theorem Accumulator.le_count_fault (d : Descriptor) (a : Accumulator) : a.Le { a.count d with tariffFault := true } :=
  (a.le_count d).trans (le_iff.2 ⟨le_rfl, le_rfl, le_rfl, le_rfl, le_rfl, le_rfl⟩)

/-- Below the largest charge the residue is the remainder of the sum; at it, the residue stands. -/
theorem Accumulator.le_rate (fee rate len : Nat) (a : Accumulator) : a.Le (a.rate fee rate len) := by
  refine le_iff.2 ⟨le_rfl, le_rfl, le_rfl, le_rfl, le_rfl, ?_⟩
  have charge := a.rate_charge_toNat fee rate len
  have := a.charge.isLt
  have := a.residue.isLt
  by_cases full : a.charge.toNat = 2 ^ 48 - 1
  · rw [rate_residue_of_full fee rate len full, charge]
    omega
  · rw [rate_residue_toNat fee rate len (by omega), charge]
    have sum : a.residue.toNat ≤ rateSum fee rate len a.residue.toNat := Nat.le_add_left _ _
    omega

@[simp] theorem Accumulator.count_checkGood (d : Descriptor) (a : Accumulator) : (a.count d).checkGood = a.checkGood := by
  unfold Accumulator.count
  split <;> rfl

/-! ## Steps that keep the intervals -/

/-- The meter's law: its accumulators, and the live number above the pending ones. -/
def State.meterLaw (s : State) : Prop := s.accLaw ∧ ∀ i ∈ s.meter.queue, i.number.toNat < s.meter.number.toNat

theorem accKey_lt (t : Tenant) (b : Cls) : accKey t b < 1024 := by
  have := t.isLt
  have := b.isLt
  unfold accKey
  omega

/-- What no step takes from the meter, a discard and a full reset apart. -/
structure MeterKept (s t : State) : Prop where
  law : t.meterLaw
  number : s.meter.number.toNat ≤ t.meter.number.toNat
  intervals : ∃ new, t.meter.queue = s.meter.queue ++ new ∧ ∀ i ∈ new, s.meter.number.toNat ≤ i.number.toNat
  good : ∀ x b, (s.acc (accKey x b)).checkGood = true → (t.acc (accKey x b)).checkGood = true
  counts : ∀ x b, (s.acc (accKey x b)).checkGood = true → t.meter.number = s.meter.number →
    (s.acc (accKey x b)).Le (t.acc (accKey x b))
  sums : ∀ x b, (s.acc (accKey x b)).checkGood = true → ∀ f ∈ meterCounts, s.meterSum f x b ≤ t.meterSum f x b

theorem MeterKept.trans {s t u : State} (h : MeterKept s t) (k : MeterKept t u) : MeterKept s u where
  law := k.law
  number := h.number.trans k.number
  intervals := by
    obtain ⟨l, hl, fresh⟩ := h.intervals
    obtain ⟨m, hm, fresh'⟩ := k.intervals
    refine ⟨l ++ m, by rw [hm, hl, List.append_assoc], fun i hi => ?_⟩
    rcases List.mem_append.1 hi with hi | hi
    · exact fresh i hi
    · exact h.number.trans (fresh' i hi)
  good x b g := k.good x b (h.good x b g)
  counts x b g e := by
    have hn := h.number
    have kn := k.number
    rw [e] at kn
    have same : t.meter.number = s.meter.number := BitVec.eq_of_toNat_eq (by omega)
    exact (h.counts x b g same).trans (k.counts x b (h.good x b g) (e.trans same.symm))
  sums x b g f hf := (h.sums x b g f hf).trans (k.sums x b (h.good x b g) f hf)

/-- A step that keeps number and intervals, and each good accumulator or raises its counts. -/
theorem MeterKept.of_accs {s t : State} (law : s.meterLaw) (acc : t.accLaw) (hn : t.meter.number = s.meter.number)
    (hq : t.meter.queue = s.meter.queue)
    (h : ∀ x b, (s.acc (accKey x b)).checkGood = true →
      (t.acc (accKey x b)).checkGood = true ∧ (s.acc (accKey x b)).Le (t.acc (accKey x b))) : MeterKept s t where
  law := ⟨acc, by rw [hq, hn]; exact law.2⟩
  number := by rw [hn]
  intervals := ⟨[], by rw [hq, List.append_nil], fun i hi => (List.not_mem_nil hi).elim⟩
  good x b g := (h x b g).1
  counts x b g _ := (h x b g).2
  sums x b g f hf := by
    unfold State.meterSum
    rw [hq]
    exact Nat.add_le_add_right ((h x b g).2 f hf) _

theorem MeterKept.of_meter {s t : State} (law : s.meterLaw) (ha : t.meter.accs = s.meter.accs)
    (hn : t.meter.number = s.meter.number) (hq : t.meter.queue = s.meter.queue) : MeterKept s t :=
  .of_accs law (accLaw_of_accs ha law.1) hn hq fun x b g => by
    rw [acc_of_accs ha]
    exact ⟨g, .refl _⟩

theorem MeterKept.of_frame {l : List Block} {s t : State} (h : Frame l s t) (k : Block.meter ∉ l) (law : s.meterLaw) :
    MeterKept s t :=
  .of_meter law (by rw [h.meter k]) (by rw [h.meter k]) (by rw [h.meter k])

theorem Tested.meterKept {s t : State} (h : Tested s t) (law : s.meterLaw) : MeterKept s t :=
  .of_accs law (h.law law.1) h.number h.intervals fun x b g => by
    rw [h.kept law.1 _ g]
    exact ⟨g, .refl _⟩

/-- A write of an accumulator of a tenant and class that is good and raises its counts. -/
theorem MeterKept.putAcc {s : State} (law : s.meterLaw) (x : Tenant) (b : Cls) {a : Accumulator}
    (good : (s.acc (accKey x b)).checkGood = true → a.checkGood = true) (le : (s.acc (accKey x b)).Le a) :
    MeterKept s (putAcc (accKey x b) a s) :=
  .of_accs law (putAcc_accLaw law.1 (accKey_lt x b) a) rfl rfl fun y c g => by
    by_cases e : accKey y c = accKey x b
    · rw [e] at g ⊢
      rw [acc_putAcc law.1]
      exact ⟨good g, le⟩
    · rw [acc_putAcc_ne e]
      exact ⟨g, .refl _⟩

theorem changeAcc_meterKept (x : Tenant) (b : Cls) {f : Accumulator → Accumulator} (good : ∀ a, (f a).checkGood = a.checkGood)
    (le : ∀ a : Accumulator, a.Le (f a)) {s : State} (law : s.meterLaw) : MeterKept s (changeAcc (accKey x b) f s).st := by
  have read := (testAcc_tested (accKey x b) s).meterKept law
  exact read.trans (.putAcc read.law x b (fun g => (good _).trans g) (le _))

theorem meterFrame_meterKept (d : Descriptor) (e : Port) (g : Option GroupTag) {s : State} (law : s.meterLaw) :
    MeterKept s (meterFrame d e g s).st := by
  have read := (testAcc_tested (accKey d.tenant d.bcls) s).meterKept law
  have ready := read.trans (.of_frame (readTariff_frame d.tariffs[d.bcls.val] _) (by decide) read.law)
  rcases meterFrame_cases d e g s with ⟨fee, rate, h⟩ | h <;> rw [h]
  · exact ready.trans (.putAcc ready.law _ _ (fun k => (Accumulator.count_checkGood d _).trans k)
      ((Accumulator.le_count d _).trans (Accumulator.le_rate _ _ _ _)))
  · exact ready.trans (.putAcc ready.law _ _ (fun k => (Accumulator.count_checkGood d _).trans k)
      (Accumulator.le_count_fault d _))

/-! ## The close moves every count into a record -/

theorem accKey_eq_iff {k : Nat} (hk : k < 1024) (x : Tenant) (b : Cls) (a : Accumulator) :
    ((recordOf k a).tenant == x && (recordOf k a).bcls == b) = true ↔ k = accKey x b := by
  have := x.isLt
  have := b.isLt
  simp only [recordOf, accKey, Bool.and_eq_true, beq_iff_eq, BitVec.toNat_eq, BitVec.toNat_ofNat, Fin.ext_iff]
  omega

/-- An accumulator that leaves no record has nothing to count. -/
theorem count_recordOf_of_not_recorded {a : Accumulator} (h : a.recorded = false) (k : Nat) :
    ∀ f ∈ meterCounts, f.2 (recordOf k a) = 0 := by
  simp only [Accumulator.recorded, Bool.or_eq_false_iff, bne_eq_false_iff_eq] at h
  obtain ⟨⟨⟨⟨⟨⟨⟨⟨⟨outF, outO⟩, inF⟩, inO⟩, charge⟩, drops⟩, -⟩, -⟩, -⟩, -⟩ := h
  simp [meterCounts, recordOf, outF, outO, inF, inO, charge, drops]

theorem mapFind_eq_none_of_above {α : Type} {m : List (Nat × α)} {k : Nat} (h : ∀ x ∈ m, k < x.1) : mapFind m k = none := by
  cases e : mapFind m k with
  | none => rfl
  | some x => exact absurd (h _ (mem_of_mapFind e)) (lt_irrefl k)

theorem mapGet_cons {α : Type} (d : α) (y : Nat × α) (m : List (Nat × α)) (k : Nat) :
    mapGet d (y :: m) k = if y.1 = k then y.2 else mapGet d m k := by
  obtain ⟨i, x⟩ := y
  simp only [mapGet, mapFind]
  split <;> simp_all

theorem sum_closeRecords {accs : List (Nat × Accumulator)} (wf : mapWf accs = true) (keys : ∀ x ∈ accs, x.1 < 1024)
    (x : Tenant) (b : Cls) {f : (Accumulator → Nat) × (Record → Nat)} (hf : f ∈ meterCounts) :
    (((closeRecords accs).filter fun r => r.tenant == x && r.bcls == b).map f.2).sum
      = f.2 (recordOf (accKey x b) (mapGet {} accs (accKey x b))) := by
  induction accs with
  | nil => exact (count_recordOf_of_not_recorded (a := {}) rfl _ f hf).symm
  | cons y accs ih =>
    obtain ⟨k, a⟩ := y
    obtain ⟨above, wf'⟩ := mapWf_cons.1 wf
    have hk := keys _ List.mem_cons_self
    have rest := ih wf' fun z hz => keys z (List.mem_cons_of_mem _ hz)
    have split : closeRecords ((k, a) :: accs) =
        (if a.recorded then [recordOf k a] else []) ++ closeRecords accs := by
      unfold closeRecords
      cases h : a.recorded <;> simp [h]
    rw [split, List.filter_append, List.map_append, List.sum_append, rest, mapGet_cons]
    by_cases e : k = accKey x b
    · subst e
      have none : mapGet {} accs (accKey x b) = ({} : Accumulator) := by
        rw [mapGet, mapFind_eq_none_of_above above]
        rfl
      rw [none, if_pos rfl, count_recordOf_of_not_recorded (a := {}) rfl _ f hf, Nat.add_zero]
      cases h : a.recorded with
      | false => simp [count_recordOf_of_not_recorded h _ f hf]
      | true => simp [(accKey_eq_iff hk x b a).2 rfl]
    · have other : ((recordOf k a).tenant == x && (recordOf k a).bcls == b) = false :=
        Bool.eq_false_iff.2 fun h => e ((accKey_eq_iff hk x b a).1 h)
      rw [if_neg e]
      cases h : a.recorded <;> simp [other]

theorem mem_clearAccs {accs : List (Nat × Accumulator)} {y : Nat × Accumulator} (h : y ∈ clearAccs accs) :
    ∃ z ∈ accs, z.1 = y.1 := by
  obtain ⟨z, hz, rfl⟩ := List.mem_map.1 h
  exact ⟨z, (List.mem_filter.1 hz).1, rfl⟩

theorem clearAccs_cons (k : Nat) (a : Accumulator) (accs : List (Nat × Accumulator)) :
    clearAccs ((k, a) :: accs) = (if a.residue = 0 then [] else [(k, { residue := a.residue })]) ++ clearAccs accs := by
  unfold clearAccs
  by_cases h : a.residue = 0#10 <;> simp [h]

theorem clearAccs_wf {accs : List (Nat × Accumulator)} (wf : mapWf accs = true) : mapWf (clearAccs accs) = true := by
  induction accs with
  | nil => rfl
  | cons y accs ih =>
    obtain ⟨k, a⟩ := y
    obtain ⟨above, wf'⟩ := mapWf_cons.1 wf
    rw [clearAccs_cons]
    split
    · exact ih wf'
    · refine mapWf_cons.2 ⟨fun z hz => ?_, ih wf'⟩
      obtain ⟨w, hw, e⟩ := mem_clearAccs hz
      exact e ▸ above w hw

theorem mapGet_clearAccs {accs : List (Nat × Accumulator)} (wf : mapWf accs = true) (k : Nat) :
    mapGet {} (clearAccs accs) k = { residue := (mapGet {} accs k).residue } := by
  induction accs with
  | nil => rfl
  | cons y accs ih =>
    obtain ⟨i, a⟩ := y
    obtain ⟨above, wf'⟩ := mapWf_cons.1 wf
    rw [clearAccs_cons, mapGet_cons]
    by_cases e : i = k
    · subst e
      have none : mapFind accs i = none := mapFind_eq_none_of_above above
      rw [if_pos rfl]
      split
      · next h =>
        rw [List.nil_append, ih wf', mapGet, none, h]
        rfl
      · rw [List.singleton_append, mapGet_cons, if_pos rfl]
    · rw [if_neg e]
      split
      · exact ih wf'
      · rw [List.singleton_append, mapGet_cons, if_neg e, ih wf']

/-- What the live accumulator and its record count together is what the accumulator counted. -/
theorem count_split (k : Nat) (a : Accumulator) :
    ∀ f ∈ meterCounts, f.1 { residue := a.residue } + f.2 (recordOf k a) = f.1 a := by
  simp [meterCounts, recordOf]
  omega

theorem meterSum_closeLive {s : State} (law : s.accLaw) (x : Tenant) (b : Cls) {f : (Accumulator → Nat) × (Record → Nat)}
    (hf : f ∈ meterCounts) : (closeLive s).st.meterSum f x b = s.meterSum f x b := by
  have cleared : (closeLive s).st.acc (accKey x b) = { residue := (s.acc (accKey x b)).residue } :=
    mapGet_clearAccs law.1 _
  have queue : (closeLive s).st.meter.queue.flatMap Interval.records =
      s.meter.queue.flatMap Interval.records ++ closeRecords s.meter.accs := by
    simp [closeLive, raise]
  unfold State.meterSum
  rw [cleared, queue, List.filter_append, List.map_append, List.sum_append, sum_closeRecords law.1 law.2 x b hf]
  have := count_split (accKey x b) (s.acc (accKey x b)) f hf
  unfold State.acc at this ⊢
  omega

theorem closeLive_accLaw {s : State} (law : s.accLaw) : (closeLive s).st.accLaw := by
  refine ⟨clearAccs_wf law.1, fun y hy => ?_⟩
  obtain ⟨z, hz, e⟩ := mem_clearAccs hy
  exact e ▸ law.2 z hz

theorem closeInterval_accLaw {s : State} (law : s.accLaw) : (closeInterval s).st.accLaw :=
  closeLive_accLaw ((testAccs_tested _ s).law law)

/-- A close leaves each sum as it was (R165). -/
theorem meterSum_closeInterval {s : State} (law : s.accLaw) {x : Tenant} {b : Cls}
    (good : (s.acc (accKey x b)).checkGood = true) {f : (Accumulator → Nat) × (Record → Nat)} (hf : f ∈ meterCounts) :
    (closeInterval s).st.meterSum f x b = s.meterSum f x b := by
  have tested := testAccs_tested (s.meter.accs.map Prod.fst) s
  have same : (eachOut testAcc (s.meter.accs.map Prod.fst) s).st.meterSum f x b = s.meterSum f x b := by
    unfold State.meterSum
    rw [tested.kept law _ good, tested.intervals]
  exact (meterSum_closeLive (tested.law law) x b hf).trans same

theorem closeInterval_acc {s : State} (law : s.accLaw) (k : Nat) : ((closeInterval s).st.acc k).checkGood = true := by
  have cleared := mapGet_clearAccs ((testAccs_tested (s.meter.accs.map Prod.fst) s).law law).1 k
  exact congrArg Accumulator.checkGood cleared

theorem closeInterval_meterKept {s : State} (more : s.meter.number ≠ BitVec.allOnes 32) (law : s.meterLaw) :
    MeterKept s (closeInterval s).st := by
  have closed := closeInterval_closed s
  obtain ⟨i, hi, queue⟩ := closed.intervals
  have number : (closeInterval s).st.meter.number.toNat = s.meter.number.toNat + 1 := by
    rw [closed.number, toNat_succ_of_ne_allOnes more]
  refine ⟨⟨closeInterval_accLaw law.1, fun j hj => ?_⟩, by omega, ⟨[i], queue, fun j hj => ?_⟩,
    fun x b _ => closeInterval_acc law.1 _, fun x b _ e => ?_, fun x b g f hf => (meterSum_closeInterval law.1 g hf).ge⟩
  · rw [queue, List.mem_append, List.mem_singleton] at hj
    rcases hj with hj | rfl
    · have := law.2 j hj
      omega
    · rw [hi]
      omega
  · rw [List.mem_singleton.1 hj, hi]
  · rw [e] at number
    omega

/-! ## Every step -/

theorem meterKept_steps : Steps fun s t => s.meterLaw → MeterKept s t where
  trans h k law := (h law).trans (k (h law).law)
  quiet q law := .of_meter law q.accs q.number q.intervals
  enqueue p c x s _ _ := .of_frame (enqueueCopy_frame p c x s) (by decide)
  transmitted p s := .of_frame (endTransmission_frame p s) (by decide)
  flush p s := .of_frame (flushPort_frame p s) (by decide)
  testSlot i s := .of_frame (testSlot_frame i s) (by decide)
  learn p t a s := .of_frame (learnKey_frame p t a s) (by decide)
  join x t a s _ := .of_frame (joinKey_frame x t a s) (by decide)
  leave st t a s := .of_frame (leaveKey_frame st t a s) (by decide)
  queueReach op t a s := .of_frame (queueReach_frame op t a s) (by decide)
  composeReach s := .of_frame (composeReach_frame s) (by decide)
  reinsert n f s := .of_frame (reinsertFixed_frame n f s) (by decide)
  age i s := .of_frame (ageSlot_frame i s) (by decide)
  fillFixed n e s := .of_frame (fillFixed_frame n e s) (by decide)
  testAcc k s := (testAcc_tested k s).meterKept
  countDrop t b s := changeAcc_meterKept (f := Accumulator.drop) t b (fun _ => rfl) Accumulator.le_drop
  flag t b s := changeAcc_meterKept (f := fun a => { a with restrained := true }) t b (fun _ => rfl) fun a =>
    Accumulator.le_iff.2 ⟨le_rfl, le_rfl, le_rfl, le_rfl, le_rfl, le_rfl⟩
  meter d e g s := meterFrame_meterKept d e g
  close s h := closeInterval_meterKept (State.closes_iff.1 h).2
  start c p i s _ := .of_frame (setChan_frame c _ s) (by decide)
  produce b c s := .of_frame (produce_frame b c s) (by decide)
  restart s law := .of_meter law rfl rfl rfl

theorem meterSum_of_meter {s t : State} (h : t.meter.accs = s.meter.accs) (k : t.meter.queue = s.meter.queue)
    (f : (Accumulator → Nat) × (Record → Nat)) (x : Tenant) (b : Cls) : t.meterSum f x b = s.meterSum f x b := by
  unfold State.meterSum State.acc
  rw [h, k]

theorem without_meterLaw {s : State} (n : Count) (law : s.meterLaw) : (s.without n).meterLaw :=
  ⟨law.1, fun i hi => law.2 i (List.mem_filter.1 hi).1⟩

theorem removeInterval_meterKept {s : State} (n : Count) (law : s.meterLaw) :
    MeterKept (s.without n) (removeInterval n s).st := by
  have left := without_meterLaw n law
  rcases removeInterval_cases n s with e | ⟨more, e⟩ <;> rw [e]
  · exact .of_meter left rfl rfl rfl
  · exact closeInterval_meterKept more left

/-- A discarded interval does not come back: every interval closed later has a higher number. -/
theorem discarded_gone {s t : State} {n : Count} (law : s.meterLaw) (h : s.discardRefusal n = none)
    (k : MeterKept (s.without n) t) : ∃ i ∈ s.meter.queue, i ∉ t.meter.queue := by
  obtain ⟨⟨i, pending⟩, -⟩ := discardRefusal_eq_none h
  obtain ⟨hi, number⟩ := State.interval_eq_some pending
  obtain ⟨new, queue, fresh⟩ := k.intervals
  refine ⟨i, hi, fun back => ?_⟩
  rw [queue, List.mem_append] at back
  rcases back with back | back
  · have := (List.mem_filter.1 back).2
    simp [number] at this
  · exact absurd (law.2 i hi) (not_lt.2 (fresh i back))

theorem Quiet.meterLaw {s t : State} (q : Quiet s t) (law : s.meterLaw) : t.meterLaw :=
  (meterKept_steps.quiet q law).law

/-- The counts of a good accumulator under one live number, and the sums while no interval leaves. -/
def CountsKept (s t : State) : Prop :=
  ∀ (x : Tenant) (b : Cls), (s.acc (accKey x b)).checkGood = true →
    (t.meter.number = s.meter.number → (s.acc (accKey x b)).Le (t.acc (accKey x b)))
    ∧ ((∀ i ∈ s.meter.queue, i ∈ t.meter.queue) → ∀ f ∈ meterCounts, s.meterSum f x b ≤ t.meterSum f x b)

theorem resetState_accLaw (v : BitVec 4) (s : State) : (resetState v s).accLaw :=
  ⟨rfl, fun _ h => (List.not_mem_nil h).elim⟩

theorem step_countsKept {s t : State} (e : step s = .next t) (law : s.meterLaw) :
    t.accLaw ∧ ((∀ v, s.pending.head? ≠ some (.fullReset v)) → CountsKept s t) := by
  rcases meterKept_steps.step e with ⟨v, reset, rfl⟩ | k | ⟨n, s1, q, free, k⟩
  · exact ⟨resetState_accLaw v _, fun other => absurd reset (other v)⟩
  · have kept := k law
    exact ⟨kept.law.1, fun _ x b good => ⟨kept.counts x b good, fun _ => kept.sums x b good⟩⟩
  · have law1 := q.meterLaw law
    have removed := removeInterval_meterKept n law1
    have kept := removed.trans (k removed.law)
    refine ⟨kept.law.1, fun _ x b good => ?_⟩
    have same : s1.acc (accKey x b) = s.acc (accKey x b) := acc_of_accs q.accs _
    have number : (s1.without n).meter.number = s.meter.number := q.number
    refine ⟨fun e => ?_, fun stay => ?_⟩
    · rw [← same]
      exact kept.counts x b (show (s1.acc (accKey x b)).checkGood = true by rw [same]; exact good) (e.trans number.symm)
    · obtain ⟨i, hi, gone⟩ := discarded_gone law1 free kept
      have hi' : i ∈ s.meter.queue := q.intervals ▸ hi
      exact absurd (stay i hi') gone

/-- A boundary leaves each sum: a close moves the counts, a deferral only lengthens the span. -/
theorem meterSum_boundary {s : State} (law : s.accLaw) {x : Tenant} {b : Cls}
    (good : (s.acc (accKey x b)).checkGood = true) {f : (Accumulator → Nat) × (Record → Nat)} (hf : f ∈ meterCounts) :
    (boundary s).st.meterSum f x b = s.meterSum f x b := by
  unfold boundary
  split
  · split
    · exact meterSum_closeInterval law good hf
    · exact meterSum_of_meter rfl rfl f x b
  · rfl

/-- Settles O57: every step but a discard keeps the sums (`MeterKept`), and a discard takes an interval for good. -/
theorem meterLawsAreKept : Obligations.MeterLawsAreKept := by
  unfold Obligations.MeterLawsAreKept
  refine ⟨fun s t e acc interval => ?_, fun s law x b good f hf => ⟨meterSum_boundary law good hf, ?_⟩, ?_⟩
  · obtain ⟨-, -, below, -⟩ := interval
    obtain ⟨law, kept⟩ := step_countsKept e ⟨acc, below⟩
    refine ⟨law, fun other x b good => ?_⟩
    obtain ⟨counts, sums⟩ := kept other x b good
    refine ⟨fun same => ?_, sums⟩
    have le := counts same
    obtain ⟨outF, outO, inF, inO, drops, -⟩ := Accumulator.le_iff.1 le
    exact ⟨outF, outO, inF, inO, drops, le.charge⟩
  · exact meterSum_of_meter rfl rfl f x b
  · exact ⟨rfl, fun _ h => (List.not_mem_nil h).elim⟩

end Sys2Proof.Machine
end

section
/-! FRAME_RECEIVED up to the descriptor: ingress checks, the rule search, the tenant's entry and the tag (O4, O5). -/

namespace Sys2Proof.Machine

theorem Out.of_also (s : State) (f : State → State) : (Out.of s).also f = .of (f s) := rfl

theorem Out.of_andThen (s : State) (f : State → Out) : (Out.of s).andThen f = f s := rfl

/-! ## Faults of configuration entries (R193) -/

/-- The state and the event that a faulty rule leaves. -/
theorem configFault_rule {n : Nat} {r : Rule} {s : State} (h : mapFind s.rules n = some r) :
    configFault ⟨.rule, n⟩ s =
      ⟨{ s with rules := mapInsert s.rules n { r with integ := s.faultInteg }, loader := s.faultLoader ⟨.rule, n⟩ },
        [⟨.integrityFault, none⟩]⟩ := by
  unfold configFault requestRefetch integrityFault raise State.faultInteg State.faultLoader
  by_cases k : s.loader.refetch.length < 8 <;> simp [Config.refetchLimit, k, setInteg, mapModify, h]

theorem configFault_tenant {n : Nat} {e : TenantEntry} {s : State} (h : mapFind s.tenants n = some e) :
    configFault ⟨.tenant, n⟩ s =
      ⟨{ s with tenants := mapInsert s.tenants n { e with integ := s.faultInteg }, loader := s.faultLoader ⟨.tenant, n⟩ },
        [⟨.integrityFault, none⟩]⟩ := by
  unfold configFault requestRefetch integrityFault raise State.faultInteg State.faultLoader
  by_cases k : s.loader.refetch.length < 8 <;> simp [Config.refetchLimit, k, setInteg, mapModify, h]

/-! ## The ingress checks (R2) -/

theorem fcsGood_iff {l : List Byte} :
    fcsGood l = true ↔ beNat (l.drop (l.length - 4)).reverse = frameCheck (l.take (l.length - 4)) := by
  simp [fcsGood]

theorem ingressFault_of_passes {p : Port} {l : List Byte} (h : passesChecks p l) : ingressFault p l = none := by
  obtain ⟨long, short, check⟩ := h
  simp [ingressFault, Nat.not_lt.2 long, Nat.not_lt.2 short, fcsGood_iff.2 check]

theorem satAdd_one_eq {w : Nat} (c : BitVec w) : (satAdd c 1).1 = if c = BitVec.allOnes w then c else c + 1 := by
  have lt := c.isLt
  unfold satAdd
  by_cases h : c = BitVec.allOnes w
  · subst h
    have : 0 < 2 ^ w := Nat.two_pow_pos w
    rw [if_pos rfl, BitVec.toNat_allOnes, if_pos (by omega)]
  · have ne : c.toNat ≠ 2 ^ w - 1 := fun k => h (BitVec.eq_of_toNat_eq (k.trans BitVec.toNat_allOnes.symm))
    rw [if_neg h, if_neg (by omega)]
    rfl

/-! ## FRAME_RECEIVED by its branches -/

section

variable {p : Port} {l : List Byte} {s : State}

theorem takeFrame_of_not_takes (h : ¬ s.takesFrames p) : takeFrame p l s = .of s := by
  have closed : s.portReady p = false := portReady_eq_false_iff.2 h
  simp [takeFrame, closed]

theorem takeFrame_of_fault {r : DropReason} (h : s.takesFrames p) (k : ingressFault p l = some r) :
    takeFrame p l s = .of (dropIngress p r s) := by
  simp [takeFrame, portReady_iff.2 h, k]

theorem takeFrame_of_edge (h : s.takesFrames p) (k : passesChecks p l) (hp : p.val < 28) :
    takeFrame p l s = edgeFrame p l s := by
  have noX : asX p = none := by simp [asX, Nat.not_le.2 hp]
  simp [takeFrame, portReady_iff.2 h, ingressFault_of_passes k, noX]

theorem takeFrame_of_cross (h : s.takesFrames p) (k : passesChecks p l) (hp : 28 ≤ p.val)
    (hd : frameDst l ≠ Config.helloAddr) : takeFrame p l s = crossFrame p l s := by
  simp [takeFrame, portReady_iff.2 h, ingressFault_of_passes k, asX, hp, hd]

end

theorem exec_frameReceived (p : Port) (l : List Byte) (s : State) : exec (.frameReceived p l) s = done (takeFrame p l s) := rfl

theorem dropIngress_of_ne {p : Port} {r : DropReason} (h : r ≠ .badFcs) (s : State) :
    dropIngress p r s = countDrop p r s := if_neg h

theorem dropIngress_badFcs (p : Port) (s : State) :
    dropIngress p .badFcs s = setPort p (fun u => { u with
      drops := { u.drops with badFcs := satInc u.drops.badFcs }
      badFrames := if u.badFrames = BitVec.allOnes 16 then u.badFrames else u.badFrames + 1 }) s := by
  simp [dropIngress, countBadFrame, countDrop, setPort, Drops.bump, satAdd_one_eq]

/-- Settles O4: the three checks in the order of R2. -/
theorem ingressChecksDropFrames : Obligations.IngressChecksDropFrames := by
  unfold Obligations.IngressChecksDropFrames
  refine ⟨fun p l s h => ?_, fun p l => ⟨fun h => ?_, fun h => ?_⟩, fun p l s h => ⟨fun short => ?_, fun long => ?_, ?_⟩⟩
  · rw [exec_frameReceived, takeFrame_of_not_takes h, done_of]
  · simp [frameLength, Nat.not_le.2 h]
  · simp [frameLength, h]
  · have fault : ingressFault p l = some .runt := by simp [ingressFault, short]
    rw [exec_frameReceived, takeFrame_of_fault h fault, done_of, dropIngress_of_ne (by decide)]
    rfl
  · have fault : ingressFault p l = some .giant := by simp [ingressFault, show ¬ frameLength p l < 64 by omega, long]
    rw [exec_frameReceived, takeFrame_of_fault h fault, done_of, dropIngress_of_ne (by decide)]
    rfl
  · intro long short bad
    have fault : ingressFault p l = some .badFcs := by
      have : fcsGood l = false := Bool.eq_false_iff.2 fun k => bad (fcsGood_iff.1 k)
      simp [ingressFault, Nat.not_lt.2 long, Nat.not_lt.2 short, this]
    rw [exec_frameReceived, takeFrame_of_fault h fault, done_of, dropIngress_badFcs]

/-! ## The rule search (R7) -/

/-- A rule that the search passes over: unusable, or good and not matching. -/
def Rule.passedOver (r : Rule) (p : Port) (v : FrameView) : Prop :=
  r.integ ≠ .good ∨ (r.checkGood = true ∧ r.accepts p v = false)

theorem searchRules_passedOver {p : Port} {v : FrameView} {before : List (Nat × Rule)}
    (h : ∀ x ∈ before, x.2.passedOver p v) (rest : List (Nat × Rule)) (s : State) :
    searchRules p v (before ++ rest) s = searchRules p v rest s := by
  induction before with
  | nil => rfl
  | cons x before ih =>
    obtain ⟨n, r⟩ := x
    rw [List.cons_append, searchRules, ih fun y hy => h y (List.mem_cons_of_mem _ hy)]
    rcases h (n, r) List.mem_cons_self with bad | ⟨good, no⟩
    · rw [if_neg bad]
    · rw [if_pos good, no]
      simp

theorem searchRules_none {p : Port} {v : FrameView} {rs : List (Nat × Rule)} (h : ∀ x ∈ rs, x.2.passedOver p v)
    (s : State) : searchRules p v rs s = (none, .of s) := by
  rw [← List.append_nil rs, searchRules_passedOver h]
  rfl

theorem searchRules_match {p : Port} {v : FrameView} {before after : List (Nat × Rule)} {n : Nat} {r : Rule}
    (h : ∀ x ∈ before, x.2.passedOver p v) (hr : r.integ = .good) (good : r.checkGood = true)
    (hit : r.accepts p v = true) (s : State) :
    searchRules p v (before ++ (n, r) :: after) s = (some r, .of s) := by
  rw [searchRules_passedOver h, searchRules, if_pos hr, if_pos good, if_pos hit]

theorem mapFind_middle {α : Type} {before after : List (Nat × α)} {n : Nat} {x : α}
    (wf : mapWf (before ++ (n, x) :: after) = true) : mapFind (before ++ (n, x) :: after) n = some x :=
  mapFind_of_mem wf (List.mem_append_right _ List.mem_cons_self)

theorem mapInsert_middle {α : Type} {before after : List (Nat × α)} {n : Nat} {x y : α}
    (wf : mapWf (before ++ (n, x) :: after) = true) :
    mapInsert (before ++ (n, x) :: after) n y = before ++ (n, y) :: after := by
  induction before with
  | nil => simp [mapInsert]
  | cons z before ih =>
    obtain ⟨k, v⟩ := z
    obtain ⟨above, wf'⟩ := mapWf_cons.1 wf
    have lt : k < n := above _ (List.mem_append_right _ List.mem_cons_self)
    rw [List.cons_append, mapInsert, if_neg (by omega), if_neg (by omega), ih wf']
    rfl

/-- The frame goes on after a faulty rule as if the rule were absent (R7). -/
theorem searchRules_faulty {p : Port} {v : FrameView} {before after : List (Nat × Rule)} {n : Nat} {r : Rule} {s : State}
    (h : ∀ x ∈ before, x.2.passedOver p v) (hr : r.integ = .good) (bad : r.checkGood = false)
    (rules : s.rules = before ++ (n, r) :: after) (wf : mapWf s.rules = true) :
    let u : State := { s with
      rules := mapInsert s.rules n { r with integ := s.faultInteg }, loader := s.faultLoader ⟨.rule, n⟩ }
    searchRules p v s.rules s =
      ((searchRules p v u.rules u).1,
        ⟨(searchRules p v u.rules u).2.st, ⟨.integrityFault, none⟩ :: (searchRules p v u.rules u).2.evs⟩) := by
  intro u
  have waits : (({ r with integ := s.faultInteg } : Rule)).passedOver p v := by
    refine .inl ?_
    show s.faultInteg ≠ .good
    unfold State.faultInteg
    split <;> decide
  rw [rules] at wf
  have fault := configFault_rule (s := s) (n := n) (r := r) (by rw [rules]; exact mapFind_middle wf)
  have later : searchRules p v u.rules u = searchRules p v after u := by
    show searchRules p v (mapInsert s.rules n _) u = _
    rw [rules, mapInsert_middle wf, ← List.singleton_append (l := after), ← List.append_assoc]
    refine searchRules_passedOver (fun x hx => ?_) after u
    rcases List.mem_append.1 hx with hx | hx
    · exact h x hx
    · cases List.mem_singleton.1 hx
      exact waits
  rw [later, rules, searchRules_passedOver h, searchRules, if_pos hr, bad, fault]
  rfl

/-! ## The tenant's entry (R9) -/

theorem readTenant_absent {t : Tenant} {s : State} (h : mapFind s.tenants t.toNat = none) :
    readTenant t s = (.dropped .unclassified, .of s) := by simp [readTenant, h]

theorem readTenant_unusable {t : Tenant} {e : TenantEntry} {s : State} (h : mapFind s.tenants t.toNat = some e)
    (bad : e.integ ≠ .good) : readTenant t s = (.dropped .tenantFault, .of s) := by simp [readTenant, h, bad]

theorem readTenant_good {t : Tenant} {e : TenantEntry} {s : State} (h : mapFind s.tenants t.toNat = some e)
    (good : e.integ = .good) (check : e.checkGood = true) : readTenant t s = (.entry e, .of s) := by
  simp [readTenant, h, good, check]

theorem readTenant_faulty {t : Tenant} {e : TenantEntry} {s : State} (h : mapFind s.tenants t.toNat = some e)
    (good : e.integ = .good) (bad : e.checkGood = false) :
    readTenant t s = (.dropped .tenantFault,
      ⟨{ s with tenants := mapInsert s.tenants t.toNat { e with integ := s.faultInteg }
                loader := s.faultLoader ⟨.tenant, t.toNat⟩ }, [⟨.integrityFault, none⟩]⟩) := by
  rw [← configFault_tenant h]
  simp [readTenant, h, good, bad]

/-! ## Frames from S-ports and U-ports -/

section

variable {p : Port} {l : List Byte} {s : State}

theorem edgeFrame_unclassified (h : ∀ x ∈ s.rules, x.2.passedOver p (frameView l)) :
    edgeFrame p l s = .of (countDrop p .unclassified s) := by
  simp only [edgeFrame, searchRules_none h, Out.of_also]

theorem searchRules_rules {before after : List (Nat × Rule)} {n : Nat} {r : Rule}
    (rules : s.rules = before ++ (n, r) :: after) (h : ∀ x ∈ before, x.2.passedOver p (frameView l))
    (hr : r.integ = .good) (good : r.checkGood = true) (hit : r.accepts p (frameView l) = true) :
    searchRules p (frameView l) s.rules s = (some r, .of s) := by
  rw [rules]
  exact searchRules_match h hr good hit s

theorem edgeFrame_dropped {r : Rule} {reason : DropReason} {o : Out}
    (found : searchRules p (frameView l) s.rules s = (some r, .of s))
    (read : readTenant r.tenant s = (.dropped reason, o)) : edgeFrame p l s = o.also (countDrop p reason) := by
  simp only [edgeFrame, found, Out.of_andThen, read]

theorem edgeFrame_entry {r : Rule} {e : TenantEntry}
    (found : searchRules p (frameView l) s.rules s = (some r, .of s))
    (read : readTenant r.tenant s = (.entry e, .of s)) :
    edgeFrame p l s = (learnFrame (edgeDescriptor p l r e s.params.deepHash) (frameSrc l) s).andThen
      (forwardFrame (edgeDescriptor p l r e s.params.deepHash) (plainOctets l)) := by
  unfold edgeFrame
  rw [found]
  show (Out.of s).andThen _ = _
  rw [Out.of_andThen, read]
  exact Out.of_andThen _ _

theorem edgeFrame_faultyRule {before after : List (Nat × Rule)} {n : Nat} {r : Rule}
    (rules : s.rules = before ++ (n, r) :: after) (h : ∀ x ∈ before, x.2.passedOver p (frameView l))
    (hr : r.integ = .good) (bad : r.checkGood = false) (wf : mapWf s.rules = true) :
    let u : State := { s with
      rules := mapInsert s.rules n { r with integ := s.faultInteg }, loader := s.faultLoader ⟨.rule, n⟩ }
    edgeFrame p l s = ⟨(edgeFrame p l u).st, ⟨.integrityFault, none⟩ :: (edgeFrame p l u).evs⟩ := by
  intro u
  have found := searchRules_faulty h hr bad rules wf
  simp only [edgeFrame, found]
  change _ = (⟨Out.st _, _ :: Out.evs _⟩ : Out)
  cases (searchRules p (frameView l) u.rules u).1 <;> rfl

/-! ## Frames from X-ports (R4, R11, R12) -/

theorem tagInvalid_iff {own : Station} :
    (fieldNat l 12 2 ≠ Config.tagMarker ∨ tagVersion l ≠ 1 ∨ (readTag l).origin = 15#4 ∨ (readTag l).target = 15#4
        ∨ ((readTag l).hop ≠ 1 ∧ (readTag l).hop ≠ 2) ∨ ((readTag l).hop = 2 ∧ (readTag l).relay = false)
        ∨ ((readTag l).relay = true ∧ (readTag l).target = (readTag l).origin)
        ∨ ((readTag l).hop = 2 ∧ (readTag l).relay = true ∧ (readTag l).target ≠ own)
        ∨ ((readTag l).flood = true ∧ (readTag l).diverted = true) ∨ ((readTag l).flood = true ∧ (readTag l).relay = true)
        ∨ ((readTag l).diverted = true ∧ (readTag l).relay = true) ∨ 1023 < (readTag l).bucket)
      ↔ (!hasTagMarker l || tagInvalid own l) = true := by
  simp [hasTagMarker, tagInvalid, GroupTag.manyFlags, or_assoc, and_assoc]

theorem crossFrame_looped (h : (s.port p).looped = true) : crossFrame p l s = .of (countDrop p .loop s) := by
  simp [crossFrame, h]

theorem crossFrame_badTag (h : (s.port p).looped = false) (bad : (!hasTagMarker l || tagInvalid s.loader.station l) = true) :
    crossFrame p l s = .of (countDrop p .badTag s) := by
  simp only [crossFrame, h, bad, if_true, Bool.false_eq_true, if_false]

/-- A frame whose tag this station reads. -/
def State.tagged (s : State) (p : Port) (l : List Byte) : Prop :=
  (s.port p).looped = false ∧ fieldNat l 12 2 = Config.tagMarker ∧ tagInvalid s.loader.station l = false

theorem crossFrame_ownOrigin (h : s.tagged p l) (own : (readTag l).origin = s.loader.station) :
    crossFrame p l s = .of (countDrop p .loop s) := by
  obtain ⟨straight, marker, valid⟩ := h
  simp [crossFrame, straight, hasTagMarker, marker, valid, own]

theorem crossFrame_dropped (h : s.tagged p l) (other : (readTag l).origin ≠ s.loader.station) {reason : DropReason} {o : Out}
    (read : readTenant (readTag l).tenant s = (.dropped reason, o)) : crossFrame p l s = o.also (countDrop p reason) := by
  obtain ⟨straight, marker, valid⟩ := h
  simp [crossFrame, straight, hasTagMarker, marker, valid, other, read]

theorem crossFrame_entry (h : s.tagged p l) (other : (readTag l).origin ≠ s.loader.station) {e : TenantEntry}
    (read : readTenant (readTag l).tenant s = (.entry e, .of s)) :
    crossFrame p l s = forwardFrame (crossDescriptor p l (readTag l) e) (untaggedOctets l) s := by
  obtain ⟨straight, marker, valid⟩ := h
  simp [crossFrame, straight, hasTagMarker, marker, valid, other, read, Out.of_andThen]

end

/-- Settles O5: the read that fails decides the reason; a faulty read changes its entry and the loader first. -/
theorem readingFailuresDropFrames : Obligations.ReadingFailuresDropFrames := by
  unfold Obligations.ReadingFailuresDropFrames
  constructor
  · intro p l s takes passes hp
    have edge {u : State} (hu : u.takesFrames p) : takeFrame p l u = edgeFrame p l u := takeFrame_of_edge hu passes hp
    have takesNow : exec (.frameReceived p l) s = done (edgeFrame p l s) := congrArg done (edge takes)
    refine ⟨fun skips => takesNow.trans (congrArg done (edgeFrame_unclassified skips)), ?_⟩
    intro before n r after rules skips hr
    refine ⟨fun bad wf => ?_, fun good hit => ⟨fun absent => ?_, fun e he => ⟨fun bad => ?_, fun ok bad => ?_⟩⟩⟩
    · intro u
      have takesU : u.takesFrames p := takes
      refine ⟨rfl, ?_⟩
      rw [edge takesU, takesNow, edgeFrame_faultyRule rules skips hr bad wf]
      rfl
    · rw [takesNow, edgeFrame_dropped (searchRules_rules rules skips hr good hit) (readTenant_absent absent)]
      rfl
    · rw [takesNow, edgeFrame_dropped (searchRules_rules rules skips hr good hit) (readTenant_unusable he bad)]
      rfl
    · rw [takesNow, edgeFrame_dropped (searchRules_rules rules skips hr good hit) (readTenant_faulty he ok bad)]
      rfl
  · intro p l s takes passes hp noHello
    have takesNow : exec (.frameReceived p l) s = done (crossFrame p l s) :=
      congrArg done (takeFrame_of_cross takes passes hp noHello)
    refine ⟨fun looped => takesNow.trans (congrArg done (crossFrame_looped looped)),
      fun straight bad => takesNow.trans (congrArg done (crossFrame_badTag straight (tagInvalid_iff.1 bad))),
      fun straight marker valid => ⟨fun own => ?_, fun other => ⟨fun absent => ?_, fun e he => ⟨fun bad => ?_, fun ok bad => ?_⟩⟩⟩⟩
    · exact takesNow.trans (congrArg done (crossFrame_ownOrigin ⟨straight, marker, valid⟩ own))
    · rw [takesNow, crossFrame_dropped ⟨straight, marker, valid⟩ other (readTenant_absent absent)]
      rfl
    · rw [takesNow, crossFrame_dropped ⟨straight, marker, valid⟩ other (readTenant_unusable he bad)]
      rfl
    · rw [takesNow, crossFrame_dropped ⟨straight, marker, valid⟩ other (readTenant_faulty he ok bad)]
      rfl

end Sys2Proof.Machine
end

section
/-! R192: the state after a full reset, and the laws it keeps (O50, O60). -/

namespace Sys2Proof.Machine

theorem reset_slot (n : SlotNo) : State.reset.slot n = none := by
  fin_cases n <;> rfl

theorem reset_chan (c : Fin 2) : State.reset.chan c = {} := by
  fin_cases c <;> rfl

theorem reset_port (p : Port) : State.reset.port p = {} := by
  simp [State.reset, State.port]

theorem reset_queues (p : Port) : State.reset.buffer.ports[p] = {} := by
  simp [State.reset]

/-- Settles O50. -/
theorem fullResetClearsTheStation : Obligations.FullResetClearsTheStation := by
  unfold Obligations.FullResetClearsTheStation
  intro s straps
  refine ⟨rfl, rfl, rfl, rfl, rfl, rfl, fun p => ⟨reset_port p, reset_queues p⟩, rfl, rfl, rfl, reset_slot, rfl, rfl, rfl, rfl,
    rfl, rfl, rfl, fun _ => rfl, fun c => ?_, rfl, rfl, rfl⟩
  rw [reset_chan]

theorem reset_intervalLaw : State.reset.intervalLaw := by
  refine ⟨Nat.zero_le _, List.Pairwise.nil, fun i hi => (List.not_mem_nil hi).elim, fun c busy => absurd ?_ busy⟩
  rw [reset_chan]

theorem reset_cursorLaw : State.reset.cursorLaw := fun c busy => absurd (by rw [reset_chan]) busy

theorem reset_indexLaw : State.reset.indexLaw := by
  refine ⟨fun i => ?_, Nat.zero_le _⟩
  simp [State.reset]

theorem reset_viewLaw : State.reset.viewLaw :=
  ⟨fun n x _ h => (Option.some_ne_none x (h.symm.trans (reset_slot n))).elim, fun _ => reset_slot⟩

theorem reset_silenceLaw : State.reset.silenceLaw :=
  silenceLaw_of_silent ⟨rfl, rfl, rfl, rfl, rfl, fun _ h => Option.some_ne_none _ h.symm |>.elim⟩ rfl

/-- Settles O60. -/
theorem resetKeepsTheLaws : Obligations.ResetKeepsTheLaws :=
  ⟨restraintLaw_of_nil rfl, shareLaw_of_zero rfl (by decide), reset_indexLaw, reset_viewLaw, tableLaw_of_empty rfl,
    ⟨Nat.zero_le _, List.nodup_nil⟩, reset_intervalLaw, reset_cursorLaw, cellLaw_of_empty rfl, reset_silenceLaw⟩

end Sys2Proof.Machine
end

section
/-! The reach queue, its notice, and the refresh sweep (O21, O23, O24). A REACH changes nothing of an entry but its announced
flag, so tables are compared without these flags. -/

namespace Sys2Proof.Machine

/-! ## Tables but for the announced flags (R26) -/

/-- The entry without its announced flag. -/
def FwdEntry.plain (e : FwdEntry) : FwdEntry := { e with announced := false }

/-- Two tables differ in announced flags alone. -/
def SameButFlags (m m' : List (Nat × FwdEntry)) : Prop :=
  ∀ i, (mapFind m' i).map FwdEntry.plain = (mapFind m i).map FwdEntry.plain

theorem SameButFlags.refl (m : List (Nat × FwdEntry)) : SameButFlags m m := fun _ => rfl

theorem SameButFlags.symm {m m' : List (Nat × FwdEntry)} (h : SameButFlags m m') : SameButFlags m' m := fun i => (h i).symm

theorem SameButFlags.trans {m m' m'' : List (Nat × FwdEntry)} (h : SameButFlags m m') (k : SameButFlags m' m'') :
    SameButFlags m m'' := fun i => (k i).trans (h i)

theorem SameButFlags.none {m m' : List (Nat × FwdEntry)} (h : SameButFlags m m') {i : Nat} (k : mapFind m i = none) :
    mapFind m' i = none := by
  have := h i
  rw [k] at this
  simpa using this

/-- An entry stands in the other table but for its flag. -/
theorem SameButFlags.some {m m' : List (Nat × FwdEntry)} (h : SameButFlags m m') {i : Nat} {e : FwdEntry}
    (k : mapFind m i = some e) : ∃ a, mapFind m' i = some { e with announced := a } := by
  have same := h i
  rw [k] at same
  obtain ⟨f, hf, plain⟩ := Option.map_eq_some_iff.1 same
  refine ⟨f.announced, hf.trans (congrArg _ ?_)⟩
  cases e
  cases f
  cases plain
  rfl

theorem SameButFlags.keyIndex {m m' : List (Nat × FwdEntry)} (h : SameButFlags m m') (t : Tenant) (a : Addr) :
    keyIndex m' t a = keyIndex m t a := by
  unfold Machine.keyIndex
  congr 1
  funext i
  cases k : mapFind m i with
  | none => rw [h.none k]
  | some e =>
    obtain ⟨x, hx⟩ := h.some k
    rw [hx]
    rfl

theorem mapFind_mapModify {α : Type} (m : List (Nat × α)) (n : Nat) (f : α → α) :
    mapFind (mapModify m n f) n = (mapFind m n).map f := by
  unfold mapModify
  cases h : mapFind m n with
  | none => simp [h]
  | some x => simp

theorem mapFind_mapModify_ne {α : Type} (m : List (Nat × α)) {n k : Nat} (h : k ≠ n) (f : α → α) :
    mapFind (mapModify m n f) k = mapFind m k := by
  unfold mapModify
  split
  · exact mapFind_mapInsert_ne m h _
  · rfl

/-- The flag of an entry after an item of its key was taken (R26). -/
def announcedAfter (op : ReachOp) (e : FwdEntry) : Bool :=
  match op with
  | .join => if e.localPort.isSome then true else e.announced
  | .leave => false

theorem announceItem_eq {it : ReachItem} {m : List (Nat × FwdEntry)} {n : Nat} {e : FwdEntry}
    (hn : keyIndex m it.tenant it.addr = some n) (he : mapFind m n = some e) :
    announceItem it m = mapInsert m n { e with announced := announcedAfter it.op e } := by
  unfold announceItem mapModify announcedAfter
  rw [hn]
  dsimp only
  rw [he]
  cases it.op with
  | join => cases h : e.localPort.isSome <;> simp [h]
  | leave => rfl

theorem announceItem_of_absent {it : ReachItem} {m : List (Nat × FwdEntry)} (h : keyIndex m it.tenant it.addr = none) :
    announceItem it m = m := by
  unfold announceItem
  rw [h]

theorem announceItem_same (it : ReachItem) (m : List (Nat × FwdEntry)) : SameButFlags m (announceItem it m) := by
  cases h : keyIndex m it.tenant it.addr with
  | none =>
    rw [announceItem_of_absent h]
    exact .refl m
  | some n =>
    obtain ⟨-, e, he, -⟩ := entry_of_keyIndex h
    rw [announceItem_eq h he]
    intro i
    by_cases k : i = n
    · subst k
      rw [mapFind_mapInsert, he]
      rfl
    · rw [mapFind_mapInsert_ne m k]

theorem announceItems_same (is : List ReachItem) (m : List (Nat × FwdEntry)) : SameButFlags m (announceItems is m) := by
  induction is generalizing m with
  | nil => exact .refl m
  | cons i is ih => exact (announceItem_same i m).trans (ih _)

/-! ## The entry of a key under the items of a notice -/

/-- The entry of a key in a table. -/
def entryOf (m : List (Nat × FwdEntry)) (t : Tenant) (a : Addr) : Option FwdEntry := (keyIndex m t a).bind (mapFind m)

theorem entryOf_announceItem_of_ne {it : ReachItem} {t : Tenant} {a : Addr} (h : (it.tenant, it.addr) ≠ (t, a))
    (m : List (Nat × FwdEntry)) : entryOf (announceItem it m) t a = entryOf m t a := by
  unfold entryOf
  rw [(announceItem_same it m).keyIndex]
  cases k : keyIndex m it.tenant it.addr with
  | none => rw [announceItem_of_absent k]
  | some n =>
    obtain ⟨-, e, he, ht, ha⟩ := entry_of_keyIndex k
    rw [announceItem_eq k he]
    cases j : keyIndex m t a with
    | none => rfl
    | some i =>
      obtain ⟨-, f, hf, ft, fa⟩ := entry_of_keyIndex j
      have ne : i ≠ n := fun same => by
        subst same
        cases he.symm.trans hf
        exact h (by rw [← ht, ← ha, ft, fa])
      exact mapFind_mapInsert_ne m ne _

theorem entryOf_announceItem {it : ReachItem} {m : List (Nat × FwdEntry)} {e : FwdEntry}
    (h : entryOf m it.tenant it.addr = some e) :
    entryOf (announceItem it m) it.tenant it.addr = some { e with announced := announcedAfter it.op e } := by
  obtain ⟨n, hn, he⟩ := Option.bind_eq_some_iff.1 h
  unfold entryOf
  rw [(announceItem_same it m).keyIndex, hn, announceItem_eq hn he]
  exact mapFind_mapInsert m n _

theorem entryOf_announceItems_of_not_mem {is : List ReachItem} {t : Tenant} {a : Addr}
    (h : (t, a) ∉ is.map fun i => (i.tenant, i.addr)) (m : List (Nat × FwdEntry)) :
    entryOf (announceItems is m) t a = entryOf m t a := by
  induction is generalizing m with
  | nil => rfl
  | cons i is ih =>
    rw [List.map_cons, List.mem_cons, not_or] at h
    rw [announceItems, ih h.2, entryOf_announceItem_of_ne (Ne.symm h.1)]

theorem entryOf_announceItems {is : List ReachItem} (nodup : (is.map fun i => (i.tenant, i.addr)).Nodup)
    {it : ReachItem} (hit : it ∈ is) {m : List (Nat × FwdEntry)} {e : FwdEntry}
    (h : entryOf m it.tenant it.addr = some e) :
    entryOf (announceItems is m) it.tenant it.addr = some { e with announced := announcedAfter it.op e } := by
  induction is generalizing m with
  | nil => cases hit
  | cons i is ih =>
    rw [List.map_cons, List.nodup_cons] at nodup
    obtain ⟨new, nodup⟩ := nodup
    rw [announceItems]
    rcases List.mem_cons.1 hit with rfl | hit
    · rw [entryOf_announceItems_of_not_mem new]
      exact entryOf_announceItem h
    · have ne : (i.tenant, i.addr) ≠ (it.tenant, it.addr) := fun e => new (List.mem_map.2 ⟨it, hit, e.symm⟩)
      exact ih nodup hit (by rw [entryOf_announceItem_of_ne ne, h])

/-! ## The queue and its notice (R24, R26, R137) -/

theorem reachFree_iff {s : State} :
    s.reachFree ↔ (s.mayNotify && s.line.wReach.isNone && !s.line.sending 5) = true := by
  unfold State.reachFree State.mayNotify GroupLine.sending
  cases s.line.onLine <;> simp [acting_iff, and_assoc]

theorem composeReach_of_free {s : State} (free : s.reachFree) (items : s.fwd.queue ≠ []) :
    composeReach s = { s with
      fwd := { s.fwd with
        queue := s.fwd.queue.drop 14, table := announceItems (s.fwd.queue.take 14) s.fwd.table }
      line := { s.line with
        wReach := some { dst := 15, body := .reach s.params.serial (s.fwd.queue.take 14) } } } := by
  unfold composeReach
  rw [reachFree_iff.1 free]
  simp [items, Config.reachItems]

theorem composeReach_of_not {s : State} (h : ¬ s.reachFree ∨ s.fwd.queue = []) : composeReach s = s := by
  unfold composeReach
  rcases h with h | h
  · rw [Bool.eq_false_iff.2 (mt reachFree_iff.2 h)]
    rfl
  · simp [h]

/-- Every REACH keeps the table but for its flags. -/
theorem composeReach_same (s : State) : SameButFlags s.fwd.table (composeReach s).fwd.table := by
  by_cases h : s.reachFree ∧ s.fwd.queue ≠ []
  · rw [composeReach_of_free h.1 h.2]
    exact announceItems_same _ _
  · rw [composeReach_of_not (by tauto)]
    exact .refl _

theorem queueReach_same (op : ReachOp) (t : Tenant) (a : Addr) (s : State) :
    SameButFlags s.fwd.table (queueReach op t a s).fwd.table := by
  have := composeReach_same (enqueueReach op t a s)
  rwa [enqueueReach_table] at this

/-- A key is among the items. -/
def keyQueued (t : Tenant) (a : Addr) (q : List ReachItem) : Bool := q.any fun i => i.tenant == t && i.addr == a

theorem reachAfter_of_queued {op : ReachOp} {t : Tenant} {a : Addr} {q : List ReachItem} (h : keyQueued t a q = true) :
    reachAfter op t a q = q.map fun i => if i.isFor t a then { i with op := op } else i := by
  refine (if_pos h).trans ?_
  refine List.map_congr_left fun i _ => ?_
  by_cases k : i.tenant = t ∧ i.addr = a
  · simp [k, ReachItem.isFor]
  · rw [if_neg k, if_neg (by simpa [ReachItem.isFor] using k)]

theorem reachAfter_of_new {op : ReachOp} {t : Tenant} {a : Addr} {q : List ReachItem} (h : ¬ keyQueued t a q = true) :
    reachAfter op t a q = if q.length < 512 then q ++ [⟨t, a, op⟩] else q := if_neg h

theorem enqueueReach_of_room {op : ReachOp} {t : Tenant} {a : Addr} {s : State}
    (h : keyQueued t a s.fwd.queue = true ∨ s.fwd.queue.length < 512) :
    enqueueReach op t a s = { s with fwd := { s.fwd with queue := reachAfter op t a s.fwd.queue } } := by
  unfold enqueueReach
  by_cases k : keyQueued t a s.fwd.queue = true
  · rw [if_pos (show (s.fwd.queue.any fun i => i.isFor t a) = true from k), reachAfter_of_queued k]
  · have room : s.fwd.queue.length < 512 := by tauto
    rw [if_neg (show ¬ (s.fwd.queue.any fun i => i.isFor t a) = true from k), if_pos (show _ < Config.reachLimit from room),
      reachAfter_of_new k, if_pos room]

theorem enqueueReach_of_full {op : ReachOp} {t : Tenant} {a : Addr} {s : State} (h : keyQueued t a s.fwd.queue = false)
    (full : 512 ≤ s.fwd.queue.length) :
    enqueueReach op t a s = if s.fwd.sweep.isNone then { s with fwd := { s.fwd with sweep := some 0, resweep := false } }
      else { s with fwd := { s.fwd with resweep := true } } := by
  unfold enqueueReach
  rw [if_neg (show ¬ (s.fwd.queue.any fun i => i.isFor t a) = true by
      rw [show (s.fwd.queue.any fun i => i.isFor t a) = false from h]
      decide), if_neg (show ¬ _ < Config.reachLimit from Nat.not_lt.2 full)]

theorem enqueueReach_queue (op : ReachOp) (t : Tenant) (a : Addr) (s : State) :
    (enqueueReach op t a s).fwd.queue = reachAfter op t a s.fwd.queue := by
  by_cases k : keyQueued t a s.fwd.queue = true
  · rw [enqueueReach_of_room (.inl k)]
  · by_cases room : s.fwd.queue.length < 512
    · rw [enqueueReach_of_room (.inr room)]
    · rw [enqueueReach_of_full (Bool.eq_false_iff.2 k) (Nat.not_lt.1 room), reachAfter_of_new k, if_neg room]
      split <;> rfl

/-- Settles O21. -/
theorem reachQueueAndItsNotice : Obligations.ReachQueueAndItsNotice := by
  unfold Obligations.ReachQueueAndItsNotice
  refine ⟨fun s op t a => ⟨enqueueReach_frame op t a s, enqueueReach_queue op t a s, enqueueReach_of_room,
    fun absent full => ⟨fun i hi => ?_, fun none => ?_⟩⟩, fun s => ⟨composeReach_of_not, fun free items => ?_⟩⟩
  · rw [enqueueReach_of_full absent full, hi]
    rfl
  · rw [enqueueReach_of_full absent full, none]
    rfl
  · have same := composeReach_same s
    rw [composeReach_of_free free items] at same ⊢
    refine ⟨?_, rfl, rfl, same, fun nodup it e hit he => ?_⟩
    · rw [← composeReach_of_free free items]
      exact composeReach_frame s
    · have nodup' : ((s.fwd.queue.take 14).map fun i => (i.tenant, i.addr)).Nodup :=
        nodup.sublist ((List.take_sublist 14 _).map _)
      refine ⟨_, entryOf_announceItems nodup' hit he, fun h => ?_, fun h => ?_⟩
      · rw [h]
        rfl
      · rw [h]
        rfl

/-! ## The sweep (R30 to R32) -/

/-- What passing place `i` does to the sweep (R31, R32). -/
def sweptAfter (i : Nat) (f : Forwarding) : Forwarding :=
  if i < 16383 then { f with sweep := some (i + 1) }
  else if f.sweepDue = true ∨ f.resweep = true then { f with sweep := some 0, sweepDue := false, resweep := false }
  else { f with sweep := none }

theorem advanceSweep_eq (i : Nat) (t : State) : advanceSweep i t = { t with fwd := sweptAfter i t.fwd } := by
  unfold advanceSweep sweptAfter
  by_cases h : i < 16383
  · rw [if_pos h, if_pos (by omega)]
  · rw [if_neg h, if_neg (by omega)]
    by_cases k : t.fwd.sweepDue = true ∨ t.fwd.resweep = true
    · rw [if_pos k, if_pos (by simpa using k)]
    · rw [if_neg k, if_neg (by simpa using k)]

/-- The sweep passes its place whatever the queue and the table hold. -/
theorem sweptAfter_table (i : Nat) (f : Forwarding) (q : List ReachItem) (m : List (Nat × FwdEntry)) :
    sweptAfter i { f with queue := q, table := m } = { sweptAfter i f with queue := q, table := m } := by
  unfold sweptAfter
  by_cases h : i < 16383
  · simp only [if_pos h]
  · by_cases k : f.sweepDue = true ∨ f.resweep = true
    · simp only [if_neg h, if_pos k]
    · simp only [if_neg h, if_neg k]

theorem sweptAfter_fwd_table (i : Nat) (f : Forwarding) : (sweptAfter i f).table = f.table := by
  unfold sweptAfter
  split
  · rfl
  · split <;> rfl

theorem sweptAfter_fwd_queue (i : Nat) (f : Forwarding) : (sweptAfter i f).queue = f.queue := by
  unfold sweptAfter
  split
  · rfl
  · split <;> rfl

theorem sweptAfter_queue (i : Nat) (f : Forwarding) (q : List ReachItem) :
    sweptAfter i { f with queue := q } = { sweptAfter i f with queue := q } :=
  (sweptAfter_table i f q f.table).trans
    (congrArg (fun m => { sweptAfter i f with queue := q, table := m }) (sweptAfter_fwd_table i f).symm)

theorem testSlot_of_good {i : Nat} {s : State} (h : ∀ e, mapFind s.fwd.table i = some e → e.checkGood = true) :
    testSlot i s = .of s := by
  unfold testSlot
  split
  · next e he => rw [if_pos (h e he)]
  · rfl

theorem visitSweep_of_paused {s : State} (h : s.fwd.sweep = none ∨ 256 ≤ s.fwd.queue.length) : visitSweep s = .of s := by
  unfold visitSweep
  split
  · next i hi =>
    have paused : 256 ≤ s.fwd.queue.length := by
      rcases h with h | h
      · cases hi.symm.trans h
      · exact h
    rw [if_neg (show ¬ _ < Config.sweepPause from Nat.not_lt.2 paused)]
  · rfl

theorem visitSweep_of_running {s : State} {i : Nat} (h : s.fwd.sweep = some i) (k : s.fwd.queue.length < 256) :
    visitSweep s = (testSlot i s).also fun s1 => advanceSweep i (announceEntry i s1) := by
  unfold visitSweep
  rw [h]
  exact if_pos k

theorem not_usable_iff {s : State} {p : Port} : s.usable p = false ↔ ¬ s.isUsable p := by
  rw [Bool.eq_false_iff]
  exact not_congr usable_iff

theorem announceEntry_of_none {i : Nat} {s : State}
    (h : ∀ e p, mapFind s.fwd.table i = some e → e.localPort = some p → ¬ s.isUsable (sPort p)) :
    announceEntry i s = s := by
  unfold announceEntry
  split
  · next e he =>
    split
    · next p hp => rw [not_usable_iff.2 (h e p he hp)]; rfl
    · rfl
  · rfl

theorem announceEntry_of_usable {i : Nat} {s : State} {e : FwdEntry} {p : Fin 24} (he : mapFind s.fwd.table i = some e)
    (hp : e.localPort = some p) (u : s.isUsable (sPort p)) : announceEntry i s = queueReach .join e.tenant e.addr s := by
  unfold announceEntry
  rw [he]
  dsimp only
  rw [hp]
  exact if_pos (usable_iff.2 u)

theorem exec_sweepVisit (s : State) : exec .sweepVisit s = done (visitSweep s) := rfl

/-- A visit that meets no faulty entry. -/
theorem sweepVisit_good {s : State} {i : Nat} (h : s.fwd.sweep = some i) (k : s.fwd.queue.length < 256)
    (good : ∀ e, mapFind s.fwd.table i = some e → e.checkGood = true) :
    exec .sweepVisit s = .next (advanceSweep i (announceEntry i s)) := by
  rw [exec_sweepVisit, visitSweep_of_running h k, testSlot_of_good good, Out.of_also, done_of]

theorem queueReach_of_not_free {op : ReachOp} {t : Tenant} {a : Addr} {s : State} (h : ¬ s.reachFree) :
    queueReach op t a s = enqueueReach op t a s := by
  refine composeReach_of_not (.inl ?_)
  have frame := enqueueReach_frame op t a s
  unfold State.reachFree at h ⊢
  rwa [frame.loader (by decide), frame.line (by decide)]

theorem reachAfter_ne_nil (op : ReachOp) (t : Tenant) (a : Addr) (q : List ReachItem) : reachAfter op t a q ≠ [] := by
  unfold reachAfter
  split
  · next h =>
    intro e
    cases List.map_eq_nil_iff.1 e
    simp at h
  · split
    · simp
    · next full =>
      intro e
      subst e
      exact full (by decide)

/-- A queued operation with room, whose REACH is composed at once. -/
theorem queueReach_of_free {op : ReachOp} {t : Tenant} {a : Addr} {s : State} (free : s.reachFree)
    (room : keyQueued t a s.fwd.queue = true ∨ s.fwd.queue.length < 512) :
    let q := reachAfter op t a s.fwd.queue
    queueReach op t a s = { s with
      fwd := { s.fwd with queue := q.drop 14, table := announceItems (q.take 14) s.fwd.table }
      line := { s.line with wReach := some { dst := 15, body := .reach s.params.serial (q.take 14) } } } := by
  intro q
  unfold queueReach
  rw [enqueueReach_of_room room]
  exact composeReach_of_free (s := { s with fwd := { s.fwd with queue := q } }) free (reachAfter_ne_nil _ _ _ _)

theorem takeRefreshEnd_of_none {s : State} (h : s.time.refreshDue = none) : takeRefreshEnd s = s := by
  unfold takeRefreshEnd
  rw [h]

theorem takeRefreshEnd_of_due {s : State} {u : Time} (h : s.time.refreshDue = some u) :
    takeRefreshEnd s = endRefresh { s with time := { s.time with
      now := s.timeAt u, refreshDue := some (u + BitVec.ofNat 48 (s.params.refreshPeriod * 1000000)) } } := by
  unfold takeRefreshEnd
  rw [h]
  dsimp only
  rw [reachTime_eq]
  rfl

/-- Settles O23. -/
theorem refreshSweepsTheTable : Obligations.RefreshSweepsTheTable := by
  unfold Obligations.RefreshSweepsTheTable
  refine ⟨fun s => ⟨fun none => congrArg Host.Outcome.next (takeRefreshEnd_of_none none), fun u due => ?_⟩,
    fun s => ⟨fun paused => ?_, fun i hi k good => ?_⟩⟩
  · have e : exec .refreshEnd s = .next (endRefresh _) := congrArg Host.Outcome.next (takeRefreshEnd_of_due due)
    refine ⟨fun none => ?_, fun i hi => ?_⟩
    · rw [e, endRefresh]
      dsimp only
      rw [none]
    · rw [e, endRefresh]
      dsimp only
      rw [hi]
  · rw [exec_sweepVisit, visitSweep_of_paused paused, done_of]
  · rw [sweepVisit_good hi k good]
    refine ⟨fun unusable => ?_, fun e p he hp usable => ⟨fun busy => ?_, fun free => ?_⟩⟩
    · rw [announceEntry_of_none unusable, advanceSweep_eq]
      rfl
    · rw [announceEntry_of_usable he hp usable, queueReach_of_not_free busy, enqueueReach_of_room (.inr (by omega)),
        advanceSweep_eq, sweptAfter_queue]
      rfl
    · refine ⟨_, rfl, (announceEntry_frame i s).trans ((advanceSweep_frame i _).mono (by decide)), ?_⟩
      rw [announceEntry_of_usable he hp usable, queueReach_of_free free (.inr (by omega)), advanceSweep_eq]
      dsimp only
      rw [sweptAfter_table]
      exact ⟨rfl, announceItems_same _ _, rfl⟩

/-! ## A faulty entry at the sweep (R36) -/

/-- The state after an entry was removed and its LEAVE queued, before the fault is counted. -/
def withoutEntry (i : Nat) (e : FwdEntry) (s : State) : State :=
  if e.localPort.isSome then queueReach .leave e.tenant e.addr (dropEntry i s) else dropEntry i s

theorem withoutEntry_frame (i : Nat) (e : FwdEntry) (s : State) : Frame [.fwd, .line] s (withoutEntry i e s) := by
  have dropped := (dropEntry_frame i s).mono (m := [.fwd, .line]) (by decide)
  unfold withoutEntry
  split
  · exact dropped.trans (queueReach_frame _ _ _ _)
  · exact dropped

theorem withoutEntry_none {i : Nat} {s : State} (wf : mapWf s.fwd.table = true) (e : FwdEntry) :
    mapFind (withoutEntry i e s).fwd.table i = none := by
  have gone : mapFind (dropEntry i s).fwd.table i = none := mapFind_mapErase wf i
  unfold withoutEntry
  split
  · exact (queueReach_same _ _ _ _).none gone
  · exact gone

theorem withoutEntry_queue_of_no_port {i : Nat} {e : FwdEntry} (h : e.localPort = none) (s : State) :
    (withoutEntry i e s).fwd.queue = s.fwd.queue := by
  unfold withoutEntry
  rw [h]
  rfl

theorem withoutEntry_queue_of_port {i : Nat} {e : FwdEntry} {s : State} (h : e.localPort.isSome = true)
    (busy : ¬ s.reachFree) : (withoutEntry i e s).fwd.queue = reachAfter .leave e.tenant e.addr s.fwd.queue := by
  have busy' : ¬ (dropEntry i s).reachFree := busy
  unfold withoutEntry
  rw [if_pos h, queueReach_of_not_free busy', enqueueReach_queue]
  rfl

theorem entryFault_of_learned {i : Nat} {e : FwdEntry} (h : e.origin = .learned) (s : State) :
    entryFault i e s = integrityFault (withoutEntry i e s) := by
  unfold entryFault
  rw [h]
  rfl

theorem entryFault_of_fixed {i n : Nat} {e : FwdEntry} (h : e.origin = .fixed n) (s : State) :
    entryFault i e s = configFault ⟨.fixed, n⟩ (withoutEntry i e s) := by
  unfold entryFault
  rw [h]
  rfl

theorem configFault_fixed {n : Nat} {f : FixedCfg} {s : State} (h : mapFind s.fixed n = some f) :
    configFault ⟨.fixed, n⟩ s =
      ⟨{ s with fixed := mapInsert s.fixed n { f with integ := s.faultInteg }, loader := s.faultLoader ⟨.fixed, n⟩ },
        [⟨.integrityFault, none⟩]⟩ := by
  unfold configFault requestRefetch integrityFault raise State.faultInteg State.faultLoader
  by_cases k : s.loader.refetch.length < 8 <;> simp [Config.refetchLimit, k, setInteg, mapModify, h]

theorem setInteg_loader (i : CfgItem) (v : Integrity) (s : State) : (setInteg i v s).loader = s.loader := by
  unfold setInteg
  split <;> rfl

theorem configFault_evs (i : CfgItem) (s : State) : (configFault i s).evs = [⟨.integrityFault, none⟩] := rfl

theorem configFault_integrityFaults (i : CfgItem) (s : State) :
    (configFault i s).st.loader.integrityFaults = satInc s.loader.integrityFaults := by
  have same : (requestRefetch i s).loader.integrityFaults = s.loader.integrityFaults := by
    unfold requestRefetch
    split <;> rw [setInteg_loader]
  exact congrArg satInc same

theorem entryFault_evs (i : Nat) (e : FwdEntry) (s : State) : (entryFault i e s).evs = [⟨.integrityFault, none⟩] := by
  cases h : e.origin with
  | learned => rw [entryFault_of_learned h]; rfl
  | fixed n => rw [entryFault_of_fixed h, configFault_evs]

/-- Nothing but the fault follows the removal in the forwarding table. -/
theorem entryFault_fwd (i : Nat) (e : FwdEntry) (s : State) : (entryFault i e s).st.fwd = (withoutEntry i e s).fwd := by
  cases h : e.origin with
  | learned => rw [entryFault_of_learned h]; rfl
  | fixed n => rw [entryFault_of_fixed h, (configFault_frame _ _).fwd (by decide)]

theorem entryFault_integrityFaults (i : Nat) (e : FwdEntry) (s : State) :
    (entryFault i e s).st.loader.integrityFaults = satInc s.loader.integrityFaults := by
  have same : (withoutEntry i e s).loader = s.loader := (withoutEntry_frame i e s).loader (by decide)
  rw [← same]
  cases h : e.origin with
  | learned => rw [entryFault_of_learned h]; rfl
  | fixed n => rw [entryFault_of_fixed h, configFault_integrityFaults]

/-- Settles O24: the place is empty once its entry is removed, so the visit announces nothing and the sweep moves on. -/
theorem faultyEntryIsRemoved : Obligations.FaultyEntryIsRemoved := by
  unfold Obligations.FaultyEntryIsRemoved
  intro s i e hi room wf he bad
  have gone : mapFind (entryFault i e s).st.fwd.table i = none := by
    rw [entryFault_fwd]
    exact withoutEntry_none wf e
  have test : testSlot i s = entryFault i e s := by
    unfold testSlot
    rw [he]
    dsimp only
    rw [bad]
    rfl
  have quiet : announceEntry i (entryFault i e s).st = (entryFault i e s).st :=
    announceEntry_of_none fun f p hf => by cases gone.symm.trans hf
  have moved : exec .sweepVisit s = done ⟨advanceSweep i (entryFault i e s).st, [⟨.integrityFault, none⟩]⟩ := by
    have visit : visitSweep s = ⟨advanceSweep i (announceEntry i (testSlot i s).st), (testSlot i s).evs⟩ :=
      visitSweep_of_running hi room
    rw [exec_sweepVisit, visit, test, quiet, entryFault_evs]
  refine ⟨advanceSweep i (entryFault i e s).st, moved, ?_, ?_, fun noPort => ?_, fun port busy => ?_, fun learned => ?_,
    fun n f fixed hf => ?_⟩
  all_goals rw [advanceSweep_eq]
  · rwa [sweptAfter_fwd_table]
  · exact entryFault_integrityFaults i e s
  · rw [sweptAfter_fwd_queue, entryFault_fwd, withoutEntry_queue_of_no_port noPort]
  · rw [sweptAfter_fwd_queue, entryFault_fwd, withoutEntry_queue_of_port port busy]
  · rw [← advanceSweep_eq, entryFault_of_learned learned]
    have frame := ((withoutEntry_frame i e s).mono (m := [.fwd, .line, .loader]) (by decide)).trans
      ((integrityFault_frame _).mono (by decide))
    refine ⟨frame.trans ((advanceSweep_frame i _).mono (by decide)), ?_⟩
    rw [advanceSweep_eq]
    show (withoutEntry i e s).loader.refetch = s.loader.refetch
    rw [(withoutEntry_frame i e s).loader (by decide)]
  · rw [← advanceSweep_eq]
    have same := withoutEntry_frame i e s
    have found : mapFind (withoutEntry i e s).fixed n = some f := by rwa [same.fixed (by decide)]
    have loader : (withoutEntry i e s).loader = s.loader := same.loader (by decide)
    rw [entryFault_of_fixed fixed, configFault_fixed found]
    refine ⟨?_, fun short => ?_, fun full => ?_⟩
    · have fault : Frame [.fixed, .loader] (withoutEntry i e s) (configFault ⟨.fixed, n⟩ (withoutEntry i e s)).st := by
        rw [configFault_fixed found]
        intro b hb
        cases b <;> first | rfl | simp at hb
      rw [configFault_fixed found] at fault
      exact ((same.mono (by decide)).trans (fault.mono (by decide))).trans ((advanceSweep_frame i _).mono (by decide))
    · rw [advanceSweep_eq]
      simp [State.faultLoader, State.faultInteg, loader, short]
    · rw [advanceSweep_eq]
      simp [State.faultLoader, State.faultInteg, loader, Nat.not_lt.2 full]

end Sys2Proof.Machine
end

section
/-! The path selector (O9 to O12): what a lookup finds, the uplink path, holders, floods and tags. A lookup that removes faulty
entries changes nothing that the decision reads (`SameView`). -/

namespace Sys2Proof.Machine

/-! ## What a decision reads -/

/-- Ports, peers, load, CONFLICT and the station's number are the same. -/
structure SameView (s t : State) : Prop where
  ports : t.ports = s.ports
  peers : t.peers = s.peers
  load : t.load = s.load
  conflict : t.line.conflict = s.line.conflict
  station : t.loader.station = s.loader.station

theorem SameView.refl (s : State) : SameView s s := ⟨rfl, rfl, rfl, rfl, rfl⟩

theorem SameView.trans {s t u : State} (h : SameView s t) (k : SameView t u) : SameView s u :=
  ⟨k.ports.trans h.ports, k.peers.trans h.peers, k.load.trans h.load, k.conflict.trans h.conflict,
    k.station.trans h.station⟩

theorem composeReach_conflict (s : State) : (composeReach s).line.conflict = s.line.conflict := by
  unfold composeReach
  split <;> rfl

theorem queueReach_conflict (op : ReachOp) (t : Tenant) (a : Addr) (s : State) :
    (queueReach op t a s).line.conflict = s.line.conflict := by
  rw [queueReach, composeReach_conflict, (enqueueReach_frame op t a s).line (by decide)]

theorem withoutEntry_conflict (i : Nat) (e : FwdEntry) (s : State) :
    (withoutEntry i e s).line.conflict = s.line.conflict := by
  unfold withoutEntry
  split
  · exact queueReach_conflict _ _ _ _
  · rfl

theorem entryFault_view (i : Nat) (e : FwdEntry) (s : State) : SameView s (entryFault i e s).st := by
  have frame := entryFault_frame i e s
  refine ⟨frame.ports (by decide), frame.peers (by decide), frame.load (by decide), ?_,
    (entryFault_refetchOnly i e s).station⟩
  rw [← withoutEntry_conflict i e s]
  cases h : e.origin with
  | learned => rw [entryFault_of_learned h]; rfl
  | fixed n => rw [entryFault_of_fixed h, (configFault_frame _ _).line (by decide)]

theorem testSlot_view (i : Nat) (s : State) : SameView s (testSlot i s).st := by
  unfold testSlot
  split
  · split
    · exact .refl s
    · exact entryFault_view i _ s
  · exact .refl s

theorem testBucket_view (b : Nat) (s : State) : SameView s (testBucket b s).st := by
  have each (is : List Nat) (t : State) : SameView t (eachOut testSlot is t).st := by
    induction is generalizing t with
    | nil => exact .refl t
    | cons i is ih => exact (testSlot_view i t).trans (ih _)
  exact each _ s

theorem lookup_view (t : Tenant) (a : Addr) (s : State) : SameView s (lookup t a s).2.st := by
  unfold lookup
  dsimp only
  split
  · exact testBucket_view _ s
  · split <;> exact .refl s

section

variable {s t : State} (h : SameView s t)
include h

theorem SameView.port (p : Port) : t.port p = s.port p := by
  rw [State.port, h.ports, State.port]

theorem SameView.usable (p : Port) : t.usable p = s.usable p := by
  rw [State.usable, h.port, State.usable]

theorem SameView.directX : t.directX = s.directX := by
  funext st
  simp only [State.directX, State.xTo, h.port, h.conflict]

theorem SameView.slot : t.slot = s.slot := by
  funext n
  rw [State.slot, h.peers, State.slot]

theorem SameView.peer : t.peer = s.peer := by
  funext st
  simp only [State.peer, State.slotOf, h.slot]

theorem SameView.activePeer : t.activePeer = s.activePeer := by
  funext st
  simp only [State.activePeer, h.peer]

theorem SameView.overX (st : Station) (g : GroupTag) : t.overX st g = s.overX st g := by
  simp only [State.overX, h.directX]

theorem SameView.uIn : t.uIn = s.uIn := by
  funext l
  simp only [State.uIn, h.port]

theorem SameView.uplinkPort (b : Nat) : t.uplinkPort b = s.uplinkPort b := by
  unfold State.uplinkPort State.uplinks
  rw [h.uIn]

theorem SameView.overU (b : Nat) : t.overU b = s.overU b := by
  rw [State.overU, h.uplinkPort, State.overU]

theorem SameView.uplinkPath (d : Descriptor) : t.uplinkPath d = s.uplinkPath d := by
  simp only [State.uplinkPath, h.load, h.overX, h.overU, State.divertedTag, State.plainTag, h.station]

theorem SameView.floodU (d : Descriptor) : t.floodU d = s.floodU d := by
  simp only [State.floodU, State.chooseS, State.bondOf, State.members, State.peerCopies, State.floodTag, State.plainTag,
    h.port, h.usable, h.activePeer, h.directX, h.station]

theorem SameView.decideLocal (r : Option FwdEntry) : t.decideLocal r = s.decideLocal r := by
  simp only [State.decideLocal, h.usable]

end

/-! ## Lookups (R18, R23) -/

theorem awaitsRefetch_iff {s : State} {t : Tenant} {a : Addr} : s.awaitsRefetch t a = true ↔ s.refetching t a := by
  unfold State.awaitsRefetch State.refetching
  simp [and_assoc]

theorem lookup_of_faulty {s : State} {t : Tenant} {a : Addr} (h : bucketFaulty (bucketOf t a) s = true) :
    lookup t a s = (none, testBucket (bucketOf t a) s) := if_pos h

theorem lookup_of_refetching {s : State} {t : Tenant} {a : Addr} (h : bucketFaulty (bucketOf t a) s = false)
    (k : s.refetching t a) : lookup t a s = (none, .of s) := by
  unfold lookup
  simp only [h, awaitsRefetch_iff.2 k]
  rfl

theorem lookup_of_entryAt {s : State} {t : Tenant} {a : Addr} (h : bucketFaulty (bucketOf t a) s = false)
    (k : ¬ s.refetching t a) : lookup t a s = (s.entryAt t a, .of s) := by
  have waits : s.awaitsRefetch t a = false := Bool.eq_false_iff.2 (mt awaitsRefetch_iff.1 k)
  unfold lookup
  simp only [h, waits]
  rfl

/-- A good bucket is looked up without effect. -/
theorem lookup_out_of_good {s : State} {t : Tenant} {a : Addr} (h : bucketFaulty (bucketOf t a) s = false) :
    (lookup t a s).2 = .of s := by
  by_cases k : s.refetching t a
  · rw [lookup_of_refetching h k]
  · rw [lookup_of_entryAt h k]

/-- A lookup that finds nothing: a faulty entry in the bucket, a FIXED entry under refetch, or no entry. -/
def State.misses (s : State) (t : Tenant) (a : Addr) : Prop :=
  bucketFaulty (bucketOf t a) s = true ∨ s.refetching t a ∨ s.entryAt t a = none

theorem lookup_of_misses {s : State} {t : Tenant} {a : Addr} (h : s.misses t a) : (lookup t a s).1 = none := by
  by_cases faulty : bucketFaulty (bucketOf t a) s = true
  · rw [lookup_of_faulty faulty]
  · have good := Bool.eq_false_iff.2 faulty
    by_cases k : s.refetching t a
    · rw [lookup_of_refetching good k]
    · rw [lookup_of_entryAt good k]
      rcases h with h | h | h
      · exact absurd h faulty
      · exact absurd h k
      · exact h

/-! ## The decision by its branches (Table 3-1) -/

@[simp] theorem asS_sPort (p : Fin 24) : asS (sPort p) = some p := by simp [asS, sPort]

theorem asS_eq_none {p : Port} (h : 24 ≤ p.val) : asS p = none := by
  simp [asS, Nat.not_lt.2 h]

theorem asS_eq_some {p : Port} {q : Fin 24} (h : asS p = some q) : p = sPort q := by
  unfold asS at h
  split at h
  · cases h
    rfl
  · cases h

theorem ge_of_asS_none {p : Port} (h : asS p = none) : 24 ≤ p.val := by
  unfold asS at h
  split at h
  · cases h
  · omega

section

variable {s : State} {d : Descriptor} (tag : d.tag = none)
include tag

theorem decideFrame_edge : decideFrame d s = decideEdge d s := by
  unfold decideFrame
  rw [tag]

theorem decideFrame_hit {e : FwdEntry} (group : groupAddr d.dst = false)
    (good : bucketFaulty (bucketOf d.tenant d.dst) s = false) (here : ¬ s.refetching d.tenant d.dst)
    (he : s.entryAt d.tenant d.dst = some e) : decideFrame d s = (s.decideHit d e, .of s) := by
  have found : lookup d.tenant d.dst s = (some e, .of s) := by rw [lookup_of_entryAt good here, he]
  rw [decideFrame_edge tag, decideEdge]
  split <;> simp [group, decideBy, found]

theorem decideFrame_uplink {p : Fin 24} (ingress : d.ingress = sPort p) (group : groupAddr d.dst = false)
    (miss : s.misses d.tenant d.dst) : decideFrame d s = (s.uplinkPath d, (lookup d.tenant d.dst s).2) := by
  rw [decideFrame_edge tag, decideEdge, ingress, asS_sPort]
  simp only [group, decideBy, lookup_of_misses miss, (lookup_view d.tenant d.dst s).uplinkPath]
  rfl

theorem decideFrame_floodS {p : Fin 24} (ingress : d.ingress = sPort p) (group : groupAddr d.dst = true) :
    decideFrame d s = (floodDecision (s.floodS d p), .of s) := by
  rw [decideFrame_edge tag, decideEdge, ingress, asS_sPort]
  simp only [group]
  rfl

theorem decideFrame_floodU (ingress : 24 ≤ d.ingress.val) (group : groupAddr d.dst = true) :
    decideFrame d s = (floodDecision (s.floodU d), .of s) := by
  rw [decideFrame_edge tag, decideEdge, asS_eq_none ingress]
  simp only [group]
  rfl

theorem decideFrame_missU (ingress : 24 ≤ d.ingress.val) (group : groupAddr d.dst = false)
    (miss : s.misses d.tenant d.dst) :
    decideFrame d s = (floodDecision (s.floodU d), (lookup d.tenant d.dst s).2) := by
  rw [decideFrame_edge tag, decideEdge, asS_eq_none ingress]
  simp only [group, decideBy, lookup_of_misses miss, (lookup_view d.tenant d.dst s).floodU]
  rfl

end

section

variable {s : State} {d : Descriptor} {g : GroupTag} (tag : d.tag = some g)
include tag

theorem decideFrame_cross : decideFrame d s = decideCross d g s := by
  unfold decideFrame
  rw [tag]

theorem decideFrame_diverted (h : g.diverted = true) : decideFrame d s = (s.overU d.bucket, .of s) := by
  rw [decideFrame_cross tag, decideCross, if_pos h]

theorem decideFrame_flooded (h : g.diverted = false) (k : g.flood = true) :
    decideFrame d s = (.copies (s.floodX d g.origin), .of s) := by
  rw [decideFrame_cross tag, decideCross, if_neg (by simp [h]), if_pos k]

theorem decideFrame_onward (h : g.diverted = false) (k : g.flood = false) (relay : g.relay = true)
    (target : g.target ≠ s.loader.station) : decideFrame d s = (s.onward d g, .of s) := by
  rw [decideFrame_cross tag, decideCross, if_neg (by simp [h]), if_neg (by simp [k]), if_pos (by simp [relay, target])]

/-- A plain frame, or one relayed to this station: the local port of what the lookup found (R50). -/
theorem decideFrame_plain (h : g.diverted = false) (k : g.flood = false)
    (relay : g.relay = false ∨ g.target = s.loader.station) :
    decideFrame d s = (s.decideLocal (if groupAddr d.dst then none else (lookup d.tenant d.dst s).1),
      (lookup d.tenant d.dst s).2) := by
  have here : (g.relay && g.target != s.loader.station) = false := by
    rcases relay with r | r <;> simp [r]
  rw [decideFrame_cross tag, decideCross, if_neg (by simp [h]), if_neg (by simp [k]), if_neg (by simp [here])]
  simp only [decidePlain, decideBy, (lookup_view d.tenant d.dst s).decideLocal]

end

/-! ## One copy on a way (R46) -/

theorem overX_of_some {s : State} {st : Station} {x : XIndex} (h : s.directX st = some x) (g : GroupTag) :
    s.overX st g = .copies [⟨xPort x, some g⟩] := by
  unfold State.overX
  rw [h]

theorem overX_of_none {s : State} {st : Station} (h : s.directX st = none) (g : GroupTag) : s.overX st g = .drop .noPath := by
  unfold State.overX
  rw [h]

theorem carriers_eq (s : State) : s.carriers = s.uplinks := by
  unfold State.carriers State.uplinks State.uIn
  by_cases h : (allU.filter fun v => (s.port (uPort v)).link == .up) = []
  · simp only [h, if_true, ne_eq, not_true, if_false]
  · simp only [h, if_false, ne_eq, not_false_eq_true, if_true]

theorem uplinkPort_of_some {s : State} {b : Nat} {u : Fin 4} (h : s.carriers[b % s.carriers.length]? = some u) :
    s.uplinkPort b = some (uPort u) := by
  rw [carriers_eq] at h
  simp [State.uplinkPort, pick, h]

theorem overU_of_some {s : State} {b : Nat} {u : Fin 4} (h : s.carriers[b % s.carriers.length]? = some u) :
    s.overU b = .copies [⟨uPort u, none⟩] := by
  simp [State.overU, uplinkPort_of_some h]

theorem overU_of_nil {s : State} {b : Nat} (h : s.carriers = []) : s.overU b = .drop .noPath := by
  rw [carriers_eq] at h
  simp [State.overU, State.uplinkPort, pick, h]

/-- Settles O10: a bucket below the share goes over the diversion peer, any other over its U-port. -/
theorem missTakesTheUplinkPath : Obligations.MissTakesTheUplinkPath := by
  unfold Obligations.MissTakesTheUplinkPath
  intro s d p tag ingress group miss up degraded us
  have e : us = s.carriers := rfl
  rw [decideFrame_uplink tag ingress group miss, e]
  refine ⟨fun below => ?_, fun above => ?_⟩
  · have toPeer {st : Station} (hst : s.load.divPeer = some st) : s.uplinkPath d = s.overX st (s.divertedTag d) := by
      simp only [State.uplinkPath, if_pos below, hst]
    dsimp only
    refine ⟨fun st x hst hx => (toPeer hst).trans (overX_of_some hx _), fun noWay => ?_⟩
    cases h : s.load.divPeer with
    | none => simp only [State.uplinkPath, if_pos below, h]
    | some st =>
      rw [h] at noWay
      exact (toPeer h).trans (overX_of_none noWay _)
  · have path : s.uplinkPath d = s.overU d.bucket := if_neg (Nat.not_lt.2 above)
    exact ⟨fun u hu => path.trans (overU_of_some hu), fun none => path.trans (overU_of_nil none)⟩

/-! ## Holders (R43, R44) -/

theorem mem_allStations {st : Station} : st ∈ allStations ↔ st ≠ 15#4 := by
  revert st
  decide

theorem allStations_sorted : allStations.Pairwise fun a b => a.toNat < b.toNat := by decide

theorem holderUsable_iff {s : State} {h : Holder} : s.holderUsable h = true ↔ s.canUse h := by
  unfold State.holderUsable State.canUse
  cases s.peer h.station <;> simp [Option.isSome_iff_ne_none]

/-- The usable holders in station order are those that R43 names. -/
theorem mem_usableHolders {s : State} {e : FwdEntry} (nodup : (e.holders.map Holder.station).Nodup)
    (known : ∀ h ∈ e.holders, h.station ≠ 15#4) {h : Holder} :
    h ∈ s.usableHolders e ↔ h ∈ e.holders ∧ s.canUse h := by
  unfold State.usableHolders
  rw [List.mem_filterMap]
  constructor
  · rintro ⟨st, -, found⟩
    have ok := List.find?_some found
    rw [Bool.and_eq_true] at ok
    exact ⟨List.mem_of_find?_eq_some found, holderUsable_iff.1 ok.2⟩
  · rintro ⟨mem, use⟩
    refine ⟨h.station, mem_allStations.2 (known h mem), ?_⟩
    have sat : (h.station == h.station && s.holderUsable h) = true := by simp [holderUsable_iff.2 use]
    obtain ⟨k, hk⟩ := Option.isSome_iff_exists.1
      (List.find?_isSome (p := fun x => x.station == h.station && s.holderUsable x) |>.2 ⟨h, mem, sat⟩)
    have station := List.find?_some hk
    simp only [Bool.and_eq_true, beq_iff_eq] at station
    have same := (List.nodup_map_iff_inj_on (nodup.of_map _)).1 nodup k (List.mem_of_find?_eq_some hk) h mem station.1
    rw [hk, same]

theorem usableHolders_nil {s : State} {e : FwdEntry} (h : ∀ x ∈ e.holders, ¬ s.canUse x) : s.usableHolders e = [] := by
  refine List.eq_nil_iff_forall_not_mem.2 fun x hx => ?_
  obtain ⟨st, -, found⟩ := List.mem_filterMap.1 hx
  have ok := List.find?_some found
  rw [Bool.and_eq_true] at ok
  exact h x (List.mem_of_find?_eq_some found) (holderUsable_iff.1 ok.2)

theorem usableHolders_sorted (s : State) (e : FwdEntry) :
    (s.usableHolders e).Pairwise fun a b => a.station.toNat < b.station.toNat := by
  refine List.pairwise_filterMap.2 (allStations_sorted.imp fun {a b} lt x hx y hy => ?_)
  have station {st : Station} {z : Holder}
      (h : e.holders.find? (fun h => h.station == st && s.holderUsable h) = some z) : z.station = st := by
    have ok := List.find?_some h
    simp only [Bool.and_eq_true, beq_iff_eq] at ok
    exact ok.1
  rw [station hx, station hy]
  exact lt

/-- Two ascending lists with the same members are one list. -/
theorem eq_of_sorted_of_mem {α : Type} {f : α → Nat} {l m : List α} (hl : l.Pairwise fun a b => f a < f b)
    (hm : m.Pairwise fun a b => f a < f b) (h : ∀ a, a ∈ l ↔ a ∈ m) : l = m := by
  refine List.Perm.eq_of_pairwise (le := fun a b => f a < f b) (fun a b _ _ hab hba => absurd hab (by omega)) hl hm ?_
  have nodup {k : List α} (hk : k.Pairwise fun a b => f a < f b) : k.Nodup := hk.imp fun lt e => by
    rw [e] at lt
    exact lt_irrefl _ lt
  exact (List.perm_ext_iff_of_nodup (nodup hl) (nodup hm)).2 h

theorem decideHit_of_holder {s : State} {d : Descriptor} {e : FwdEntry} {h : Holder}
    (ne : e.localPort.map sPort ≠ some d.ingress) (noLocal : e.localPort.filter (fun p => s.usable (sPort p)) = none)
    (chosen : pick (s.usableHolders e) d.bucket = some h) : s.decideHit d e = s.towardHolder d h := by
  simp only [State.decideHit, if_neg ne, noLocal, chosen]

theorem decideHit_of_no_holder {s : State} {d : Descriptor} {e : FwdEntry}
    (ne : e.localPort.map sPort ≠ some d.ingress) (noLocal : e.localPort.filter (fun p => s.usable (sPort p)) = none)
    (chosen : pick (s.usableHolders e) d.bucket = none) : s.decideHit d e = .drop .noPath := by
  simp only [State.decideHit, if_neg ne, noLocal, chosen]

/-- Settles O9: Table 3-2 in its order. -/
theorem hitIsDecidedByTheEntry : Obligations.HitIsDecidedByTheEntry := by
  unfold Obligations.HitIsDecidedByTheEntry
  refine ⟨fun s t a => ⟨lookup_of_faulty, lookup_of_refetching, lookup_of_entryAt⟩, ?_⟩
  intro s d e tag group good here he
  rw [decideFrame_hit tag group good here he]
  refine ⟨rfl, rfl, fun same => if_pos same, fun q hq ne usable => ?_, fun ne unusable => ?_⟩
  · have other : ¬ (e.localPort.map sPort) = some d.ingress := by
      rw [hq]
      exact fun k => ne (Option.some.inj k)
    have local? : e.localPort.filter (fun p => s.usable (sPort p)) = some q := by
      rw [hq, Option.filter_some, if_pos (usable_iff.2 usable)]
    dsimp only
    rw [State.decideHit, if_neg other, local?]
  · have noLocal : e.localPort.filter (fun p => s.usable (sPort p)) = none := by
      rw [Option.filter_eq_none_iff]
      exact fun q hq k => unusable q hq (usable_iff.1 k)
    refine ⟨fun noHolder => decideHit_of_no_holder ne noLocal (by rw [usableHolders_nil noHolder]; rfl),
      fun nodup known hs h x sorted members picked peer => ?_⟩
    have same : hs = s.usableHolders e :=
      eq_of_sorted_of_mem (f := fun h => h.station.toNat) sorted (usableHolders_sorted s e) fun a => by
        rw [members a, mem_usableHolders nodup known]
    have chosen : pick (s.usableHolders e) d.bucket = some h := by
      rw [← same]
      exact picked
    dsimp only
    rw [decideHit_of_holder ne noLocal chosen]
    refine ⟨fun active y hy => ?_, fun severed q y relay hy => ?_⟩
    · simp only [State.towardHolder, peer, active, if_true]
      exact overX_of_some hy _
    · simp only [State.towardHolder, peer, severed, relay]
      exact overX_of_some hy _

end Sys2Proof.Machine
end

section
/-! Floods and the tags of copies (O11, O12). -/

namespace Sys2Proof.Machine

/-! ## The choice of S-ports (R54) -/

theorem mem_allS (q : Fin 24) : q ∈ allS := List.mem_finRange q

theorem filter_allS_sorted (f : Fin 24 → Bool) : (allS.filter f).Pairwise (· < ·) :=
  (List.pairwise_lt_finRange 24).filter f

/-- One of each bond: the candidate at the bucket's place. -/
theorem mem_chooseS {s : State} {b : Nat} {cand : Fin 24 → Bool} {q : Fin 24} :
    q ∈ s.chooseS b (allS.filter cand) ↔ s.chosen b cand q := by
  have ofBond (n : Nat) : (allS.filter cand).filter (fun v => s.bondOf v == some n) =
      (List.finRange 24).filter fun v => cand v && (s.port (sPort v)).bond == some n := by
    rw [List.filter_filter]
    exact List.filter_congr fun v _ => Bool.and_comm _ _
  unfold State.chooseS State.chosen
  rw [List.mem_filter, List.mem_filter]
  simp only [mem_allS, true_and]
  refine and_congr_right fun _ => ?_
  rw [State.bondOf]
  cases h : (s.port (sPort q)).bond with
  | none => simp
  | some n =>
    simp only [ofBond, pick, beq_iff_eq]
    constructor
    · intro k m hm
      cases hm
      exact k
    · exact fun k => k n rfl

theorem chooseS_sorted {s : State} {b : Nat} {cand : Fin 24 → Bool} :
    (s.chooseS b (allS.filter cand)).Pairwise (· < ·) := (filter_allS_sorted cand).filter _

theorem mem_sCopies {ps : List (Fin 24)} {c : CopyPlan} : c ∈ sCopies ps ↔ ∃ q, c = ⟨sPort q, none⟩ ∧ q ∈ ps := by
  unfold sCopies
  rw [List.mem_map]
  constructor
  · rintro ⟨q, hq, rfl⟩
    exact ⟨q, rfl, hq⟩
  · rintro ⟨q, rfl, hq⟩
    exact ⟨q, hq, rfl⟩

theorem sCopies_sorted {ps : List (Fin 24)} (h : ps.Pairwise (· < ·)) :
    (sCopies ps).Pairwise fun a b => a.port < b.port :=
  List.pairwise_map.2 (h.imp fun lt => lt)

/-- The S-port copies of a choice, told by R54. -/
theorem sCopies_chooseS (s : State) (b : Nat) (cand : Fin 24 → Bool) :
    (∀ c, c ∈ sCopies (s.chooseS b (allS.filter cand)) ↔ ∃ q, c = ⟨sPort q, none⟩ ∧ s.chosen b cand q)
      ∧ (sCopies (s.chooseS b (allS.filter cand))).Pairwise fun a b => a.port < b.port :=
  ⟨fun _ => mem_sCopies.trans (exists_congr fun _ => and_congr_right fun _ => mem_chooseS), sCopies_sorted chooseS_sorted⟩

theorem members_away_eq (s : State) (d : Descriptor) (p : Fin 24) :
    s.awayFrom p (s.members d) = allS.filter fun q => d.members.getLsbD q.val && s.usable (sPort q) && q != p
      && !((s.port (sPort p)).bond.isSome && (s.port (sPort q)).bond == (s.port (sPort p)).bond) := by
  unfold State.awayFrom State.members
  rw [List.filter_filter]
  refine List.filter_congr fun q _ => ?_
  rw [State.bondOf, State.bondOf, Bool.and_comm, Bool.and_assoc (_ && _) (q != p) _]

/-! ## The peers of a flood (R51) -/

/-- The ACTIVE peers with a direct X-port, in station order. -/
def State.peerWays (s : State) : List (Station × XIndex) :=
  allStations.filterMap fun st => (s.activePeer st).bind fun _ => (s.directX st).map fun x => (st, x)

theorem peerCopies_eq (s : State) (d : Descriptor) : s.peerCopies d = s.floodedTo d s.peerWays := by
  unfold State.peerCopies State.floodedTo State.peerWays
  rw [List.map_filterMap]
  refine List.filterMap_congr fun st _ => ?_
  cases s.activePeer st with
  | none => rfl
  | some y => cases s.directX st <;> rfl

theorem mem_peerWays {s : State} {st : Station} {x : XIndex} :
    (st, x) ∈ s.peerWays ↔ st ≠ 15#4 ∧ (s.activePeer st).isSome = true ∧ s.directX st = some x := by
  unfold State.peerWays
  rw [List.mem_filterMap]
  constructor
  · rintro ⟨st', mem, found⟩
    obtain ⟨y, hy, way⟩ := Option.bind_eq_some_iff.1 found
    obtain ⟨z, hz, pair⟩ := Option.map_eq_some_iff.1 way
    cases pair
    exact ⟨mem_allStations.1 mem, by rw [hy]; rfl, hz⟩
  · rintro ⟨known, active, direct⟩
    obtain ⟨y, hy⟩ := Option.isSome_iff_exists.1 active
    exact ⟨st, mem_allStations.2 known, by simp [hy, direct]⟩

theorem peerWays_floodPeers (s : State) : s.floodPeers s.peerWays := by
  refine ⟨fun st x => mem_peerWays, List.pairwise_filterMap.2 (allStations_sorted.imp fun {a b} lt x hx y hy => ?_)⟩
  have station {st : Station} {z : Station × XIndex}
      (h : ((s.activePeer st).bind fun _ => (s.directX st).map fun x => (st, x)) = some z) : z.1 = st := by
    obtain ⟨_, -, way⟩ := Option.bind_eq_some_iff.1 h
    obtain ⟨_, -, pair⟩ := Option.map_eq_some_iff.1 way
    rw [← pair]
  rw [station hx, station hy]
  exact lt

/-! ## The bond rule (R55) -/

theorem bondStays_iff {s : State} {origin : Station} {q : Fin 24} :
    s.bondStays origin q = true ↔ ∀ b, (s.port (sPort q)).bond = some b →
      (∀ x, s.peer origin = some x → x.state ≠ .lost → x.bondUp.getLsbD b = false)
        ∧ ∀ st x, st ≠ 15#4 → st.toNat < s.loader.station.toNat → s.activePeer st = some x → x.bondUp.getLsbD b = false := by
  have origin_iff (b : Nat) : (s.originBonds origin).getLsbD b = false ↔
      ∀ x, s.peer origin = some x → x.state ≠ .lost → x.bondUp.getLsbD b = false := by
    unfold State.originBonds
    cases s.peer origin with
    | none => simp
    | some x => by_cases h : x.state = .lost <;> simp [SlotState.live, h]
  have lower_iff (b : Nat) : s.lowerAnnounces b = false ↔
      ∀ st x, st ≠ 15#4 → st.toNat < s.loader.station.toNat → s.activePeer st = some x → x.bondUp.getLsbD b = false := by
    unfold State.lowerAnnounces
    rw [List.any_eq_false]
    constructor
    · intro h st x known lt hx
      have := h st (mem_allStations.2 known)
      simpa [lt, hx] using this
    · intro h st mem
      cases hx : s.activePeer st with
      | none => simp
      | some x =>
        by_cases lt : st.toNat < s.loader.station.toNat
        · simpa [lt] using h st x (mem_allStations.1 mem) lt hx
        · simp [lt]
  unfold State.bondStays State.bondOf
  cases h : (s.port (sPort q)).bond with
  | none => simp
  | some b =>
    rw [Bool.and_eq_true, Bool.not_eq_true', Bool.not_eq_true', origin_iff, lower_iff]
    constructor
    · intro k b' hb
      cases hb
      exact k
    · exact fun k => k b rfl

/-- The bond rule takes or leaves a whole bond, so it does not move the choice within one. -/
theorem chosen_bondStays {s : State} {b : Nat} {cand : Fin 24 → Bool} {origin : Station} {q : Fin 24} :
    s.chosen b (fun v => cand v && s.bondStays origin v) q ↔ s.chosen b cand q ∧ s.bondStays origin q = true := by
  have bond_same {v w : Fin 24} (h : (s.port (sPort v)).bond = (s.port (sPort w)).bond) :
      s.bondStays origin v = s.bondStays origin w := by
    unfold State.bondStays State.bondOf
    rw [h]
  have candidates (stays : s.bondStays origin q = true) {n : Nat} (hn : (s.port (sPort q)).bond = some n) :
      ((List.finRange 24).filter fun v => (cand v && s.bondStays origin v) && (s.port (sPort v)).bond == some n) =
        (List.finRange 24).filter fun v => cand v && (s.port (sPort v)).bond == some n := by
    refine List.filter_congr fun v _ => ?_
    by_cases k : (s.port (sPort v)).bond = some n
    · rw [bond_same (k.trans hn.symm), stays, Bool.and_true]
    · have other : ((s.port (sPort v)).bond == some n) = false := beq_eq_false_iff_ne.2 k
      rw [other, Bool.and_false, Bool.and_false]
  unfold State.chosen
  rw [Bool.and_eq_true]
  constructor
  · rintro ⟨⟨c, stays⟩, place⟩
    refine ⟨⟨c, fun n hn => ?_⟩, stays⟩
    have := place n hn
    rwa [candidates stays hn] at this
  · rintro ⟨⟨c, place⟩, stays⟩
    refine ⟨⟨c, stays⟩, fun n hn => ?_⟩
    have := place n hn
    rwa [← candidates stays hn] at this

theorem members_stays_eq (s : State) (d : Descriptor) (origin : Station) :
    (s.members d).filter (s.bondStays origin) =
      allS.filter fun q => (d.members.getLsbD q.val && s.usable (sPort q)) && s.bondStays origin q := by
  unfold State.members
  rw [List.filter_filter]
  exact List.filter_congr fun q _ => Bool.and_comm _ _

/-- Settles O12. -/
theorem floodsFollowTheirRules : Obligations.FloodsFollowTheirRules := by
  unfold Obligations.FloodsFollowTheirRules
  refine ⟨fun s d p tag ingress group => ?_, fun s d tag low high reason => ?_, fun s d g tag straight flood => ?_⟩
  · obtain ⟨members, sorted⟩ := sCopies_chooseS s d.bucket fun q => d.members.getLsbD q.val && s.usable (sPort q) && q != p
      && !((s.port (sPort p)).bond.isSome && (s.port (sPort q)).bond == (s.port (sPort p)).bond)
    refine ⟨_, s.peerWays, _, ?_, members, sorted, peerWays_floodPeers s, rfl⟩
    rw [decideFrame_floodS tag ingress group, State.floodS, members_away_eq, peerCopies_eq]
    rfl
  · obtain ⟨members, sorted⟩ := sCopies_chooseS s d.bucket fun v => d.members.getLsbD v.val && s.usable (sPort v)
    have flood : (decideFrame d s).1 = floodDecision (s.floodU d) := by
      by_cases group : groupAddr d.dst = true
      · rw [decideFrame_floodU tag low group]
      · rw [decideFrame_missU tag low (Bool.eq_false_iff.2 group) (reason.resolve_left group)]
    refine ⟨_, s.peerWays, ?_, fun good => ?_, members, sorted, peerWays_floodPeers s⟩
    · rw [flood, State.floodU, peerCopies_eq]
      rfl
    · by_cases group : groupAddr d.dst = true
      · rw [decideFrame_floodU tag low group]
        rfl
      · rw [decideFrame_missU tag low (Bool.eq_false_iff.2 group) (reason.resolve_left group)]
        exact lookup_out_of_good (good.resolve_left group)
  · obtain ⟨members, sorted⟩ := sCopies_chooseS s d.bucket fun v =>
      (d.members.getLsbD v.val && s.usable (sPort v)) && s.bondStays g.origin v
    refine ⟨s.floodX d g.origin, by rw [decideFrame_flooded tag straight flood], ?_, fun c => ?_⟩
    · rw [State.floodX, members_stays_eq]
      exact sorted
    · rw [State.floodX, members_stays_eq, members c]
      refine exists_congr fun q => and_congr_right fun _ => ?_
      rw [chosen_bondStays, bondStays_iff]

/-! ## The copies of a decision (R56, R57) -/

/-- Every copy of a decision has a property. -/
def Decision.All (P : CopyPlan → Prop) (x : Decision) : Prop := ∀ cs, x = .copies cs → ∀ c ∈ cs, P c

theorem Decision.all_drop {P : CopyPlan → Prop} (r : DropReason) : Decision.All P (.drop r) := fun _ h => by cases h

theorem Decision.all_copies {P : CopyPlan → Prop} {l : List CopyPlan} (h : ∀ c ∈ l, P c) : Decision.All P (.copies l) := by
  intro cs e
  cases e
  exact h

theorem Decision.all_one {P : CopyPlan → Prop} {c : CopyPlan} (h : P c) : Decision.All P (.copies [c]) :=
  all_copies fun x hx => by rw [List.mem_singleton.1 hx]; exact h

theorem floodDecision_all {P : CopyPlan → Prop} {l : List CopyPlan} (h : ∀ c ∈ l, P c) : (floodDecision l).All P := by
  unfold floodDecision
  split
  · exact Decision.all_drop _
  · exact Decision.all_copies h

theorem overX_all {P : CopyPlan → Prop} {s : State} {st : Station} {g : GroupTag} (h : ∀ x, P ⟨xPort x, some g⟩) :
    (s.overX st g).All P := by
  unfold State.overX
  split
  · exact Decision.all_one (h _)
  · exact Decision.all_drop _

theorem uplinkPort_cases {s : State} {b : Nat} {p : Port} (h : s.uplinkPort b = some p) : ∃ u, p = uPort u := by
  obtain ⟨u, -, rfl⟩ := Option.map_eq_some_iff.1 h
  exact ⟨u, rfl⟩

theorem overU_all {P : CopyPlan → Prop} {s : State} {b : Nat} (h : ∀ u, P ⟨uPort u, none⟩) : (s.overU b).All P := by
  unfold State.overU
  split
  · next p hp =>
    obtain ⟨u, rfl⟩ := uplinkPort_cases hp
    exact Decision.all_one (h u)
  · exact Decision.all_drop _

theorem decideLocal_all {P : CopyPlan → Prop} {s : State} {r : Option FwdEntry} (h : ∀ q, P ⟨sPort q, none⟩) :
    (s.decideLocal r).All P := by
  unfold State.decideLocal
  split
  · exact Decision.all_one (h _)
  · exact Decision.all_drop _

theorem sPort_lt (q : Fin 24) : (sPort q).val < 24 := q.isLt

theorem uPort_lt (u : Fin 4) : 24 ≤ (uPort u).val ∧ (uPort u).val < 28 := by
  have := u.isLt
  simp only [uPort]
  omega

theorem xPort_ge (x : XIndex) : 28 ≤ (xPort x).val := Nat.le_add_right 28 _

/-- A copy of a frame classified at station `own`: without tag to S-ports and U-ports, with hop 1 and at most one flag to
X-ports (R56). -/
def CopyPlan.fromEdge (own : Station) (c : CopyPlan) : Prop :=
  (c.port.val < 28 → c.tag = none)
    ∧ (28 ≤ c.port.val → ∃ g, c.tag = some g ∧ g.hop = 1 ∧ g.origin = own ∧ g.manyFlags = false)

theorem fromEdge_plain {own : Station} {p : Port} (h : p.val < 28) : CopyPlan.fromEdge own ⟨p, none⟩ :=
  ⟨fun _ => rfl, fun k => absurd h (Nat.not_lt.2 k)⟩

theorem fromEdge_s (own : Station) (q : Fin 24) : CopyPlan.fromEdge own ⟨sPort q, none⟩ :=
  fromEdge_plain ((sPort_lt q).trans (by decide))

theorem fromEdge_u (own : Station) (u : Fin 4) : CopyPlan.fromEdge own ⟨uPort u, none⟩ := fromEdge_plain (uPort_lt u).2

theorem fromEdge_x {own : Station} {g : GroupTag} (hop : g.hop = 1) (origin : g.origin = own) (flags : g.manyFlags = false)
    (x : XIndex) : CopyPlan.fromEdge own ⟨xPort x, some g⟩ :=
  ⟨fun k => absurd (xPort_ge x) (Nat.not_le.2 k), fun _ => ⟨g, rfl, hop, origin, flags⟩⟩

section

variable (s : State) (d : Descriptor)

theorem sCopies_fromEdge (ps : List (Fin 24)) : ∀ c ∈ sCopies ps, c.fromEdge s.loader.station := fun c hc => by
  obtain ⟨q, rfl, -⟩ := mem_sCopies.1 hc
  exact fromEdge_s _ q

theorem peerCopies_fromEdge : ∀ c ∈ s.peerCopies d, c.fromEdge s.loader.station := fun c hc => by
  rw [peerCopies_eq] at hc
  obtain ⟨y, -, rfl⟩ := List.mem_map.1 hc
  exact fromEdge_x rfl rfl rfl _

theorem floodU_fromEdge : ∀ c ∈ s.floodU d, c.fromEdge s.loader.station := fun c hc => by
  rcases List.mem_append.1 hc with hc | hc
  · exact sCopies_fromEdge s _ c hc
  · exact peerCopies_fromEdge s d c hc

theorem floodS_fromEdge (p : Fin 24) : ∀ c ∈ s.floodS d p, c.fromEdge s.loader.station := fun c hc => by
  rcases List.mem_append.1 hc with hc | hc
  · rcases List.mem_append.1 hc with hc | hc
    · exact sCopies_fromEdge s _ c hc
    · exact peerCopies_fromEdge s d c hc
  · obtain ⟨p, hp, rfl⟩ := Option.map_eq_some_iff.1 (Option.mem_toList.1 hc)
    obtain ⟨u, rfl⟩ := uplinkPort_cases hp
    exact fromEdge_u _ u

theorem uplinkPath_fromEdge : (s.uplinkPath d).All (CopyPlan.fromEdge s.loader.station) := by
  unfold State.uplinkPath
  split
  · split
    · exact overX_all fun x => fromEdge_x rfl rfl rfl x
    · exact Decision.all_drop _
  · exact overU_all fun u => fromEdge_u _ u

theorem towardHolder_fromEdge (h : Holder) : (s.towardHolder d h).All (CopyPlan.fromEdge s.loader.station) := by
  unfold State.towardHolder
  split
  · exact Decision.all_drop _
  · split
    · exact overX_all fun x => fromEdge_x rfl rfl rfl x
    · split
      · exact overX_all fun x => fromEdge_x rfl rfl rfl x
      · exact Decision.all_drop _

theorem decideHit_fromEdge (e : FwdEntry) : (s.decideHit d e).All (CopyPlan.fromEdge s.loader.station) := by
  unfold State.decideHit
  split
  · exact Decision.all_drop _
  · split
    · exact Decision.all_one (fromEdge_s _ _)
    · split
      · exact towardHolder_fromEdge s d _
      · exact Decision.all_drop _

end

/-- A frame classified here: a hit, or what a miss and a group address bring. -/
theorem decideFrame_fromEdge {s : State} {d : Descriptor} (tag : d.tag = none) :
    (decideFrame d s).1.All (CopyPlan.fromEdge s.loader.station) := by
  by_cases miss : groupAddr d.dst = true ∨ s.misses d.tenant d.dst
  · cases ingress : asS d.ingress with
    | some p =>
      have ingress : d.ingress = sPort p := asS_eq_some ingress
      by_cases group : groupAddr d.dst = true
      · rw [decideFrame_floodS tag ingress group]
        exact floodDecision_all (floodS_fromEdge s d p)
      · rw [decideFrame_uplink tag ingress (Bool.eq_false_iff.2 group) (miss.resolve_left group)]
        exact uplinkPath_fromEdge s d
    | none =>
      have low := ge_of_asS_none ingress
      by_cases group : groupAddr d.dst = true
      · rw [decideFrame_floodU tag low group]
        exact floodDecision_all (floodU_fromEdge s d)
      · rw [decideFrame_missU tag low (Bool.eq_false_iff.2 group) (miss.resolve_left group)]
        exact floodDecision_all (floodU_fromEdge s d)
  · simp only [State.misses, not_or, Bool.not_eq_true] at miss
    obtain ⟨group, good, here, found⟩ := miss
    obtain ⟨e, he⟩ := Option.ne_none_iff_exists'.1 found
    rw [decideFrame_hit tag group good here he]
    exact decideHit_fromEdge s d e

/-- A copy of a frame that arrived with tag `g`. -/
def CopyPlan.fromTag (s : State) (d : Descriptor) (g : GroupTag) (c : CopyPlan) : Prop :=
  (c.port.val < 28 → c.tag = none)
    ∧ (28 ≤ c.port.val →
        g.diverted = false ∧ g.flood = false ∧ g.relay = true ∧ g.target ≠ s.loader.station ∧ c.port ≠ d.ingress
          ∧ (∃ x, s.directX g.target = some x ∧ c.port = xPort x)
          ∧ c.tag = some (onwardTag d g))
    ∧ (g.diverted = true → 24 ≤ c.port.val ∧ c.port.val < 28)
    ∧ (g.diverted = false → (g.flood = true ∨ g.relay = false ∨ g.target = s.loader.station) → c.port.val < 24)

theorem fromTag_s {s : State} {d : Descriptor} {g : GroupTag} (h : g.diverted = false) (q : Fin 24) :
    CopyPlan.fromTag s d g ⟨sPort q, none⟩ :=
  ⟨fun _ => rfl, fun k => absurd ((sPort_lt q).trans (by decide)) (Nat.not_lt.2 k), fun k => absurd k (by simp [h]),
    fun _ _ => sPort_lt q⟩

theorem onward_fromTag {s : State} {d : Descriptor} {g : GroupTag} (h : g.diverted = false) (k : g.flood = false)
    (relay : g.relay = true) (target : g.target ≠ s.loader.station) : (s.onward d g).All (CopyPlan.fromTag s d g) := by
  unfold State.onward
  split
  · next x hx =>
    split
    · exact Decision.all_drop _
    · next other =>
      refine Decision.all_one ⟨fun low => absurd (xPort_ge x) (Nat.not_le.2 low),
        fun _ => ⟨h, k, relay, target, other, ⟨x, hx, rfl⟩, rfl⟩, fun div => absurd div (by simp [h]), fun _ plain => ?_⟩
      rcases plain with f | r | t
      · exact absurd f (by simp [k])
      · exact absurd r (by simp [relay])
      · exact absurd t target
  · exact Decision.all_drop _

theorem decideFrame_fromTag {s : State} {d : Descriptor} {g : GroupTag} (tag : d.tag = some g) :
    (decideFrame d s).1.All (CopyPlan.fromTag s d g) := by
  by_cases div : g.diverted = true
  · rw [decideFrame_diverted tag div]
    refine overU_all fun u => ⟨fun _ => rfl, fun k => absurd (uPort_lt u).2 (Nat.not_lt.2 k), fun _ => uPort_lt u,
      fun k => absurd div (by simp [k])⟩
  · have straight := Bool.eq_false_iff.2 div
    by_cases flood : g.flood = true
    · rw [decideFrame_flooded tag straight flood]
      refine Decision.all_copies fun c hc => ?_
      obtain ⟨q, rfl, -⟩ := mem_sCopies.1 hc
      exact fromTag_s straight q
    · have calm := Bool.eq_false_iff.2 flood
      by_cases onward : g.relay = true ∧ g.target ≠ s.loader.station
      · rw [decideFrame_onward tag straight calm onward.1 onward.2]
        exact onward_fromTag straight calm onward.1 onward.2
      · have here : g.relay = false ∨ g.target = s.loader.station := by
          by_cases r : g.relay = true
          · exact .inr (by_contra fun k => onward ⟨r, k⟩)
          · exact .inl (Bool.eq_false_iff.2 r)
        rw [decideFrame_plain tag straight calm here]
        exact decideLocal_all fun q => fromTag_s straight q

/-- A copy that leaves on an X-port with a tag is the only one of its frame. -/
theorem onward_alone {s : State} {d : Descriptor} {g : GroupTag} {cs : List CopyPlan} (tag : d.tag = some g)
    (h : g.diverted = false) (k : g.flood = false) (relay : g.relay = true) (target : g.target ≠ s.loader.station)
    (e : (decideFrame d s).1 = .copies cs) {c : CopyPlan} (hc : c ∈ cs) : cs = [c] := by
  rw [decideFrame_onward tag h k relay target] at e
  unfold State.onward at e
  split at e
  · split at e
    · cases e
    · cases e
      rw [List.mem_singleton.1 hc]
  · cases e

/-- Settles O11: tags written here carry hop 1, a relayed frame goes on once with hop 2, and a tag that comes with hop 2 is for
this station. -/
theorem framesCrossAtMostTwoXPorts : Obligations.FramesCrossAtMostTwoXPorts := by
  unfold Obligations.FramesCrossAtMostTwoXPorts
  constructor
  · intro s d cs e c hc
    cases tag : d.tag with
    | none =>
      obtain ⟨low, high⟩ := decideFrame_fromEdge tag cs e c hc
      exact ⟨low, fun x _ => high x, fun _ hg => by cases hg⟩
    | some g =>
      obtain ⟨low, high, div, plain⟩ := decideFrame_fromTag tag cs e c hc
      refine ⟨low, fun _ untagged => absurd untagged (Option.some_ne_none g), fun g' hg => ?_⟩
      cases hg
      refine ⟨fun x => ?_, div, fun d f => plain d (.inl f), fun d _ r => plain d (.inr r)⟩
      obtain ⟨straight, calm, relay, target, other, way, onward⟩ := high x
      exact ⟨relay, target, onward_alone tag straight calm relay target e hc, other, way, onward⟩
  · intro own l valid hop
    simp only [tagInvalid, Bool.or_eq_false_iff, hop] at valid
    obtain ⟨⟨⟨⟨⟨-, relay⟩, -⟩, target⟩, -⟩, -⟩ := valid
    have relayed : (readTag l).relay = true := by simpa using relay
    exact ⟨relayed, by simpa [relayed] using target⟩

end Sys2Proof.Machine
end

section
/-! What a frame from an S-port teaches the table (O8), and the facts about it that the rest of the frame needs. -/

namespace Sys2Proof.Machine

/-! ## Tables whose entries all pass their check -/

/-- Every entry of a table passes its check. -/
def AllGood (m : List (Nat × FwdEntry)) : Prop := ∀ x ∈ m, x.2.checkGood = true

theorem AllGood.find {m : List (Nat × FwdEntry)} (h : AllGood m) {i : Nat} {e : FwdEntry} (he : mapFind m i = some e) :
    e.checkGood = true := h _ (mem_of_mapFind he)

theorem AllGood.insert {m : List (Nat × FwdEntry)} (h : AllGood m) (i : Nat) {e : FwdEntry} (he : e.checkGood = true) :
    AllGood (mapInsert m i e) := fun x hx => by
  rcases mem_mapInsert hx with rfl | hx
  · exact he
  · exact h x hx

theorem AllGood.announceItem {m : List (Nat × FwdEntry)} (h : AllGood m) (it : ReachItem) : AllGood (announceItem it m) := by
  cases k : keyIndex m it.tenant it.addr with
  | none => rwa [announceItem_of_absent k]
  | some n =>
    obtain ⟨-, e, he, -⟩ := entry_of_keyIndex k
    have good := h.find he
    rw [announceItem_eq k he]
    exact h.insert n good

theorem AllGood.announceItems {m : List (Nat × FwdEntry)} (h : AllGood m) (is : List ReachItem) :
    AllGood (announceItems is m) := by
  induction is generalizing m with
  | nil => exact h
  | cons i is ih => exact ih (h.announceItem i)

theorem AllGood.queueReach {s : State} (h : AllGood s.fwd.table) (op : ReachOp) (t : Tenant) (a : Addr) :
    AllGood (queueReach op t a s).fwd.table := by
  unfold Machine.queueReach Machine.composeReach
  split
  · rw [enqueueReach_table]
    exact h.announceItems _
  · rwa [enqueueReach_table]

theorem bucketFaulty_of_good {s : State} (h : s.tableGood) (b : Nat) : bucketFaulty b s = false := by
  unfold bucketFaulty
  rw [List.any_eq_false]
  intro i _
  cases k : mapFind s.fwd.table i with
  | none => simp
  | some e => simp [AllGood.find h k]

theorem testBucket_of_good {s : State} (h : s.tableGood) (b : Nat) : testBucket b s = .of s := by
  unfold testBucket
  generalize bucketSlots b = is
  induction is with
  | nil => rfl
  | cons i is ih =>
    rw [eachOut, testSlot_of_good fun e he => AllGood.find h he, Out.of_andThen, ih]

/-! ## Entries of keys -/

theorem keyIndex_of_entryOf_none {m : List (Nat × FwdEntry)} {t : Tenant} {a : Addr} (h : entryOf m t a = none) :
    keyIndex m t a = none := by
  cases k : keyIndex m t a with
  | none => rfl
  | some i =>
    obtain ⟨-, e, he, -⟩ := entry_of_keyIndex k
    rw [entryOf, k, Option.bind_some, he] at h
    cases h

theorem entryOf_of_keyIndex_none {m : List (Nat × FwdEntry)} {t : Tenant} {a : Addr} (h : keyIndex m t a = none) :
    entryOf m t a = none := by rw [entryOf, h]; rfl

theorem keyIndex_eq_none_iff {m : List (Nat × FwdEntry)} {t : Tenant} {a : Addr} :
    keyIndex m t a = none ↔
      ∀ i, i / 4 = bucketOf t a → ∀ e, mapFind m i = some e → ¬ (e.tenant = t ∧ e.addr = a) := by
  refine ⟨fun h i hi e he => not_key_of_keyIndex h hi he, fun h => ?_⟩
  cases k : keyIndex m t a with
  | none => rfl
  | some i =>
    obtain ⟨hi, e, he, key⟩ := entry_of_keyIndex k
    exact absurd key (h i hi e he)

theorem keyIndex_insert_other {m : List (Nat × FwdEntry)} {t : Tenant} {a : Addr} (h : keyIndex m t a = none) {i : Nat}
    {e : FwdEntry} (ne : ¬ (e.tenant = t ∧ e.addr = a)) : keyIndex (mapInsert m i e) t a = none := by
  refine keyIndex_eq_none_iff.2 fun j hj f hf => ?_
  rcases mapFind_mapInsert_eq hf with ⟨-, rfl⟩ | ⟨-, hf⟩
  · exact ne
  · exact keyIndex_eq_none_iff.1 h j hj f hf

/-- A key's own write leaves its place. -/
theorem keyIndex_insert_self {m : List (Nat × FwdEntry)} {t : Tenant} {a : Addr} {i : Nat} (h : keyIndex m t a = some i)
    {e : FwdEntry} (key : e.tenant = t ∧ e.addr = a) : keyIndex (mapInsert m i e) t a = some i := by
  have same : ∀ j ∈ bucketSlots (bucketOf t a),
      ((mapFind (mapInsert m i e) j).any fun f => f.isFor t a) = (mapFind m j).any fun f => f.isFor t a := by
    intro j _
    by_cases k : j = i
    · subst k
      obtain ⟨-, f, hf, fk⟩ := entry_of_keyIndex h
      rw [mapFind_mapInsert, hf, Option.any_some, Option.any_some, FwdEntry.isFor_iff.2 key, FwdEntry.isFor_iff.2 fk]
    · rw [mapFind_mapInsert_ne m k]
  unfold keyIndex
  rw [List.find?_congr same]
  exact h

/-! ## The place of a new entry (R20, R21) -/

theorem olderOf_kept {x : Nat × Nat} {l : List (Nat × Nat)} (h : ∀ y ∈ l, y.2 ≤ x.2) :
    l.foldl olderOf (some x) = some x := by
  induction l with
  | nil => rfl
  | cons y l ih =>
    have : olderOf (some x) y = some x := if_neg (Nat.not_lt.2 (h y List.mem_cons_self))
    rw [List.foldl_cons, this]
    exact ih fun z hz => h z (List.mem_cons_of_mem _ hz)

/-- The choice among candidates in ascending order: the greatest measure, the first between equals. -/
theorem foldl_olderOf_eq {x : Nat × Nat} {l : List (Nat × Nat)} (sorted : l.Pairwise fun a b => a.1 < b.1) (hx : x ∈ l)
    (best : ∀ y ∈ l, y.2 < x.2 ∨ (y.2 = x.2 ∧ x.1 ≤ y.1)) {m : Option (Nat × Nat)} (hm : ∀ b, m = some b → b.2 < x.2) :
    l.foldl olderOf m = some x := by
  induction l generalizing m with
  | nil => cases hx
  | cons y l ih =>
    obtain ⟨later, sorted⟩ := List.pairwise_cons.1 sorted
    rw [List.foldl_cons]
    by_cases e : y = x
    · subst e
      have taken : olderOf m y = some y := by
        cases m with
        | none => rfl
        | some b => exact if_pos (hm b rfl)
      rw [taken]
      refine olderOf_kept fun z hz => ?_
      rcases best z (List.mem_cons_of_mem _ hz) with lt | ⟨eq, -⟩ <;> omega
    · have hx : x ∈ l := (List.mem_cons.1 hx).resolve_left (Ne.symm e)
      have less : y.2 < x.2 := by
        rcases best y List.mem_cons_self with lt | ⟨-, le⟩
        · exact lt
        · exact absurd (later x hx) (Nat.not_lt.2 le)
      refine ih sorted hx (fun z hz => best z (List.mem_cons_of_mem _ hz)) fun b hb => ?_
      cases m with
      | none =>
        cases hb
        exact less
      | some c =>
        unfold olderOf at hb
        dsimp only at hb
        split at hb <;> cases hb
        · exact less
        · exact hm _ rfl

theorem foldl_min_le (now : BitVec 16) (hs : List Holder) (m : Nat) :
    hs.foldl (fun m h => min m (holderAge now h)) m ≤ m := by
  induction hs generalizing m with
  | nil => exact le_rfl
  | cons h hs ih => exact (ih _).trans (Nat.min_le_left _ _)

theorem foldl_min_eq {now : BitVec 16} {hs : List Holder} {h : Holder} {m : Nat} (mem : h ∈ hs)
    (least : ∀ k ∈ hs, holderAge now h ≤ holderAge now k) (hm : holderAge now h ≤ m) :
    hs.foldl (fun m h => min m (holderAge now h)) m = holderAge now h := by
  induction hs generalizing m with
  | nil => cases mem
  | cons k hs ih =>
    rw [List.foldl_cons]
    have le := least k List.mem_cons_self
    rcases List.mem_cons.1 mem with rfl | mem
    · rw [Nat.min_eq_right hm]
      by_cases again : h ∈ hs
      · exact ih again (fun x hx => least x (List.mem_cons_of_mem _ hx)) le_rfl
      · have rest (l : List Holder) (hl : ∀ x ∈ l, holderAge now h ≤ holderAge now x) :
            l.foldl (fun m h => min m (holderAge now h)) (holderAge now h) = holderAge now h := by
          induction l with
          | nil => rfl
          | cons x l ih =>
            rw [List.foldl_cons, Nat.min_eq_left (hl x List.mem_cons_self)]
            exact ih fun y hy => hl y (List.mem_cons_of_mem _ hy)
        exact rest hs fun x hx => least x (List.mem_cons_of_mem _ hx)
    · exact ih mem (fun x hx => least x (List.mem_cons_of_mem _ hx)) (le_min hm le)

/-- The age of the newest holder is the least age (R21). -/
theorem newestAge_eq {now : BitVec 16} {hs : List Holder} {h : Holder} (mem : h ∈ hs)
    (least : ∀ k ∈ hs, holderAge now h ≤ holderAge now k) : newestAge now hs = holderAge now h :=
  foldl_min_eq mem least (by have := (now - h.period).isLt; unfold holderAge; omega)

/-- The candidates of a bucket under a measure, in slot order. -/
def candidates (m : List (Nat × FwdEntry)) (b : Nat) (f : FwdEntry → Option Nat) : List (Nat × Nat) :=
  (bucketSlots b).filterMap fun i => (mapFind m i).bind fun e => (f e).map fun n => (i, n)

theorem mem_candidates {m : List (Nat × FwdEntry)} {b : Nat} {f : FwdEntry → Option Nat} {x : Nat × Nat} :
    x ∈ candidates m b f ↔ x.1 ∈ bucketSlots b ∧ ∃ e, mapFind m x.1 = some e ∧ f e = some x.2 := by
  unfold candidates
  rw [List.mem_filterMap]
  constructor
  · rintro ⟨i, hi, found⟩
    obtain ⟨e, he, val⟩ := Option.bind_eq_some_iff.1 found
    obtain ⟨n, hn, rfl⟩ := Option.map_eq_some_iff.1 val
    exact ⟨hi, e, he, hn⟩
  · rintro ⟨hi, e, he, hn⟩
    exact ⟨x.1, hi, by rw [he, Option.bind_some, hn]; rfl⟩

theorem bucketSlots_sorted (b : Nat) : (bucketSlots b).Pairwise (· < ·) := by
  simp [bucketSlots]

theorem candidates_sorted (m : List (Nat × FwdEntry)) (b : Nat) (f : FwdEntry → Option Nat) :
    (candidates m b f).Pairwise fun x y => x.1 < y.1 := by
  refine List.pairwise_filterMap.2 ((bucketSlots_sorted b).imp fun {i j} lt x hx y hy => ?_)
  have place {i : Nat} {x : Nat × Nat}
      (h : ((mapFind m i).bind fun e => (f e).map fun n => (i, n)) = some x) : x.1 = i := by
    obtain ⟨e, -, val⟩ := Option.bind_eq_some_iff.1 h
    obtain ⟨n, -, rfl⟩ := Option.map_eq_some_iff.1 val
    rfl
  rw [place hx, place hy]
  exact lt

/-- The measure of R21: a holder-only entry by the age of its newest holder. -/
def victimMeasure (s : State) (e : FwdEntry) : Option Nat :=
  if e.holderOnly then some (newestAge s.fwd.period e.holders) else none

theorem victimSlot_eq (b : Nat) (s : State) :
    victimSlot b s = ((candidates s.fwd.table b (victimMeasure s)).foldl olderOf none).map Prod.fst := by
  unfold victimSlot candidates victimMeasure
  congr 2
  refine List.filterMap_congr fun i _ => ?_
  cases mapFind s.fwd.table i with
  | none => rfl
  | some e => cases h : e.holderOnly <;> simp [h]

theorem holderOnly_iff {e : FwdEntry} : e.holderOnly = true ↔ e.origin = .learned ∧ e.localPort = none := by
  simp [FwdEntry.holderOnly]

theorem victimMeasure_of_newest {s : State} {e : FwdEntry} (only : e.origin = .learned ∧ e.localPort = none) {h : Holder}
    (mem : h ∈ e.holders) (least : ∀ k ∈ e.holders, holderAge s.fwd.period h ≤ holderAge s.fwd.period k) :
    victimMeasure s e = some (holderAge s.fwd.period h) := by
  rw [victimMeasure, if_pos (holderOnly_iff.2 only), newestAge_eq mem least]

theorem victimSlot_of_isVictim {s : State} {b i : Nat} {f : FwdEntry} (h : s.isVictim b i f) :
    victimSlot b s = some i := by
  obtain ⟨hi, hf, learned, noPort, k, ⟨mem, least⟩, best⟩ := h
  have measure := victimMeasure_of_newest ⟨learned, noPort⟩ mem least
  rw [victimSlot_eq, foldl_olderOf_eq (x := (i, holderAge s.fwd.period k)) (candidates_sorted _ _ _)
    (mem_candidates.2 ⟨hi, f, hf, measure⟩) (fun y hy => ?_) (fun _ none => by cases none)]
  · rfl
  · obtain ⟨hj, g, hg, val⟩ := mem_candidates.1 hy
    have only : g.holderOnly = true := by
      by_contra no
      rw [victimMeasure, if_neg no] at val
      cases val
    obtain ⟨learned', noPort'⟩ := holderOnly_iff.1 only
    obtain ⟨k', ⟨mem', least'⟩, dominated⟩ := best y.1 hj g hg learned' noPort'
    have := (victimMeasure_of_newest ⟨learned', noPort'⟩ mem' least').symm.trans val
    rw [← Option.some.inj this]
    exact dominated

theorem victimSlot_isSome {s : State} {b i : Nat} {e : FwdEntry} (hi : i ∈ bucketSlots b) (he : mapFind s.fwd.table i = some e)
    (only : e.holderOnly = true) : (victimSlot b s).isSome = true := by
  have stays (l : List (Nat × Nat)) (x : Nat × Nat) : ∃ y, l.foldl olderOf (some x) = some y := by
    induction l generalizing x with
    | nil => exact ⟨x, rfl⟩
    | cons z l ih =>
      rw [List.foldl_cons, olderOf]
      split
      · exact ih z
      · exact ih x
  have mem : (i, newestAge s.fwd.period e.holders) ∈ candidates s.fwd.table b (victimMeasure s) :=
    mem_candidates.2 ⟨hi, e, he, if_pos only⟩
  rw [victimSlot_eq]
  cases h : candidates s.fwd.table b (victimMeasure s) with
  | nil => rw [h] at mem; cases mem
  | cons x l =>
    obtain ⟨y, hy⟩ := stays l x
    rw [List.foldl_cons, show olderOf none x = some x from rfl, hy]
    rfl

theorem victimSlot_eq_none {s : State} {b : Nat}
    (h : ∀ i ∈ bucketSlots b, ∀ e, mapFind s.fwd.table i = some e → e.holderOnly = false) : victimSlot b s = none := by
  cases k : victimSlot b s with
  | none => rfl
  | some i =>
    obtain ⟨hi, e, he, only⟩ := victimSlot_eq_some k
    rw [h i (mem_bucketSlots.2 hi) e he] at only
    cases only

theorem freeSlot_eq_none_iff {m : List (Nat × FwdEntry)} {b : Nat} :
    freeSlot m b = none ↔ ∀ i ∈ bucketSlots b, (mapFind m i).isSome = true := by
  unfold freeSlot
  rw [List.find?_eq_none]
  refine forall₂_congr fun i _ => ?_
  cases mapFind m i <;> simp

theorem freeSlot_of_lowest {m : List (Nat × FwdEntry)} {b i : Nat} (hi : i ∈ bucketSlots b) (free : mapFind m i = none)
    (taken : ∀ j ∈ bucketSlots b, j < i → (mapFind m j).isSome = true) : freeSlot m b = some i := by
  cases h : freeSlot m b with
  | none =>
    have := freeSlot_eq_none_iff.1 h i hi
    rw [free] at this
    cases this
  | some j =>
    obtain ⟨hj, freej⟩ := freeSlot_eq_some h
    have hj := mem_bucketSlots.2 hj
    have before : ¬ j < i := fun lt => by
      have := taken j hj lt
      rw [freej] at this
      cases this
    by_cases e : i = j
    · rw [e]
    · have lt : i < j := by omega
      unfold freeSlot at h
      obtain ⟨-, l, r, split, none⟩ := List.find?_eq_some_iff_append.1 h
      have mem : i ∈ l := by
        have sorted := bucketSlots_sorted b
        rw [split] at sorted hi
        obtain ⟨-, tail, -⟩ := List.pairwise_append.1 sorted
        rcases List.mem_append.1 hi with hi | hi
        · exact hi
        · rcases List.mem_cons.1 hi with rfl | hi
          · exact absurd rfl e
          · have := (List.pairwise_cons.1 tail).1 i hi
            omega
      have := none i mem
      simp [free] at this

end Sys2Proof.Machine
end

section
/-! Learning from a frame (O8): Table 2-2 by its cases, and that the rest of the frame leaves the table and slot 5 alone. -/

namespace Sys2Proof.Machine

/-! ## A queued operation and its notice -/

theorem reachFree_congr {s t : State} (hl : t.loader = s.loader) (hn : t.line = s.line) : t.reachFree ↔ s.reachFree := by
  unfold State.reachFree
  rw [hl, hn]

theorem queueReach_queue_of_not_free {op : ReachOp} {t : Tenant} {a : Addr} {s : State} (h : ¬ s.reachFree) :
    (queueReach op t a s).fwd.queue = reachAfter op t a s.fwd.queue := by
  rw [queueReach_of_not_free h, enqueueReach_queue]

/-- A REACH takes the operation at once, whether the queue had room or not. -/
theorem queueReach_notice {op : ReachOp} {t : Tenant} {a : Addr} {s : State} (free : s.reachFree) :
    (queueReach op t a s).fwd.queue = (reachAfter op t a s.fwd.queue).drop 14
      ∧ (queueReach op t a s).line = { s.line with
          wReach := some { dst := 15, body := .reach s.params.serial ((reachAfter op t a s.fwd.queue).take 14) } } := by
  have frame := enqueueReach_frame op t a s
  have still : (enqueueReach op t a s).reachFree :=
    (reachFree_congr (frame.loader (by decide)) (frame.line (by decide))).2 free
  have items : (enqueueReach op t a s).fwd.queue ≠ [] := by
    rw [enqueueReach_queue]
    exact reachAfter_ne_nil _ _ _ _
  rw [queueReach, composeReach_of_free still items, enqueueReach_queue, frame.line (by decide), frame.params (by decide)]
  exact ⟨rfl, rfl⟩

/-! ## A learn by its cases (Table 2-2) -/

section

variable {p : Fin 24} {t : Tenant} {a : Addr} {s : State}

theorem entryOf_eq_some {m : List (Nat × FwdEntry)} {t : Tenant} {a : Addr} {e : FwdEntry} (h : entryOf m t a = some e) :
    ∃ i, keyIndex m t a = some i ∧ mapFind m i = some e := Option.bind_eq_some_iff.1 h

/-- The LEARNED entry of the key takes the port. -/
def taught (p : Fin 24) (e : FwdEntry) : FwdEntry := { e with localPort := some p, age := 0 }

theorem learnKey_of_learned {i : Nat} {e : FwdEntry} (hi : keyIndex s.fwd.table t a = some i)
    (he : mapFind s.fwd.table i = some e) (learned : e.origin = .learned) :
    learnKey p t a s = if e.localPort.isSome then putEntry i (taught p e) s else queueReach .join t a (putEntry i (taught p e) s) := by
  unfold learnKey
  rw [hi]
  dsimp only
  rw [he]
  exact if_pos learned

theorem learnKey_of_fixed {i : Nat} {e : FwdEntry} (hi : keyIndex s.fwd.table t a = some i)
    (he : mapFind s.fwd.table i = some e) (fixed : e.origin ≠ .learned) : learnKey p t a s = s := by
  unfold learnKey
  rw [hi]
  dsimp only
  rw [he]
  exact if_neg fixed

/-- The place that a new key takes: the lowest free slot, or that of the victim. -/
def State.placeFor (s : State) (b : Nat) : Option Nat := (freeSlot s.fwd.table b).orElse fun _ => victimSlot b s

theorem learnKey_of_new {i : Nat} (absent : keyIndex s.fwd.table t a = none) (place : s.placeFor (bucketOf t a) = some i) :
    learnKey p t a s = queueReach .join t a (putEntry i (freshEntry t a (some p) []) s) := by
  unfold learnKey
  rw [absent]
  dsimp only
  rw [show ((freeSlot s.fwd.table (bucketOf t a)).orElse fun _ => victimSlot (bucketOf t a) s) = some i from place]

theorem learnKey_of_full (absent : keyIndex s.fwd.table t a = none) (place : s.placeFor (bucketOf t a) = none) :
    learnKey p t a s = { s with fwd := { s.fwd with learnRefused := satInc s.fwd.learnRefused } } := by
  unfold learnKey
  rw [absent]
  dsimp only
  rw [show ((freeSlot s.fwd.table (bucketOf t a)).orElse fun _ => victimSlot (bucketOf t a) s) = none from place]

theorem placeFor_eq_some {b i : Nat} (h : s.placeFor b = some i) : i / 4 = b := by
  rcases (Option.orElse_eq_some _ _ _).1 h with hi | ⟨-, hi⟩
  · exact (freeSlot_eq_some hi).1
  · exact (victimSlot_eq_some hi).1

theorem placeFor_of_free {b i : Nat} (h : freeSlot s.fwd.table b = some i) : s.placeFor b = some i := by
  unfold State.placeFor
  rw [h]
  rfl

theorem placeFor_of_full {b : Nat} (h : ∀ i ∈ bucketSlots b, (mapFind s.fwd.table i).isSome = true) :
    s.placeFor b = victimSlot b s := by
  unfold State.placeFor
  rw [freeSlot_eq_none_iff.2 h]
  rfl

theorem freshEntry_checkGood (t : Tenant) (a : Addr) (lp : Option (Fin 24)) (hs : List Holder) :
    (freshEntry t a lp hs).checkGood = true := EntryCheck.good_empty

/-- After a learn with an effect the table is the old one with one place written, but for flags. -/
theorem learnKey_table (p : Fin 24) (t : Tenant) (a : Addr) (s : State) :
    (learnKey p t a s).fwd.table = s.fwd.table
      ∨ ∃ i e, e.tenant = t ∧ e.addr = a ∧ (AllGood s.fwd.table → e.checkGood = true)
          ∧ SameButFlags (mapInsert s.fwd.table i e) (learnKey p t a s).fwd.table
          ∧ (AllGood s.fwd.table → AllGood (learnKey p t a s).fwd.table) := by
  have queued (i : Nat) (e : FwdEntry) : SameButFlags (mapInsert s.fwd.table i e)
      (queueReach .join t a (putEntry i e s)).fwd.table := queueReach_same _ _ _ (putEntry i e s)
  cases hi : keyIndex s.fwd.table t a with
  | some i =>
    obtain ⟨-, e, he, ht, ha⟩ := entry_of_keyIndex hi
    by_cases learned : e.origin = .learned
    · refine .inr ⟨i, taught p e, ht, ha, fun good => (good.find he :), ?_⟩
      rw [learnKey_of_learned hi he learned]
      have good : AllGood s.fwd.table → AllGood (putEntry i (taught p e) s).fwd.table := fun good =>
        have := good.find he
        good.insert i this
      split
      · exact ⟨.refl _, good⟩
      · exact ⟨queued _ _, fun h => (good h).queueReach _ _ _⟩
    · exact .inl (by rw [learnKey_of_fixed hi he learned])
  | none =>
    cases place : s.placeFor (bucketOf t a) with
    | some i =>
      refine .inr ⟨i, freshEntry t a (some p) [], rfl, rfl, fun _ => freshEntry_checkGood _ _ _ _, ?_⟩
      rw [learnKey_of_new hi place]
      exact ⟨queued _ _, fun h => AllGood.queueReach (s := putEntry i (freshEntry t a (some p) []) s)
        (h.insert i (freshEntry_checkGood _ _ _ _)) _ _ _⟩
    | none => exact .inl (by rw [learnKey_of_full hi place])

theorem learnKey_tableGood (h : s.tableGood) : (learnKey p t a s).tableGood := by
  rcases learnKey_table p t a s with e | ⟨i, e, -, -, -, -, good⟩
  · unfold State.tableGood
    rwa [e]
  · exact good h

/-- A key without an entry has none after another key was learned. -/
theorem learnKey_entryAt_other {b : Addr} (ne : b ≠ a) (h : s.entryAt t b = none) : (learnKey p t a s).entryAt t b = none := by
  have absent := keyIndex_of_entryOf_none h
  refine entryOf_of_keyIndex_none ?_
  rcases learnKey_table p t a s with e | ⟨i, e, -, ha, -, same, -⟩
  · rwa [e]
  · rw [same.keyIndex]
    exact keyIndex_insert_other absent fun k => ne (k.2.symm.trans ha)

end

/-! ## A classified frame up to its decision -/

theorem learnFrame_of_good {d : Descriptor} {src : Addr} {s : State} (h : s.tableGood) :
    learnFrame d src s = .of (learnFrame d src s).st ∧ Frame [.fwd, .line] s (learnFrame d src s).st
      ∧ (learnFrame d src s).st.tableGood := by
  unfold learnFrame
  split
  · next p _ =>
    split
    · exact ⟨rfl, .refl _ s, h⟩
    · rw [learn, testBucket_of_good h, Out.of_also]
      exact ⟨rfl, learnKey_frame p d.tenant src s, learnKey_tableGood h⟩
  · exact ⟨rfl, .refl _ s, h⟩

/-- A frame from an S-port learns its source, unless that is a group address. -/
theorem learnFrame_st {d : Descriptor} {p : Fin 24} {src : Addr} {s : State} (h : s.tableGood) (hp : d.ingress = sPort p)
    (hs : groupAddr src = false) : (learnFrame d src s).st = learnKey p d.tenant src s := by
  unfold learnFrame
  rw [hp, asS_sPort]
  dsimp only
  rw [hs, learn, testBucket_of_good h]
  rfl

theorem learnFrame_of_group {d : Descriptor} {src : Addr} {s : State} (h : groupAddr src = true) :
    learnFrame d src s = .of s := by
  unfold learnFrame
  split
  · exact if_pos h
  · rfl

theorem learnFrame_of_uplink {d : Descriptor} {src : Addr} {s : State} (h : 24 ≤ d.ingress.val) :
    learnFrame d src s = .of s := by
  unfold learnFrame
  rw [asS_eq_none h]

theorem decideBy_out {d : Descriptor} {s : State} (h : bucketFaulty (bucketOf d.tenant d.dst) s = false)
    (f : Option FwdEntry → State → Decision) : (decideBy d s f).2 = .of s := lookup_out_of_good h

/-- A decision over a good bucket changes nothing. -/
theorem decideFrame_out {d : Descriptor} {s : State} (h : bucketFaulty (bucketOf d.tenant d.dst) s = false) :
    (decideFrame d s).2 = .of s := by
  unfold decideFrame
  split
  · unfold decideEdge
    split <;> split
    · rfl
    · exact decideBy_out h _
    · rfl
    · exact decideBy_out h _
  · unfold decideCross
    split
    · rfl
    · split
      · rfl
      · split
        · rfl
        · exact decideBy_out h _

theorem forwardFrame_of_good {d : Descriptor} {octets : List Byte} {s : State}
    (h : bucketFaulty (bucketOf d.tenant d.dst) s = false) :
    forwardFrame d octets s = deliver d octets (decideFrame d s).1 s := by
  unfold forwardFrame
  dsimp only
  rw [decideFrame_out h]
  exact Out.of_andThen _ _

section

variable {s : State} {p : Port} {l : List Byte} {r : Rule} {e : TenantEntry} (h : s.classifies p l r e)
include h

theorem takeFrame_of_classifies :
    takeFrame p l s = (learnFrame (edgeDescriptor p l r e s.params.deepHash) (frameSrc l) s).andThen
      (forwardFrame (edgeDescriptor p l r e s.params.deepHash) (plainOctets l)) := by
  obtain ⟨takes, passes, hp, ⟨before, n, after, rules, skips⟩, hr, good, hit, he, ok, check⟩ := h
  rw [takeFrame_of_edge takes passes hp,
    edgeFrame_entry (searchRules_rules rules skips hr good hit) (readTenant_good he ok check)]

/-- A classified frame over a good table: it is learned, decided and delivered. -/
theorem takeFrame_of_classified (table : s.tableGood) :
    let d := edgeDescriptor p l r e s.params.deepHash
    let u := (learnFrame d (frameSrc l) s).st
    takeFrame p l s = deliver d (l.take (l.length - 4)) (decideFrame d u).1 u := by
  intro d u
  obtain ⟨learned, -, good⟩ := learnFrame_of_good (d := d) (src := frameSrc l) table
  rw [takeFrame_of_classifies h, learned, Out.of_andThen, forwardFrame_of_good (bucketFaulty_of_good good _)]
  rfl

end

/-! ## What follows the decision leaves the table and slot 5 -/

/-- The blocks of admission and report. -/
abbrev deliverBlocks : List Block := .ports :: .buffer :: meterBlocks

theorem deliver_report_frame (d : Descriptor) (octets : List Byte) (x : Decision) (s : State) :
    Frame deliverBlocks s (deliver d octets x s).st := by
  have dropped (t : State) (q : Port) (r : DropReason) : Frame deliverBlocks t (reportNone d (countDrop q r t)).st :=
    ((countDrop_frame q r t).mono (by decide)).trans ((reportNone_frame d _).mono (by decide))
  unfold deliver
  split
  · exact dropped s _ _
  · next cs =>
    unfold offerCopies
    split
    · exact .refl _ s
    · split
      · exact Frame.andThen (dropped s _ _) fun t => (flagRestrained_frame d t).mono (by decide)
      · have admitted := (admitCopies_frame d octets cs s).mono (m := deliverBlocks) (by decide)
        unfold admitFrame
        dsimp only
        split
        · exact admitted.trans ((reportAdmitted_frame d _ _ _).mono (by decide))
        · exact admitted.trans ((reportNone_frame d _).mono (by decide))

/-- Slot 5 is the reach queue's alone. -/
def SlotKept (s t : State) : Prop := t.line.wReach = s.line.wReach

theorem SlotKept.of_frame {l : List Block} {s t : State} (h : Frame l s t) (k : Block.line ∉ l) : SlotKept s t := by
  unfold SlotKept
  rw [h.line k]

theorem fillEnd_slotKept (s : State) : SlotKept s (fillEnd s) := by
  unfold fillEnd
  split
  · split <;> rfl
  · rfl

theorem fillRecord_slotKept (s : State) : SlotKept s (fillRecord s) := by
  unfold fillRecord
  split
  · split
    · rfl
    · dsimp only
      split <;> rfl
  · rfl

theorem readyEnd_slotKept (c : Fin 2) (s : State) : SlotKept s (readyEnd c s) := by
  unfold readyEnd
  dsimp only
  split
  · exact fillEnd_slotKept _
  · rfl

theorem act_slotKept (a : LinkAction) (s : State) : SlotKept s (act a s).st := by
  cases a with
  | sendLoad =>
    show SlotKept s (composeLoad s)
    unfold composeLoad
    split <;> rfl
  | sendLink =>
    show SlotKept s (composeLink s)
    unfold composeLink
    split <;> rfl
  | closeInterval => exact .of_frame (boundary_frame s) (by decide)
  | exportEvent c =>
    show SlotKept s (exportEvent c s)
    unfold exportEvent
    dsimp only
    split
    · exact (fillRecord_slotKept _).trans (readyEnd_slotKept c _)
    · rfl
  | markInterval code => rfl

theorem hearEvent_slotKept (e : Event) (n : Nat) (s : State) : SlotKept s (hearEvent e n s).st := by
  unfold hearEvent
  split
  · rfl
  · split
    · split
      · exact act_slotKept _ s
      · rfl
    · rfl

theorem takeEvent_slotKept (e : Event) (s : State) : SlotKept s (takeEvent e s).st := by
  have each (ns : List Nat) (t : State) : SlotKept t (eachOut (hearEvent e) ns t).st := by
    induction ns generalizing t with
    | nil => rfl
    | cons n ns ih => exact (ih _).trans (hearEvent_slotKept e n t)
  unfold takeEvent
  split
  · exact each _ s
  · rfl

theorem settleEvents_slotKept (n : Nat) (es : List Event) (s : State) : SlotKept s (settleEvents n es s) := by
  induction n generalizing es s with
  | zero => rfl
  | succ n ih =>
    unfold settleEvents
    induction es generalizing s with
    | nil => rfl
    | cons e es ihe => exact (ihe _).trans ((ih _ _).trans (takeEvent_slotKept e s))

theorem conclude_slotKept (o : Out) : SlotKept o.st (conclude o) := settleEvents_slotKept 8 o.evs o.st

/-- The table and slot 5 after a classified frame are those after its learn. -/
theorem frame_after_learn {p : Port} {l : List Byte} {s : State} {r : Rule} {e : TenantEntry} (h : s.classifies p l r e)
    (table : s.tableGood) :
    let u := (learnFrame (edgeDescriptor p l r e s.params.deepHash) (frameSrc l) s).st
    ∃ t, exec (.frameReceived p l) s = .next t ∧ t.fwd = u.fwd ∧ t.line.wReach = u.line.wReach := by
  intro u
  have taken := takeFrame_of_classified h table
  dsimp only at taken
  have delivered := deliver_report_frame (edgeDescriptor p l r e s.params.deepHash) (l.take (l.length - 4))
    (decideFrame (edgeDescriptor p l r e s.params.deepHash) u).1 u
  refine ⟨conclude (takeFrame p l s), rfl, ?_, ?_⟩
  · rw [(conclude_frame _).fwd (by decide), taken, delivered.fwd (by decide)]
  · rw [conclude_slotKept, taken, delivered.line (by decide)]

end Sys2Proof.Machine
end

section
/-! Settling O8 from the cases of a learn. -/

namespace Sys2Proof.Machine

section

variable {p : Fin 24} {t : Tenant} {a : Addr} {s : State}

/-- A key without a local port gains one (R24). -/
def State.gainsPort (s : State) (t : Tenant) (a : Addr) : Prop :=
  (∃ f, s.entryAt t a = some f ∧ f.origin = .learned ∧ f.localPort = none)
    ∨ (s.entryAt t a = none
      ∧ ∃ i ∈ bucketSlots (bucketOf t a), ∀ f, mapFind s.fwd.table i = some f → f.origin = .learned ∧ f.localPort = none)

/-- A bucket has a place for a new key when a slot is free or holds a holder-only LEARNED entry. -/
theorem placeFor_isSome_iff {b : Nat} :
    (s.placeFor b).isSome = true ↔
      ∃ i ∈ bucketSlots b, ∀ f, mapFind s.fwd.table i = some f → f.origin = .learned ∧ f.localPort = none := by
  constructor
  · intro h
    obtain ⟨i, hi⟩ := Option.isSome_iff_exists.1 h
    refine ⟨i, mem_bucketSlots.2 (placeFor_eq_some hi), fun f hf => ?_⟩
    rcases (Option.orElse_eq_some _ _ _).1 hi with hi | ⟨-, hi⟩
    · cases (freeSlot_eq_some hi).2.symm.trans hf
    · obtain ⟨-, g, hg, only⟩ := victimSlot_eq_some hi
      cases hg.symm.trans hf
      exact holderOnly_iff.1 only
  · rintro ⟨i, hi, fits⟩
    unfold State.placeFor
    cases free : freeSlot s.fwd.table b with
    | some j => rfl
    | none =>
      obtain ⟨f, hf⟩ := Option.isSome_iff_exists.1 (freeSlot_eq_none_iff.1 free i hi)
      exact victimSlot_isSome hi hf (holderOnly_iff.2 (fits f hf))

theorem keyIndex_of_entryAt_none (h : s.entryAt t a = none) : keyIndex s.fwd.table t a = none := keyIndex_of_entryOf_none h

theorem learnKey_learned {f : FwdEntry} (hf : s.entryAt t a = some f) (learned : f.origin = .learned) :
    ∃ x, (learnKey p t a s).entryAt t a = some { f with localPort := some p, age := 0, announced := x } := by
  obtain ⟨i, hi, he⟩ := entryOf_eq_some hf
  obtain ⟨-, f', hf', key⟩ := entry_of_keyIndex hi
  cases he.symm.trans hf'
  have place : keyIndex (putEntry i (taught p f) s).fwd.table t a = some i := keyIndex_insert_self hi key
  have stands : mapFind (putEntry i (taught p f) s).fwd.table i = some (taught p f) := mapFind_mapInsert _ _ _
  rw [learnKey_of_learned hi he learned]
  split
  · refine ⟨f.announced, ?_⟩
    rw [State.entryAt, place, Option.bind_some, stands]
    rfl
  · have same := queueReach_same .join t a (putEntry i (taught p f) s)
    obtain ⟨x, hx⟩ := same.some stands
    refine ⟨x, ?_⟩
    rw [State.entryAt, same.keyIndex, place, Option.bind_some, hx]
    rfl

theorem learnKey_fixed {f : FwdEntry} (hf : s.entryAt t a = some f) (fixed : f.origin ≠ .learned) : learnKey p t a s = s := by
  obtain ⟨i, hi, he⟩ := entryOf_eq_some hf
  exact learnKey_of_fixed hi he fixed

/-- A new key stands at its place, and the rest of the table as it stood. -/
theorem learnKey_new {i : Nat} (absent : s.entryAt t a = none) (place : s.placeFor (bucketOf t a) = some i) :
    (learnKey p t a s).unannounced i = some
        { tenant := t, addr := a, origin := .learned, localPort := some p, age := 0, announced := false, holders := [] }
      ∧ ∀ j, j ≠ i → (learnKey p t a s).unannounced j = s.unannounced j := by
  rw [learnKey_of_new (keyIndex_of_entryAt_none absent) place]
  have same := queueReach_same .join t a (putEntry i (freshEntry t a (some p) []) s)
  refine ⟨(same i).trans ?_, fun j hj => (same j).trans ?_⟩
  · have stands : mapFind (putEntry i (freshEntry t a (some p) []) s).fwd.table i = some (freshEntry t a (some p) []) :=
      mapFind_mapInsert _ _ _
    rw [stands]
    rfl
  · exact congrArg _ (mapFind_mapInsert_ne s.fwd.table hj _)

theorem learnKey_refused (absent : s.entryAt t a = none) (place : s.placeFor (bucketOf t a) = none) :
    (learnKey p t a s).fwd = { s.fwd with learnRefused := satInc s.fwd.learnRefused } := by
  rw [learnKey_of_full (keyIndex_of_entryAt_none absent) place]

/-- A key that gains a port has its JOIN queued over a state with the same queue and line. -/
theorem learnKey_of_gains (h : s.gainsPort t a) :
    ∃ u, learnKey p t a s = queueReach .join t a u ∧ u.fwd.queue = s.fwd.queue ∧ u.line = s.line
      ∧ u.loader = s.loader ∧ u.params = s.params := by
  rcases h with ⟨f, hf, learned, noPort⟩ | ⟨absent, place⟩
  · obtain ⟨i, hi, he⟩ := entryOf_eq_some hf
    refine ⟨putEntry i (taught p f) s, ?_, rfl, rfl, rfl, rfl⟩
    rw [learnKey_of_learned hi he learned, if_neg (by simp [noPort])]
  · obtain ⟨i, hi⟩ := Option.isSome_iff_exists.1 (placeFor_isSome_iff.2 place)
    exact ⟨_, learnKey_of_new (keyIndex_of_entryAt_none absent) hi, rfl, rfl, rfl, rfl⟩

theorem learnKey_queue_of_not_gains (h : ¬ s.gainsPort t a) : (learnKey p t a s).fwd.queue = s.fwd.queue := by
  unfold State.gainsPort at h
  rw [not_or] at h
  obtain ⟨noLearned, noPlace⟩ := h
  cases hf : s.entryAt t a with
  | some f =>
    by_cases learned : f.origin = .learned
    · obtain ⟨i, hi, he⟩ := entryOf_eq_some hf
      have port : f.localPort.isSome = true :=
        Option.isSome_iff_ne_none.2 fun none => noLearned ⟨f, hf, learned, none⟩
      rw [learnKey_of_learned hi he learned, if_pos port]
      rfl
    · rw [learnKey_fixed hf learned]
  | none =>
    have place : s.placeFor (bucketOf t a) = none := by
      rw [← Option.not_isSome_iff_eq_none, placeFor_isSome_iff]
      exact fun k => noPlace ⟨hf, k⟩
    rw [learnKey_refused hf place]

end

/-- Settles O8: the table and slot 5 after the frame are those after the learn of its source. -/
theorem sourceAddressIsLearned : Obligations.SourceAddressIsLearned := by
  unfold Obligations.SourceAddressIsLearned
  intro s p l r e class_ table unicast b joined gains
  obtain ⟨t, ht, fwd, slot⟩ := frame_after_learn class_ table
  have learned : (learnFrame (edgeDescriptor (sPort p) l r e s.params.deepHash) (frameSrc l) s).st =
      learnKey p r.tenant (frameSrc l) s := learnFrame_st table rfl unicast
  rw [learned] at fwd slot
  have entry : t.entryAt r.tenant (frameSrc l) = (learnKey p r.tenant (frameSrc l) s).entryAt r.tenant (frameSrc l) := by
    rw [State.entryAt, fwd, State.entryAt]
  have plain (i : Nat) : t.unannounced i = (learnKey p r.tenant (frameSrc l) s).unannounced i := by
    rw [State.unannounced, fwd, State.unannounced]
  refine ⟨t, ht, fun f hf learned => ?_, fun f hf fixed => ?_, fun absent => ⟨fun i hi place => ?_, fun full => ?_⟩,
    fun no => ?_, fun yes busy => ?_, fun yes free => ?_⟩
  · rw [entry]
    exact learnKey_learned hf learned
  · rw [fwd, learnKey_fixed hf fixed]
  · have taken : s.placeFor b = some i := by
      rcases place with ⟨free, lower⟩ | ⟨full, f, victim⟩
      · exact placeFor_of_free (freeSlot_of_lowest hi free lower)
      · rw [placeFor_of_full full]
        exact victimSlot_of_isVictim victim
    obtain ⟨new, rest⟩ := learnKey_new (p := p) absent taken
    exact ⟨(plain i).trans new, fun j hj => (plain j).trans (rest j hj)⟩
  · have noPlace : s.placeFor b = none := by
      rw [← Option.not_isSome_iff_eq_none, placeFor_isSome_iff]
      rintro ⟨i, hi, fits⟩
      obtain ⟨f, hf, kept⟩ := full i hi
      obtain ⟨learned, noPort⟩ := fits f hf
      rcases kept with k | k
      · exact k learned
      · exact k noPort
    rw [fwd, learnKey_refused absent noPlace]
  · rw [fwd]
    exact learnKey_queue_of_not_gains no
  · obtain ⟨u, hu, queue, line, loader, -⟩ := learnKey_of_gains (p := p) yes
    rw [fwd, hu, queueReach_queue_of_not_free (mt (reachFree_congr loader line).1 busy), queue]
  · obtain ⟨u, hu, queue, line, loader, params⟩ := learnKey_of_gains (p := p) yes
    obtain ⟨items, notice⟩ := queueReach_notice (op := .join) (t := r.tenant) (a := frameSrc l)
      ((reachFree_congr loader line).2 free)
    rw [fwd, slot, hu, items, notice, queue, params]
    exact ⟨rfl, rfl⟩

end Sys2Proof.Machine
end

section
/-! The meter's answer to a frame, and admission behind a decision (O6, O7, O13, O15, O16). -/

namespace Sys2Proof.Machine

theorem Out.andThen_eq (o : Out) (f : State → Out) : o.andThen f = ⟨(f o.st).st, o.evs ++ (f o.st).evs⟩ := rfl

/-- A value other than the unlisted one is read back from any list. -/
theorem mapGet_mapSet_of_ne {α : Type} [DecidableEq α] {d x : α} (h : x ≠ d) (m : List (Nat × α)) (n : Nat) :
    mapGet d (mapSet d m n x) n = x := by
  unfold mapSet
  rw [if_neg h]
  simp [mapGet]

/-! ## One accumulator written -/

/-- A write that is not the empty accumulator needs no canonical list. -/
theorem acc_putAcc_of_ne {a : Accumulator} (h : a ≠ {}) (k : Nat) (s : State) : (putAcc k a s).acc k = a :=
  mapGet_mapSet_of_ne h _ _

theorem OnlyAcc.putAcc {k : Nat} {a : Accumulator} (h : a ≠ {}) {s t : State} (same : ∀ j, j ≠ k → t.acc j = s.acc j) :
    OnlyAcc k a s (putAcc k a t) :=
  ⟨acc_putAcc_of_ne h k t, fun j hj => (acc_putAcc_ne hj a).trans (same j hj)⟩

theorem OnlyAcc.of_meter {k : Nat} {a : Accumulator} {s s' t t' : State} (h : OnlyAcc k a s t)
    (hs : s'.meter.accs = s.meter.accs) (ht : t'.meter.accs = t.meter.accs) : OnlyAcc k a s' t' := by
  obtain ⟨now, rest⟩ := h
  refine ⟨(acc_of_accs ht k).trans now, fun j hj => ?_⟩
  rw [acc_of_accs ht, acc_of_accs hs]
  exact rest j hj

theorem satAdd_ne_zero {w : Nat} (hw : 0 < w) (c : BitVec w) {n : Nat} (hn : 0 < n) : (satAdd c n).1 ≠ 0 := fun h => by
  have e := satAdd_toNat c n
  rw [h] at e
  have : 2 ≤ 2 ^ w := by
    calc 2 = 2 ^ 1 := rfl
      _ ≤ 2 ^ w := Nat.pow_le_pow_right (by decide) hw
  simp at e
  omega

theorem Accumulator.drop_ne (a : Accumulator) : a.drop ≠ {} := fun h =>
  satAdd_ne_zero (by decide) a.drops (n := 1) (by decide) (congrArg Accumulator.drops h)

theorem Accumulator.outbound_outF_ne (len : Nat) (a : Accumulator) : (a.outbound len).outF ≠ 0 :=
  satAdd_ne_zero (by decide) a.outF (by decide)

theorem Accumulator.inbound_inF_ne (len : Nat) (a : Accumulator) : (a.inbound len).inF ≠ 0 :=
  satAdd_ne_zero (by decide) a.inF (by decide)

theorem Accumulator.count_rate_ne (d : Descriptor) (fee rate len : Nat) (a : Accumulator) :
    (a.count d).rate fee rate len ≠ {} := by
  unfold Accumulator.count
  split
  · exact fun h => inbound_inF_ne d.length a (congrArg Accumulator.inF h)
  · exact fun h => outbound_outF_ne d.length a (congrArg Accumulator.outF h)

/-! ## The read of an accumulator (R157) -/

theorem testAcc_bad {k : Nat} {s : State} (h : (s.acc k).checkGood = false) :
    testAcc k s = integrityFault (putAcc k { suspect := true } s) := by
  unfold testAcc
  rw [h]
  rfl

/-- What a read of an accumulator leaves: the accumulator as read, the fault raised and counted. -/
structure ReadDone (k : Nat) (s : State) (o : Out) : Prop where
  acc : o.st.acc k = s.readAcc k
  rest : ∀ j, j ≠ k → o.st.acc j = s.acc j
  evs : o.evs = if (s.acc k).checkGood = true then [] else [⟨.integrityFault, none⟩]
  loader : o.st.loader = { s.loader with
    integrityFaults := if (s.acc k).checkGood = true then s.loader.integrityFaults else satInc s.loader.integrityFaults }
  frame : Frame [.meter, .loader] s o.st

theorem testAcc_done (k : Nat) (s : State) : ReadDone k s (testAcc k s) := by
  by_cases h : (s.acc k).checkGood = true
  · rw [testAcc_good h]
    refine ⟨(if_pos h).symm, fun _ _ => rfl, (if_pos h).symm, ?_, .refl _ s⟩
    rw [if_pos h]
    rfl
  · refine ⟨?_, fun j hj => ?_, ?_, ?_, testAcc_frame k s⟩
    all_goals rw [testAcc_bad (Bool.eq_false_iff.2 h)]
    · exact (acc_putAcc_of_ne (by decide) k s).trans (if_neg h).symm
    · exact acc_putAcc_ne hj _
    · exact (if_neg h).symm
    · rw [if_neg h]
      rfl

theorem readAcc_of_good {k : Nat} {s : State} (h : (s.acc k).checkGood = true) : s.readAcc k = s.acc k := if_pos h

/-- A change of one accumulator after its read. -/
theorem changeAcc_done (k : Nat) {f : Accumulator → Accumulator} (hf : ∀ a, f a ≠ {}) (s : State) :
    OnlyAcc k (f (s.readAcc k)) s (changeAcc k f s).st
      ∧ (changeAcc k f s).evs = (if (s.acc k).checkGood = true then [] else [⟨.integrityFault, none⟩])
      ∧ Frame [.meter, .loader] s (changeAcc k f s).st
      ∧ (changeAcc k f s).st.loader = { s.loader with
          integrityFaults := if (s.acc k).checkGood = true then s.loader.integrityFaults
            else satInc s.loader.integrityFaults } := by
  have read := testAcc_done k s
  refine ⟨?_, read.evs, changeAcc_frame k f s, read.loader⟩
  rw [← read.acc]
  exact OnlyAcc.putAcc (hf _) read.rest

/-! ## Reports -/

theorem metered_iff {d : Descriptor} : d.metered = true ↔ d.tag = none ∧ d.tenant ≠ 0 := by
  simp [Descriptor.metered]

theorem not_metered_iff {d : Descriptor} : d.metered = false ↔ d.tag ≠ none ∨ d.tenant = 0 := by
  rw [Bool.eq_false_iff, ne_eq, metered_iff]
  tauto

theorem reportNone_of_metered {d : Descriptor} (h : d.metered = true) (s : State) :
    reportNone d s = changeAcc (accKey d.tenant d.bcls) Accumulator.drop s := if_pos h

theorem reportNone_of_not {d : Descriptor} (h : d.metered = false) (s : State) : reportNone d s = .of s := by
  unfold reportNone
  rw [h]
  rfl

theorem reportAdmitted_of_metered {d : Descriptor} (h : d.metered = true) (e : Port) (g : Option GroupTag) (s : State) :
    reportAdmitted d e g s = meterFrame d e g s := if_pos h

theorem reportAdmitted_of_not {d : Descriptor} (h : d.metered = false) (e : Port) (g : Option GroupTag) (s : State) :
    reportAdmitted d e g s = .of s := by
  unfold reportAdmitted
  rw [h]
  rfl

theorem flagRestrained_of_metered {d : Descriptor} (h : d.metered = true) (s : State) :
    flagRestrained d s = changeAcc (accKey d.tenant d.bcls) (fun a => { a with restrained := true }) s := if_pos h

theorem flagRestrained_of_not {d : Descriptor} (h : d.metered = false) (s : State) : flagRestrained d s = .of s := by
  unfold flagRestrained
  rw [h]
  rfl

/-! ## Metering an admitted frame -/

theorem asU_isSome_iff {p : Port} : (asU p).isSome = true ↔ 24 ≤ p.val ∧ p.val < 28 := by
  unfold asU
  split <;> simp_all

theorem count_eq (d : Descriptor) (a : Accumulator) :
    a.count d = if 24 ≤ d.ingress.val ∧ d.ingress.val < 28 then a.inbound d.length else a.outbound d.length := by
  unfold Accumulator.count
  exact if_congr asU_isSome_iff rfl rfl

theorem asU_peak_iff {s : State} {e : Port} :
    (asU e).any (fun u => s.load.peak[u.val]) = true ↔ ∃ u : Fin 4, e = uPort u ∧ s.load.peak[u.val] = true := by
  constructor
  · intro h
    obtain ⟨u, hu, peak⟩ := (Option.any_eq_true _ _).1 h
    refine ⟨u, ?_, peak⟩
    unfold asU at hu
    split at hu
    · next k =>
      cases hu
      exact Fin.ext (by simp only [uPort]; omega)
    · cases hu
  · rintro ⟨u, rfl, peak⟩
    have : asU (uPort u) = some u := by
      have := uPort_lt u
      unfold asU
      rw [dif_pos this]
      exact congrArg some (Fin.ext (by simp [uPort]))
    rw [this]
    exact peak

/-- The rate of R153. -/
theorem column_rate (s : State) (d : Descriptor) (e : Port) (g : Option GroupTag) (tf : Tariff) :
    tf.rate (s.column d e g) =
      if 24 ≤ d.ingress.val ∧ d.ingress.val < 28 then tf.inbound
      else if groupAddr d.dst = true then tf.base
      else if ∃ u : Fin 4, e = uPort u ∧ s.load.peak[u.val] = true then tf.peak
      else if (g.any fun x => x.diverted) = true then tf.detour
      else tf.base := by
  unfold State.column
  by_cases up : 24 ≤ d.ingress.val ∧ d.ingress.val < 28
  · rw [if_pos up, if_pos (asU_isSome_iff.2 up)]
    rfl
  · rw [if_neg up, if_neg (mt asU_isSome_iff.1 up)]
    split
    · rfl
    · by_cases peak : ∃ u : Fin 4, e = uPort u ∧ s.load.peak[u.val] = true
      · rw [if_pos peak, if_pos (asU_peak_iff.2 peak)]
        rfl
      · rw [if_neg peak, if_neg (mt asU_peak_iff.1 peak)]
        split <;> rfl

theorem readTariff_unusable {n : Nat} {s : State} (h : (s.tariff n).integ ≠ .good) : readTariff n s = (none, .of s) := by
  unfold readTariff
  exact if_neg h

theorem readTariff_faulty {n : Nat} {s : State} (h : (s.tariff n).integ = .good) (k : (s.tariff n).checkGood = false) :
    readTariff n s = (none, configFault ⟨.tariff, n⟩ s) := by
  unfold readTariff
  simp only [h, k]
  rfl

theorem ReadDone.tariff {k : Nat} {s : State} {o : Out} (h : ReadDone k s o) (n : Nat) : o.st.tariff n = s.tariff n := by
  rw [State.tariff, h.frame.tariffs (by decide), State.tariff]

theorem ReadDone.column {k : Nat} {s : State} {o : Out} (h : ReadDone k s o) (d : Descriptor) (e : Port)
    (g : Option GroupTag) : o.st.column d e g = s.column d e g := by
  unfold State.column
  rw [h.frame.load (by decide)]

/-- A metered frame after its accumulator and its tariff were read. -/
theorem meterFrame_eq (d : Descriptor) (e : Port) (g : Option GroupTag) (s : State) :
    meterFrame d e g s = (testAcc (accKey d.tenant d.bcls) s).andThen fun s1 =>
      (readTariff d.tariffs[d.bcls.val] s1).2.also fun s2 =>
        putAcc (accKey d.tenant d.bcls)
          (((readTariff d.tariffs[d.bcls.val] s1).1.elim { (s2.acc (accKey d.tenant d.bcls)).count d with tariffFault := true }
            fun t => ((s2.acc (accKey d.tenant d.bcls)).count d).rate t.fee (t.rate (s2.column d e g)) d.length)) s2 := by
  unfold meterFrame
  dsimp only
  congr 1
  funext s1
  congr 1
  funext s2
  cases (readTariff d.tariffs[d.bcls.val] s1).1 <;> rfl

section

variable {d : Descriptor} {s : State} (e : Port) (g : Option GroupTag)

theorem meterFrame_rated (good : (s.tariff d.tariffs[d.bcls.val]).integ = .good)
    (check : (s.tariff d.tariffs[d.bcls.val]).checkGood = true) :
    meterFrame d e g s = (testAcc (accKey d.tenant d.bcls) s).also
      (putAcc (accKey d.tenant d.bcls) (((s.readAcc (accKey d.tenant d.bcls)).count d).rate
        (s.tariff d.tariffs[d.bcls.val]).fee ((s.tariff d.tariffs[d.bcls.val]).rate (s.column d e g)) d.length)) := by
  have read := testAcc_done (accKey d.tenant d.bcls) s
  have tariff := read.tariff d.tariffs[d.bcls.val]
  rw [meterFrame_eq, ← read.acc, ← tariff, ← read.column d e g]
  rw [Out.andThen_eq, readTariff_good (tariff ▸ good) (tariff ▸ check)]
  simp only [Out.also, Out.of, List.append_nil, Option.elim_some]

theorem meterFrame_unrated (bad : (s.tariff d.tariffs[d.bcls.val]).integ ≠ .good) :
    meterFrame d e g s = (testAcc (accKey d.tenant d.bcls) s).also
      (putAcc (accKey d.tenant d.bcls)
        { (s.readAcc (accKey d.tenant d.bcls)).count d with tariffFault := true }) := by
  have read := testAcc_done (accKey d.tenant d.bcls) s
  have tariff := read.tariff d.tariffs[d.bcls.val]
  rw [meterFrame_eq, ← read.acc]
  rw [Out.andThen_eq, readTariff_unusable (tariff ▸ bad)]
  simp only [Out.also, Out.of, List.append_nil, Option.elim_none]

theorem meterFrame_faulty (good : (s.tariff d.tariffs[d.bcls.val]).integ = .good)
    (bad : (s.tariff d.tariffs[d.bcls.val]).checkGood = false) :
    meterFrame d e g s = ((testAcc (accKey d.tenant d.bcls) s).andThen (configFault ⟨.tariff, d.tariffs[d.bcls.val]⟩)).also
      (putAcc (accKey d.tenant d.bcls)
        { (s.readAcc (accKey d.tenant d.bcls)).count d with tariffFault := true }) := by
  have read := testAcc_done (accKey d.tenant d.bcls) s
  have tariff := read.tariff d.tariffs[d.bcls.val]
  have same : (configFault ⟨.tariff, d.tariffs[d.bcls.val]⟩ (testAcc (accKey d.tenant d.bcls) s).st).st.acc
      (accKey d.tenant d.bcls) = s.readAcc (accKey d.tenant d.bcls) := by
    rw [← read.acc]
    exact acc_of_accs (congrArg Meter.accs ((configFault_frame _ _).meter (by decide))) _
  rw [meterFrame_eq]
  rw [Out.andThen_eq, readTariff_faulty (tariff ▸ good) (tariff ▸ bad)]
  simp only [Out.also, Option.elim_none, same]
  rfl

end

/-- The read of the tariff failed its check (R154, R193). -/
theorem configFault_tariff (n : Nat) (s : State) :
    configFault ⟨.tariff, n⟩ s =
      ⟨{ s with tariffs := mapSet {} s.tariffs n { s.tariff n with integ := s.faultInteg }
                loader := s.faultLoader ⟨.tariff, n⟩ }, [⟨.integrityFault, none⟩]⟩ := by
  unfold configFault requestRefetch integrityFault raise State.faultInteg State.faultLoader
  by_cases k : s.loader.refetch.length < 8 <;> simp [Config.refetchLimit, k, setInteg, State.tariff]

theorem faultInteg_ne_good (s : State) : s.faultInteg ≠ .good := by
  unfold State.faultInteg
  split <;> decide

theorem tariff_after_fault (n : Nat) (s : State) :
    (configFault ⟨.tariff, n⟩ s).st.tariff n = { s.tariff n with integ := s.faultInteg }
      ∧ ∀ m, m ≠ n → (configFault ⟨.tariff, n⟩ s).st.tariff m = s.tariff m := by
  rw [configFault_tariff]
  have ne : ({ s.tariff n with integ := s.faultInteg } : Tariff) ≠ {} := fun h =>
    faultInteg_ne_good s (congrArg Tariff.integ h)
  exact ⟨mapGet_mapSet_of_ne ne _ _, fun m hm => mapGet_mapSet_ne _ hm _⟩

theorem ReadDone.faultInteg {k : Nat} {s : State} {o : Out} (h : ReadDone k s o) : o.st.faultInteg = s.faultInteg := by
  unfold State.faultInteg
  rw [h.loader]

/-- An accumulator written behind its read: no other changes, and only the read touches the loader. -/
theorem ReadDone.put {k : Nat} {s : State} {o : Out} (h : ReadDone k s o) {a : Accumulator} (ha : a ≠ {}) :
    OnlyAcc k a s (o.also (putAcc k a)).st
      ∧ (o.also (putAcc k a)).evs = (if (s.acc k).checkGood = true then [] else [⟨.integrityFault, none⟩])
      ∧ Frame [.meter, .loader] s (o.also (putAcc k a)).st
      ∧ (o.also (putAcc k a)).st.loader = { s.loader with
          integrityFaults := if (s.acc k).checkGood = true then s.loader.integrityFaults
            else satInc s.loader.integrityFaults } :=
  ⟨OnlyAcc.putAcc ha h.rest, h.evs, h.frame.trans ((putAcc_frame k a _).mono (by decide)), h.loader⟩

theorem count_fault_ne (d : Descriptor) (a : Accumulator) : ({ a.count d with tariffFault := true } : Accumulator) ≠ {} :=
  fun h => Bool.noConfusion (congrArg Accumulator.tariffFault h)

/-- The tariff failed its check: the frame is counted but not rated. -/
theorem meterFrame_faulty_done {d : Descriptor} {s : State} (e : Port) (g : Option GroupTag)
    (good : (s.tariff d.tariffs[d.bcls.val]).integ = .good) (bad : (s.tariff d.tariffs[d.bcls.val]).checkGood = false) :
    let k := accKey d.tenant d.bcls
    let n := d.tariffs[d.bcls.val]
    let o := meterFrame d e g s
    OnlyAcc k { (s.readAcc k).count d with tariffFault := true } s o.st
      ∧ o.evs = (if (s.acc k).checkGood = true then [] else [⟨.integrityFault, none⟩]) ++ [⟨.integrityFault, none⟩]
      ∧ Frame [.meter, .tariffs, .loader] s o.st
      ∧ o.st.tariff n = { s.tariff n with integ := s.faultInteg } ∧ (∀ m, m ≠ n → o.st.tariff m = s.tariff m)
      ∧ o.st.loader = { s.faultLoader ⟨.tariff, n⟩ with
          integrityFaults := satInc (if (s.acc k).checkGood = true then s.loader.integrityFaults
            else satInc s.loader.integrityFaults) } := by
  intro k n o
  have read := testAcc_done k s
  obtain ⟨now, others⟩ := tariff_after_fault n (testAcc k s).st
  have fault := configFault_tariff n (testAcc k s).st
  have kept (j : Nat) : (configFault ⟨.tariff, n⟩ (testAcc k s).st).st.acc j = (testAcc k s).st.acc j :=
    acc_of_accs (congrArg Meter.accs ((configFault_frame _ _).meter (by decide))) j
  rw [show o = _ from meterFrame_faulty e g good bad]
  refine ⟨OnlyAcc.putAcc (count_fault_ne d _) fun j hj => (kept j).trans (read.rest j hj), ?_, ?_, ?_, fun m hm => ?_, ?_⟩
  · rw [← read.evs]
    rfl
  · have faulted : Frame [.meter, .tariffs, .loader] (testAcc k s).st (configFault ⟨.tariff, n⟩ (testAcc k s).st).st := by
      rw [fault]
      intro b hb
      cases b <;> first | rfl | simp at hb
    exact ((read.frame.mono (by decide)).trans faulted).trans ((putAcc_frame _ _ _).mono (by decide))
  · exact now.trans (by rw [read.tariff, read.faultInteg])
  · exact (others m hm).trans (read.tariff m)
  · have loader : (configFault ⟨.tariff, n⟩ (testAcc k s).st).st.loader = (testAcc k s).st.faultLoader ⟨.tariff, n⟩ := by
      rw [fault]
    refine loader.trans ?_
    unfold State.faultLoader
    rw [read.loader]

/-! ## Delivery (R63) -/

theorem floodDecision_ne_nil {l : List CopyPlan} : floodDecision l ≠ .copies [] := by
  unfold floodDecision
  split
  · exact fun h => by cases h
  · next h => exact fun k => h (by cases k; rfl)

theorem overX_ne_nil (s : State) (st : Station) (g : GroupTag) : s.overX st g ≠ .copies [] := by
  unfold State.overX
  split <;> exact fun h => by cases h

theorem overU_ne_nil (s : State) (b : Nat) : s.overU b ≠ .copies [] := by
  unfold State.overU
  split <;> exact fun h => by cases h

theorem uplinkPath_ne_nil (s : State) (d : Descriptor) : s.uplinkPath d ≠ .copies [] := by
  unfold State.uplinkPath
  split
  · split
    · exact overX_ne_nil s _ _
    · exact fun h => by cases h
  · exact overU_ne_nil s _

theorem decideHit_ne_nil (s : State) (d : Descriptor) (e : FwdEntry) : s.decideHit d e ≠ .copies [] := by
  have toward (h : Holder) : s.towardHolder d h ≠ .copies [] := by
    unfold State.towardHolder
    split
    · exact fun k => by cases k
    · split
      · exact overX_ne_nil s _ _
      · split
        · exact overX_ne_nil s _ _
        · exact fun k => by cases k
  unfold State.decideHit
  split
  · exact fun h => by cases h
  · split
    · exact fun h => by cases h
    · split
      · exact toward _
      · exact fun h => by cases h

/-- A frame classified here has a copy or is dropped (R58). -/
theorem decideFrame_ne_nil {d : Descriptor} {s : State} (tag : d.tag = none) : (decideFrame d s).1 ≠ .copies [] := by
  rw [decideFrame_edge tag]
  unfold decideEdge
  split <;> split
  · exact floodDecision_ne_nil
  · unfold decideBy
    dsimp only
    split
    · exact decideHit_ne_nil _ _ _
    · exact uplinkPath_ne_nil _ _
  · exact floodDecision_ne_nil
  · unfold decideBy
    dsimp only
    split
    · exact decideHit_ne_nil _ _ _
    · exact floodDecision_ne_nil

theorem deliver_drop (d : Descriptor) (octets : List Byte) (r : DropReason) (s : State) :
    deliver d octets (.drop r) s = reportNone d (countDrop d.ingress r s) := rfl

theorem deliver_nil (d : Descriptor) (octets : List Byte) (s : State) : deliver d octets (.copies []) s = .of s := rfl

theorem deliver_restrained {d : Descriptor} {octets : List Byte} {cs : List CopyPlan} {s : State} {r : DropReason}
    (ne : cs ≠ []) (h : s.restraintTest d = some r) : deliver d octets (.copies cs) s = restrainFrame d r s := by
  show offerCopies d octets cs s = _
  unfold offerCopies
  rw [if_neg ne, h]

theorem deliver_admitted {d : Descriptor} {octets : List Byte} {cs : List CopyPlan} {s : State} (ne : cs ≠ [])
    (h : s.restraintTest d = none) : deliver d octets (.copies cs) s = admitFrame d octets cs s := by
  show offerCopies d octets cs s = _
  unfold offerCopies
  rw [if_neg ne, h]

theorem admitFrame_some {d : Descriptor} {octets : List Byte} {cs : List CopyPlan} {s : State} {c : CopyPlan}
    (h : (admitCopies d octets cs s).1 = some c) :
    admitFrame d octets cs s = reportAdmitted d c.port c.tag (admitCopies d octets cs s).2 := by
  unfold admitFrame
  dsimp only
  rw [h]

theorem admitFrame_none {d : Descriptor} {octets : List Byte} {cs : List CopyPlan} {s : State}
    (h : (admitCopies d octets cs s).1 = none) :
    admitFrame d octets cs s = reportNone d (admitCopies d octets cs s).2 := by
  unfold admitFrame
  dsimp only
  rw [h]

theorem restraintTest_of_uplink {d : Descriptor} (h : 24 ≤ d.ingress.val) (s : State) : s.restraintTest d = none := by
  unfold State.restraintTest
  rw [asS_eq_none h]
  rfl

theorem restraintTest_of_server {d : Descriptor} {p : Fin 24} (h : d.ingress = sPort p) (s : State) :
    s.restraintTest d = s.restraintOutcome d.tenant := by
  unfold State.restraintTest
  rw [h, asS_sPort]
  rfl

theorem restraintOutcome_congr {s t : State} (hr : t.restraint = s.restraint) (hp : t.params = s.params) (x : Tenant) :
    t.restraintOutcome x = s.restraintOutcome x := by
  have listed : t.listedStart x = s.listedStart x := by rw [State.listedStart, hr, State.listedStart]
  have window : t.windowOpen = s.windowOpen := by
    funext n
    rw [State.windowOpen, hr, hp, State.windowOpen]
  unfold State.restraintOutcome
  rw [hr, listed, window]

/-- Settles O16: the meter by its reads, and the frame by what its decision and its admission bring. -/
theorem meteringFollowsColumnsAndFaults : Obligations.MeteringFollowsColumnsAndFaults := by
  unfold Obligations.MeteringFollowsColumnsAndFaults
  refine ⟨fun s d egress tag untagged tenant => ?_, fun s d egress tag foreign => ?_, fun s p l r e class_ table => ?_⟩
  · have metered : d.metered = true := metered_iff.2 ⟨untagged, tenant⟩
    intro k n tf rate counted faults faulted o v
    have read := testAcc_done k s
    have report : o = meterFrame d egress tag s := reportAdmitted_of_metered metered egress tag s
    have hcount : (s.readAcc k).count d = counted := count_eq d _
    have hrate : tf.rate (s.column d egress tag) = rate := column_rate s d egress tag tf
    have none : v = changeAcc k Accumulator.drop s := reportNone_of_metered metered s
    refine ⟨fun good check => ?_, fun bad => ?_, fun good bad => ?_, ?_⟩
    · have ne := Accumulator.count_rate_ne d tf.fee (tf.rate (s.column d egress tag)) d.length (s.readAcc k)
      have done := read.put ne
      rw [report, meterFrame_rated egress tag good check]
      rw [hcount, hrate] at done
      rw [hcount, show (s.tariff d.tariffs[d.bcls.val]).rate _ = rate from hrate]
      exact done
    · have done := read.put (count_fault_ne d (s.readAcc k))
      rw [report, meterFrame_unrated egress tag bad]
      rw [hcount] at done ⊢
      exact done
    · have done := meterFrame_faulty_done egress tag good bad
      rw [report, ← hcount]
      exact done
    · rw [none]
      exact changeAcc_done k Accumulator.drop_ne s
  · have silent : d.metered = false := not_metered_iff.2 foreign
    exact ⟨reportAdmitted_of_not silent egress tag s, reportNone_of_not silent s⟩
  · intro d u
    have taken : takeFrame p l s = deliver d (l.take (l.length - 4)) (decideFrame d u).1 u :=
      takeFrame_of_classified class_ table
    have run : exec (.frameReceived p l) s = done (deliver d (l.take (l.length - 4)) (decideFrame d u).1 u) :=
      congrArg done taken
    refine ⟨fun reason drop => ?_, fun cs copies free => ?_⟩
    · rw [run, drop]
      rfl
    · have ne : cs ≠ [] := fun nil => decideFrame_ne_nil (d := d) (s := u) rfl (by rw [copies, nil])
      have untested : u.restraintTest d = none := by
        by_cases low : 24 ≤ p.val
        · exact restraintTest_of_uplink low u
        · obtain ⟨-, frame, -⟩ := learnFrame_of_good (d := d) (src := frameSrc l) table
          have server : d.ingress = sPort ⟨p.val, by omega⟩ := rfl
          rw [restraintTest_of_server server,
            restraintOutcome_congr (frame.restraint (by decide)) (frame.params (by decide))]
          exact free.resolve_left low
      rw [run, copies, deliver_admitted ne untested]
      intro q
      exact ⟨fun c hc => congrArg done (admitFrame_some hc), fun hc => congrArg done (admitFrame_none hc)⟩

end Sys2Proof.Machine
end

section
/-! Frames through admission and meter (O6, O7, O13, O15). -/

namespace Sys2Proof.Machine

/-! ## One copy with room -/

theorem Enqueued.of_buffer {p : Port} {c : Cls} {x : Copy} {s s' t t' : State} (h : Enqueued p c x s t)
    (hs : s'.buffer = s.buffer) (ht : t'.buffer = t.buffer) : Enqueued p c x s' t' := by
  unfold Enqueued OnlyQueues State.tenantCells at *
  rw [hs, ht]
  exact h

theorem admitCopies_one {d : Descriptor} {octets : List Byte} {c : CopyPlan} {s : State} (takes : s.takesFrames c.port) :
    let n := if 28 ≤ c.port.val then d.length + 8 else d.length
    let x : Copy := { desc := some d, tag := c.tag, cells := (n + 255) / 256, length := n, octets := octets }
    s.hasRoom c.port d.tcls x.cells → 1 ≤ x.cells →
      ∃ t, Enqueued c.port d.tcls x s t ∧ Frame [.buffer] s t ∧ admitCopies d octets [c] s = (some c, t) := by
  intro n x room big
  have rules := copiesAreAdmittedInOrder
  unfold Obligations.CopiesAreAdmittedInOrder at rules
  obtain ⟨-, each⟩ := rules
  obtain ⟨-, admitted⟩ := each d octets c [] s
  exact admitted takes room big

/-- The copy of a frame on an S-port or U-port: the frame's own length, and at least one cell. -/
theorem admitCopies_plain {d : Descriptor} {octets : List Byte} {q : Port} {s : State} (takes : s.takesFrames q)
    (hq : q.val < 28) (long : 1 ≤ d.length) :
    let x : Copy := { desc := some d, tag := none, cells := (d.length + 255) / 256, length := d.length, octets := octets }
    s.hasRoom q d.tcls x.cells →
      ∃ t, Enqueued q d.tcls x s t ∧ Frame [.buffer] s t ∧ admitCopies d octets [⟨q, none⟩] s = (some ⟨q, none⟩, t) := by
  have one := admitCopies_one (d := d) (octets := octets) (c := ⟨q, none⟩) (s := s) takes
  dsimp only at one ⊢
  rw [if_neg (Nat.not_le.2 hq)] at one
  exact fun room => one room (by omega)

theorem takesFrames_of_edge {s : State} {q : Port} (acting : s.loader.phase = .joining ∨ s.loader.phase = .running)
    (hq : q.val < 28) (usable : s.isUsable q) : s.takesFrames q :=
  ⟨acting, fun k => absurd hq (Nat.not_lt.2 k), usable⟩

/-! ## A frame that the meter reads well -/

/-- Metering without a fault: one accumulator, no event. -/
theorem reportAdmitted_good {d : Descriptor} {s : State} (tag : d.tag = none) (tenant : d.tenant ≠ 0)
    (acc : (s.acc (accKey d.tenant d.bcls)).checkGood = true) (tariff : (s.tariff d.tariffs[d.bcls.val]).integ = .good)
    (check : (s.tariff d.tariffs[d.bcls.val]).checkGood = true) (e : Port) (g : Option GroupTag) :
    reportAdmitted d e g s = .of (putAcc (accKey d.tenant d.bcls) (((s.acc (accKey d.tenant d.bcls)).count d).rate
      (s.tariff d.tariffs[d.bcls.val]).fee ((s.tariff d.tariffs[d.bcls.val]).rate (s.column d e g)) d.length) s) := by
  rw [reportAdmitted_of_metered (metered_iff.2 ⟨tag, tenant⟩), meterFrame_rated e g tariff check, testAcc_good acc,
    readAcc_of_good acc, Out.of_also]

section

variable {s u t : State} {p : Port} {l : List Byte} {r : Rule} {e : TenantEntry}

theorem classifies_length (h : s.classifies p l r e) : 64 ≤ frameLength p l := by
  obtain ⟨-, ⟨long, -⟩, -⟩ := h
  exact long

theorem classifies_acting (h : s.classifies p l r e) : s.loader.phase = .joining ∨ s.loader.phase = .running := by
  obtain ⟨⟨acting, -⟩, -⟩ := h
  exact acting

theorem one_le_length (h : s.classifies p l r e) : 1 ≤ (edgeDescriptor p l r e s.params.deepHash).length := by
  have := classifies_length h
  exact (by omega : 1 ≤ frameLength p l)

/-- A classified frame with one plain copy: admitted from `u`, the state after its learn, then metered. -/
theorem frame_one_copy {d : Descriptor} (hd : d = edgeDescriptor p l r e s.params.deepHash) (long : 1 ≤ d.length)
    {q : Port} (hq : q.val < 28)
    (run : exec (.frameReceived p l) s = done (deliver d (l.take (l.length - 4)) (.copies [⟨q, none⟩]) u))
    (before : Frame [.fwd, .line] s u) (takes : u.takesFrames q) (free : u.restraintTest d = none)
    (rates : s.ratesGood r e) :
    let x : Copy :=
      { desc := some d, tag := none, cells := (d.length + 255) / 256, length := d.length, octets := l.take (l.length - 4) }
    s.hasRoom q r.tcls x.cells →
    ∃ t, exec (.frameReceived p l) s = .next t ∧ Enqueued q r.tcls x s t ∧ Frame [.buffer, .meter] u t
      ∧ (r.tenant = 0 → t.meter = s.meter)
      ∧ (r.tenant ≠ 0 → OnlyAcc (accKey r.tenant r.bcls) (((s.acc (accKey r.tenant r.bcls)).count d).rate
          (s.tariff e.tariffs[r.bcls.val]).fee ((s.tariff e.tariffs[r.bcls.val]).rate (s.column d q none)) d.length) s t) := by
  intro x room
  have tcls : d.tcls = r.tcls := by rw [hd]; rfl
  have room' : u.hasRoom q d.tcls x.cells := by
    unfold State.hasRoom
    rw [before.buffer (by decide), before.params (by decide), tcls]
    exact room
  obtain ⟨v, enqueued, buffer, admitted⟩ := admitCopies_plain takes hq long room'
  rw [tcls] at enqueued
  have delivered : deliver d (l.take (l.length - 4)) (.copies [⟨q, none⟩]) u = reportAdmitted d q none v := by
    rw [deliver_admitted (List.cons_ne_nil _ _) free, admitFrame_some (by rw [admitted]), admitted]
  rw [delivered] at run
  have meter : v.meter = s.meter := (buffer.meter (by decide)).trans (before.meter (by decide))
  by_cases tenant : r.tenant = 0
  · have silent : d.metered = false := not_metered_iff.2 (.inr (by rw [hd]; exact tenant))
    rw [reportAdmitted_of_not silent, done_of] at run
    exact ⟨v, run, enqueued.of_buffer (before.buffer (by decide)).symm rfl, buffer.mono (by decide), fun _ => meter,
      fun other => absurd tenant other⟩
  · obtain ⟨acc, tariff, check⟩ := rates.resolve_left tenant
    have sameAcc (k : Nat) : v.acc k = s.acc k := acc_of_accs (congrArg Meter.accs meter) k
    have sameTariff (n : Nat) : v.tariff n = s.tariff n := by
      rw [State.tariff, buffer.tariffs (by decide), before.tariffs (by decide), State.tariff]
    have sameColumn : v.column d q none = s.column d q none := by
      unfold State.column
      rw [buffer.load (by decide), before.load (by decide)]
    have metered : reportAdmitted d q none v = .of (putAcc (accKey r.tenant r.bcls)
        (((s.acc (accKey r.tenant r.bcls)).count d).rate (s.tariff e.tariffs[r.bcls.val]).fee
          ((s.tariff e.tariffs[r.bcls.val]).rate (s.column d q none)) d.length) v) := by
      have good := reportAdmitted_good (d := d) (s := v) (by rw [hd]; rfl) (by rw [hd]; exact tenant)
        (by rw [hd, sameAcc]; exact acc) (by rw [hd, sameTariff]; exact tariff) (by rw [hd, sameTariff]; exact check) q none
      rw [sameAcc, sameTariff, sameColumn] at good
      subst hd
      exact good
    rw [metered, done_of] at run
    refine ⟨_, run, enqueued.of_buffer (before.buffer (by decide)).symm rfl,
      (buffer.mono (by decide)).trans ((putAcc_frame _ _ _).mono (by decide)), fun none => absurd none tenant, fun _ => ?_⟩
    exact OnlyAcc.putAcc (Accumulator.count_rate_ne d _ _ _ _) fun j _ => sameAcc j

end

/-- Settles O6: the hit names the local port, and no restraint test stands in the way. -/
theorem spineFrameReachesTheServerPort : Obligations.SpineFrameReachesTheServerPort := by
  unfold Obligations.SpineFrameReachesTheServerPort
  intro s p l r e f q class_ uplink unicast good here hf hq usable n x room rates
  have low : p.val < 28 := class_.2.2.1
  let d := edgeDescriptor p l r e s.params.deepHash
  have long := one_le_length class_
  have hit : (decideFrame d s).1 = .copies [⟨sPort q, none⟩] := by
    rw [decideFrame_hit (d := d) rfl unicast good here hf]
    have other : ¬ f.localPort.map sPort = some d.ingress := by
      rw [hq]
      intro k
      have same := congrArg Fin.val (Option.some.inj k)
      have := sPort_lt q
      rw [show (sPort q).val = p.val from same] at this
      omega
    have found : f.localPort.filter (fun v => s.usable (sPort v)) = some q := by
      rw [hq, Option.filter_some, if_pos (usable_iff.2 usable)]
    dsimp only
    rw [State.decideHit, if_neg other, found]
  have run : exec (.frameReceived p l) s = done (deliver d (l.take (l.length - 4)) (.copies [⟨sPort q, none⟩]) s) := by
    rw [exec_frameReceived, takeFrame_of_classifies class_, learnFrame_of_uplink uplink, Out.of_andThen,
      forwardFrame_of_good (d := edgeDescriptor p l r e s.params.deepHash) good, hit]
    rfl
  obtain ⟨t, ht, enqueued, frame, none, some⟩ := frame_one_copy rfl long ((sPort_lt q).trans (by decide)) run (.refl _ s)
    (takesFrames_of_edge (classifies_acting class_) ((sPort_lt q).trans (by decide)) usable)
    (restraintTest_of_uplink uplink s) rates room
  refine ⟨t, ht, enqueued, frame, none, fun tenant => ?_⟩
  have only := some tenant
  rw [count_eq, if_pos ⟨uplink, low⟩, column_rate, if_pos ⟨uplink, low⟩] at only
  exact only

theorem uPort_injective {u v : Fin 4} (h : uPort u = uPort v) : u = v := by
  have := congrArg Fin.val h
  exact Fin.ext (by simpa [uPort] using this)

/-- Settles O7: the source is learned, the destination still misses, and the bucket's U-port is UP or DEGRADED. -/
theorem serverFrameTakesItsUplink : Obligations.ServerFrameTakesItsUplink := by
  unfold Obligations.ServerFrameTakesItsUplink
  intro s p l r e us u class_ unicast table miss other restraint share hus hu x room rates
  have length : frameLength (sPort p) l = l.length := by
    have := sPort_lt p
    simp [frameLength, show ¬ 28 ≤ (sPort p).val by omega]
  let d := edgeDescriptor (sPort p) l r e s.params.deepHash
  have long := one_le_length class_
  obtain ⟨-, before, -⟩ := learnFrame_of_good (d := d) (src := frameSrc l) table
  let v := (learnFrame d (frameSrc l) s).st
  have carriers : s.carriers = us := by
    rcases hus with rfl | ⟨none, rfl⟩
    · refine if_neg fun none => ?_
      rw [none] at hu
      cases hu
    · exact if_pos none
  have sameCarriers : v.carriers = s.carriers := by
    unfold State.carriers State.port
    rw [before.ports (by decide)]
  have usable : s.isUsable (uPort u) := by
    have mem : u ∈ us := List.mem_of_getElem? hu
    rcases hus with rfl | ⟨-, rfl⟩
    · exact .inl (by simpa using (List.mem_filter.1 mem).2)
    · exact .inr (by simpa using (List.mem_filter.1 mem).2)
  have missing : v.misses r.tenant (frameDst l) := by
    refine .inr ?_
    rcases miss with absent | waits
    · refine .inr ?_
      by_cases group : groupAddr (frameSrc l) = true
      · rw [show v = s from congrArg Out.st (learnFrame_of_group group)]
        exact absent
      · rw [show v = learnKey p r.tenant (frameSrc l) s from learnFrame_st table rfl (Bool.eq_false_iff.2 group)]
        exact learnKey_entryAt_other (Ne.symm other) absent
    · refine .inl ?_
      unfold State.refetching
      rwa [before.fixed (by decide)]
  have decision : (decideFrame d v).1 = .copies [⟨uPort u, none⟩] := by
    rw [decideFrame_uplink (d := d) rfl rfl unicast missing]
    have above : ¬ d.bucket < v.load.share := by
      rw [before.load (by decide)]
      exact Nat.not_lt.2 share
    dsimp only
    rw [State.uplinkPath, if_neg above]
    exact overU_of_some (by rw [sameCarriers, carriers]; exact hu)
  have run : exec (.frameReceived (sPort p) l) s =
      done (deliver d (l.take (l.length - 4)) (.copies [⟨uPort u, none⟩]) v) := by
    rw [exec_frameReceived, ← decision]
    exact congrArg done (takeFrame_of_classified class_ table)
  have takes : v.takesFrames (uPort u) := by
    have acting := classifies_acting class_
    rw [← before.loader (by decide)] at acting
    refine takesFrames_of_edge acting (uPort_lt u).2 ?_
    unfold State.isUsable State.port
    rwa [before.ports (by decide)]
  have free : v.restraintTest d = none := by
    rw [restraintTest_of_server (p := p) rfl, restraintOutcome_congr (before.restraint (by decide)) (before.params (by decide))]
    exact restraint
  have hx : x = ⟨some d, none, (d.length + 255) / 256, d.length, l.take (l.length - 4)⟩ := by
    simp only [x, d, edgeDescriptor, length]
  rw [hx] at room ⊢
  obtain ⟨t, ht, enqueued, frame, none, some⟩ := frame_one_copy rfl long (uPort_lt u).2 run before takes free rates room
  refine ⟨t, ht, enqueued, (before.mono (by decide)).trans (frame.mono (by decide)), none, fun tenant => ?_⟩
  have only := some tenant
  have server : ¬ (24 ≤ (edgeDescriptor (sPort p) l r e s.params.deepHash).ingress.val
      ∧ (edgeDescriptor (sPort p) l r e s.params.deepHash).ingress.val < 28) :=
    fun k => absurd (sPort_lt p) (Nat.not_lt.2 k.1)
  have peak : (∃ w : Fin 4, uPort u = uPort w ∧ s.load.peak[w.val] = true) ↔ s.load.peak[u.val] = true :=
    ⟨fun ⟨w, same, h⟩ => by rwa [uPort_injective same], fun h => ⟨u, rfl, h⟩⟩
  have rate : (s.tariff e.tariffs[r.bcls.val]).rate
        (s.column (edgeDescriptor (sPort p) l r e s.params.deepHash) (uPort u) Option.none) =
      if s.load.peak[u.val] then (s.tariff e.tariffs[r.bcls.val]).peak else (s.tariff e.tariffs[r.bcls.val]).base := by
    have notGroup : ¬ groupAddr (edgeDescriptor (sPort p) l r e s.params.deepHash).dst = true := Bool.eq_false_iff.1 unicast
    rw [column_rate, if_neg server, if_neg notGroup]
    by_cases h : s.load.peak[u.val] = true
    · rw [if_pos h, if_pos (peak.2 h)]
    · rw [if_neg h, if_neg (mt peak.1 h)]
      rfl
  have hlen : (edgeDescriptor (sPort p) l r e s.params.deepHash).length = l.length := length
  rw [count_eq, if_neg server, rate, hlen] at only
  exact only

/-! ## Frames from an X-port -/

theorem onward_of_some {s : State} {d : Descriptor} {g : GroupTag} {x : XIndex} (h : s.directX g.target = some x)
    (k : xPort x ≠ d.ingress) : s.onward d g = .copies [⟨xPort x, some (onwardTag d g)⟩] := by
  unfold State.onward
  rw [h]
  exact if_neg k

theorem onward_of_no_way {s : State} {d : Descriptor} {g : GroupTag} (h : ∀ x, s.directX g.target = some x → xPort x = d.ingress) :
    s.onward d g = .drop .noPath := by
  unfold State.onward
  cases k : s.directX g.target with
  | none => rfl
  | some x => exact if_pos (h x k)

theorem decideLocal_of_some {s : State} {f : FwdEntry} {q : Fin 24} (h : f.localPort = some q) (k : s.isUsable (sPort q)) :
    s.decideLocal (some f) = .copies [⟨sPort q, none⟩] := by
  unfold State.decideLocal
  rw [Option.bind_some, h, Option.filter_some, if_pos (usable_iff.2 k)]

theorem decideLocal_of_no_way {s : State} {r : Option FwdEntry} (h : ∀ f q, r = some f → f.localPort = some q → ¬ s.isUsable (sPort q)) :
    s.decideLocal r = .drop .noPath := by
  have filtered : ((r.bind (·.localPort)).filter fun p => s.usable (sPort p)) = none := by
    rw [Option.filter_eq_none_iff]
    intro q hq
    obtain ⟨f, hf, hl⟩ := Option.bind_eq_some_iff.1 hq
    exact mt usable_iff.1 (h f q hf hl)
  unfold State.decideLocal
  rw [filtered]

/-- A lookup whose bucket is good finds the key's entry, or misses. -/
theorem lookup_of_good_cases {s : State} {t : Tenant} {a : Addr} :
    (bucketFaulty (bucketOf t a) s = true ∨ s.refetching t a) ∧ (lookup t a s).1 = none ∨ (lookup t a s).1 = s.entryAt t a := by
  by_cases faulty : bucketFaulty (bucketOf t a) s = true
  · exact .inl ⟨.inl faulty, lookup_of_misses (.inl faulty)⟩
  · have good := Bool.eq_false_iff.2 faulty
    by_cases waits : s.refetching t a
    · exact .inl ⟨.inr waits, lookup_of_misses (.inr (.inl waits))⟩
    · exact .inr (congrArg Prod.fst (lookup_of_entryAt good waits))

theorem decideCross_rules {s : State} {d : Descriptor} {g : GroupTag} (tag : d.tag = some g) :
    (g.diverted = true →
        (∀ u, s.carriers[d.bucket % s.carriers.length]? = some u → (decideFrame d s).1 = .copies [⟨uPort u, none⟩])
          ∧ (s.carriers = [] → (decideFrame d s).1 = .drop .noPath))
      ∧ (g.diverted = false → g.flood = false → g.relay = true → g.target ≠ s.loader.station →
          (∀ x, s.directX g.target = some x → xPort x ≠ d.ingress →
            (decideFrame d s).1 = .copies [⟨xPort x, some (onwardTag d g)⟩])
          ∧ ((∀ x, s.directX g.target = some x → xPort x = d.ingress) → (decideFrame d s).1 = .drop .noPath))
      ∧ (g.diverted = false → g.flood = false → (g.relay = false ∨ g.target = s.loader.station) →
          (∀ f q, bucketFaulty (bucketOf d.tenant d.dst) s = false → ¬ s.refetching d.tenant d.dst →
              groupAddr d.dst = false → s.entryAt d.tenant d.dst = some f → f.localPort = some q →
              s.isUsable (sPort q) → (decideFrame d s).1 = .copies [⟨sPort q, none⟩])
          ∧ ((groupAddr d.dst = true ∨ bucketFaulty (bucketOf d.tenant d.dst) s = true ∨ s.refetching d.tenant d.dst
              ∨ ∀ f q, s.entryAt d.tenant d.dst = some f → f.localPort = some q → ¬ s.isUsable (sPort q)) →
              (decideFrame d s).1 = .drop .noPath)) := by
  refine ⟨fun diverted => ?_, fun straight single relay target => ?_, fun straight single here => ?_⟩
  · rw [decideFrame_diverted tag diverted]
    exact ⟨fun u hu => overU_of_some hu, fun empty => overU_of_nil empty⟩
  · rw [decideFrame_onward tag straight single relay target]
    exact ⟨fun x hx other => onward_of_some hx other, fun noWay => onward_of_no_way noWay⟩
  · rw [decideFrame_plain tag straight single here]
    refine ⟨fun f q good ready unicast hf hq usable => ?_, fun noWay => ?_⟩
    · rw [unicast, lookup_of_entryAt good ready, hf]
      exact decideLocal_of_some hq usable
    · dsimp only
      cases group : groupAddr d.dst with
      | true => exact decideLocal_of_no_way fun _ _ k => absurd k (by simp)
      | false =>
        rw [group] at noWay
        refine decideLocal_of_no_way fun f q hf hq => ?_
        have hf : (lookup d.tenant d.dst s).1 = some f := hf
        rcases noWay with no | faulty | waits | unusable
        · exact absurd no Bool.false_ne_true
        · rw [lookup_of_misses (.inl faulty)] at hf
          cases hf
        · rw [lookup_of_misses (.inr (.inl waits))] at hf
          cases hf
        · rcases lookup_of_good_cases (s := s) (t := d.tenant) (a := d.dst) with ⟨-, missed⟩ | found
          · rw [missed] at hf
            cases hf
          · exact unusable f q (found ▸ hf) hq

/-- The restraint test passes every frame from an X-port, and the meter every frame classified elsewhere. -/
theorem deliver_of_cross {d : Descriptor} {g : GroupTag} (tag : d.tag = some g) (ingress : 28 ≤ d.ingress.val)
    (octets : List Byte) (x : Decision) (s : State) :
    (∀ r, x = .drop r → deliver d octets x s = .of (countDrop d.ingress r s))
      ∧ ∀ cs, x = .copies cs → deliver d octets x s = .of (admitCopies d octets cs s).2 := by
  have silent : d.metered = false := not_metered_iff.2 (.inl (by simp [tag]))
  refine ⟨fun r hr => ?_, fun cs hcs => ?_⟩
  · rw [hr, deliver_drop, reportNone_of_not silent]
  · subst hcs
    cases cs with
    | nil => exact deliver_nil d octets s
    | cons c cs =>
      rw [deliver_admitted (List.cons_ne_nil _ _) (restraintTest_of_uplink (by omega) s)]
      cases h : (admitCopies d octets (c :: cs) s).1 with
      | none => rw [admitFrame_none h, reportNone_of_not silent]
      | some c' => rw [admitFrame_some h, reportAdmitted_of_not silent]

/-- Settles O13: the decision by the tag, and its delivery without restraint test and meter. -/
theorem crossFramesFollowTheirTag : Obligations.CrossFramesFollowTheirTag := by
  unfold Obligations.CrossFramesFollowTheirTag
  refine ⟨fun s d g tag => decideCross_rules tag, ?_⟩
  intro s p l e takes passes cross notHello straight marker valid other he ok check good d octets
  have run : exec (.frameReceived p l) s = done (deliver d octets (decideFrame d s).1 s) := by
    rw [exec_frameReceived, takeFrame_of_cross takes passes cross notHello,
      crossFrame_entry ⟨straight, marker, valid⟩ other (readTenant_good he ok check), forwardFrame_of_good (d := d) good]
    rfl
  obtain ⟨dropped, copied⟩ := deliver_of_cross (d := d) rfl cross octets (decideFrame d s).1 s
  refine ⟨fun r hr => ?_, fun cs hcs => ?_, fun c hc takesCopy => ?_⟩
  · rw [run, dropped r hr, done_of]
    exact congrArg Host.Outcome.next (congrArg (fun q => countDrop q r s) (show d.ingress = p from rfl))
  · rw [run, copied cs hcs, done_of]
  · intro n x room
    have long : 64 ≤ d.length := passes.1
    have cells : 1 ≤ x.cells := by
      have : d.length ≤ n := by
        simp only [n]
        split <;> omega
      exact (by omega : 1 ≤ (n + 255) / 256)
    obtain ⟨t, enqueued, frame, admitted⟩ := admitCopies_one takesCopy room cells
    refine ⟨t, ?_, enqueued, frame⟩
    rw [run, copied [c] hc, done_of, admitted]

/-! ## Restraint -/

theorem windowOpen_iff {s : State} {start : Nat} :
    s.windowOpen start = true ↔ ((s.restraint.slot : Int) - start) % 64 < s.params.window := by
  unfold State.windowOpen
  rw [decide_eq_true_iff]
  omega

theorem restraintOutcome_denied {s : State} {t : Tenant} (h : s.restraint.denied.contains t = true) :
    s.restraintOutcome t = some .denied := if_pos h

theorem restraintOutcome_restrained {s : State} {t : Tenant} {start : Nat} (h : s.restraint.denied.contains t = false)
    (listed : s.listedStart t = some start) (closed : ¬ ((s.restraint.slot : Int) - start) % 64 < s.params.window) :
    s.restraintOutcome t = some .restrained := by
  unfold State.restraintOutcome
  rw [if_neg (Bool.eq_false_iff.1 h), listed]
  exact if_neg (mt windowOpen_iff.1 closed)

/-- A restrained frame: one drop at the ingress port, one at the accumulator, which is marked. -/
theorem restrainFrame_done {d : Descriptor} {r : DropReason} {s : State} (tag : d.tag = none)
    (acc : d.tenant = 0 ∨ (s.acc (accKey d.tenant d.bcls)).checkGood = true) :
    let k := accKey d.tenant d.bcls
    ∃ t, restrainFrame d r s = .of t ∧ Frame [.ports, .meter] s t ∧ t.ports = (countDrop d.ingress r s).ports
      ∧ (d.tenant = 0 → t.meter = s.meter)
      ∧ (d.tenant ≠ 0 → OnlyAcc k { (s.acc k).drop with restrained := true } s t) := by
  intro k
  unfold restrainFrame
  have counted := countDrop_frame d.ingress r s
  by_cases tenant : d.tenant = 0
  · have silent : d.metered = false := not_metered_iff.2 (.inr tenant)
    refine ⟨countDrop d.ingress r s, ?_, counted.mono (by decide), rfl, fun _ => counted.meter (by decide),
      fun other => absurd tenant other⟩
    rw [reportNone_of_not silent, Out.of_andThen, flagRestrained_of_not silent]
  · have metered := metered_iff.2 ⟨tag, tenant⟩
    have good := acc.resolve_left tenant
    have sameAcc (j : Nat) : (countDrop d.ingress r s).acc j = s.acc j :=
      acc_of_accs (congrArg Meter.accs (counted.meter (by decide))) j
    let u := putAcc k (s.acc k).drop (countDrop d.ingress r s)
    have uAcc : u.acc k = (s.acc k).drop := acc_putAcc_of_ne (Accumulator.drop_ne _) k _
    have marked : ({ (s.acc k).drop with restrained := true } : Accumulator) ≠ {} :=
      fun h => Bool.noConfusion (congrArg Accumulator.restrained h : true = false)
    refine ⟨putAcc k { (s.acc k).drop with restrained := true } u, ?_,
      (counted.mono (by decide)).trans (((putAcc_frame k _ _).trans (putAcc_frame k _ u)).mono (by decide)), rfl,
      fun none => absurd none tenant, fun _ => .putAcc marked fun j hj => (acc_putAcc_ne hj _).trans (sameAcc j)⟩
    rw [reportNone_of_metered metered, changeAcc, testAcc_good (by rw [sameAcc]; exact good), Out.of_also, Out.of_andThen,
      flagRestrained_of_metered metered, changeAcc, sameAcc, testAcc_good (k := k) (s := u) (by rw [uAcc]; exact good),
      Out.of_also]
    exact congrArg Out.of (congrArg (fun a : Accumulator => putAcc k { a with restrained := true } u) uAcc)

/-- Settles O15: the frame is learned, decided, and refused by the restraint test. -/
theorem restrainedFrameIsRefused : Obligations.RestrainedFrameIsRefused := by
  unfold Obligations.RestrainedFrameIsRefused
  intro s p l r e cs class_ table d u decision acc k a
  obtain ⟨-, before, -⟩ := learnFrame_of_good (d := d) (src := frameSrc l) table
  have before : Frame [.fwd, .line] s u := before
  have sameAcc (j : Nat) : u.acc j = s.acc j := acc_of_accs (congrArg Meter.accs (before.meter (by decide))) j
  have tested : u.restraintTest d = s.restraintOutcome r.tenant :=
    (restraintTest_of_server (p := p) rfl u).trans
      (restraintOutcome_congr (before.restraint (by decide)) (before.params (by decide)) _)
  have refused {reason : DropReason} (h : s.restraintOutcome r.tenant = some reason) :
      ∃ t, exec (.frameReceived (sPort p) l) s = .next t ∧ Frame [.ports, .meter] u t
        ∧ t.ports = (countDrop (sPort p) reason s).ports
        ∧ (r.tenant = 0 → t.meter = s.meter) ∧ (r.tenant ≠ 0 → OnlyAcc k a s t) := by
    have ne : cs ≠ [] := by
      rintro rfl
      exact decideFrame_ne_nil rfl decision
    obtain ⟨t, ht, frame, ports, zero, other⟩ := restrainFrame_done (d := d) (r := reason) (s := u) rfl
      (acc.imp_right fun good => (congrArg Accumulator.checkGood (sameAcc _)).trans good)
    refine ⟨t, ?_, frame, ?_, fun tenant => (zero tenant).trans (before.meter (by decide)), fun tenant => ?_⟩
    · have taken : takeFrame (sPort p) l s = deliver d (l.take (l.length - 4)) (decideFrame d u).1 u :=
        takeFrame_of_classified class_ table
      rw [exec_frameReceived, taken, decision, deliver_restrained ne (tested.trans h), ht, done_of]
    · rw [ports]
      unfold countDrop setPort
      rw [before.ports (by decide)]
      rfl
    · have only := other tenant
      rw [sameAcc] at only
      obtain ⟨now, rest⟩ := only
      exact ⟨now, fun j hj => (rest j hj).trans (sameAcc j)⟩
  refine ⟨before, fun group => congrArg Out.st (learnFrame_of_group group), ?_⟩
  have taken (t : State) (ht : exec (.frameReceived (sPort p) l) s = .next t) : t = conclude (takeFrame (sPort p) l s) :=
    (Host.Outcome.next.inj ((exec_frameReceived (sPort p) l s).symm.trans ht)).symm
  have asRefused {reason : DropReason} (h : s.restraintOutcome r.tenant = some reason) :
      let t := conclude (takeFrame (sPort p) l s)
      Frame [.ports, .meter] u t ∧ OnlyPort (sPort p) s t
        ∧ t.port (sPort p) = { s.port (sPort p) with drops := (s.port (sPort p)).drops.bump reason }
        ∧ (r.tenant = 0 → t.meter = s.meter) ∧ (r.tenant ≠ 0 → OnlyAcc k a s t) := by
    obtain ⟨t, ht, frame, ports, meter⟩ := refused h
    obtain rfl := taken t ht
    have port (q : Port) : (conclude (takeFrame (sPort p) l s)).port q = (countDrop (sPort p) reason s).port q := by
      unfold State.port
      rw [ports]
    refine ⟨frame, fun q hq => (port q).trans (port_setPort_ne hq _ s), (port _).trans (port_setPort ..), meter⟩
  exact ⟨_, exec_frameReceived (sPort p) l s, fun denied => asRefused (restraintOutcome_denied denied),
    fun start free listed closed => asRefused (restraintOutcome_restrained free listed closed)⟩

end Sys2Proof.Machine
end

section
/-! The line's offers, the share window, the notice generators and the end of an interval (O35, O29, O27, O28). -/

namespace Sys2Proof.Machine

/-! ## Time -/

theorem reachTime_timeAt (u : Time) (s : State) : reachTime u s = { s with time := { s.time with now := s.timeAt u } } :=
  reachTime_eq u s

/-- A changed time base is a change of one block. -/
theorem frame_time (tb : TimeBase) (s : State) : Frame [.time] s { s with time := tb } := fun b hb => by
  cases b with
  | time => exact absurd (List.mem_singleton_self _) hb
  | _ => rfl

/-! ## The line's offers -/

theorem lineStarted_iff {s : State} : s.lineStarted = true ↔ s.loader.phase ≠ .loading ∧ s.loader.station ≠ 15#4 := by
  simp [State.lineStarted]

theorem exec_messageOffered (s : State) : exec .messageOffered s = .next (offerMessage s) := rfl

theorem offerMessage_of_not {s : State} (h : s.lineStarted = false ∨ s.line.quiet.isSome = true ∨ s.line.onLine.isSome = true) :
    offerMessage s = s := by
  refine if_neg fun k => ?_
  obtain ⟨started, quiet, onLine⟩ := k
  rcases h with h | h | h
  · simp [h] at started
  · simp [quiet] at h
  · simp [onLine] at h

theorem offerMessage_none {s : State} (h : s.line.lowest = none) : offerMessage s = s := by
  unfold offerMessage
  rw [h]
  exact ite_self _

theorem offerMessage_some {s : State} {m : TxMsg} {l : GroupLine} (started : s.lineStarted = true) (quiet : s.line.quiet = none)
    (onLine : s.line.onLine = none) (h : s.line.lowest = some (m, l)) :
    offerMessage s = { s with line := { l with onLine := some m } } := by
  unfold offerMessage
  rw [if_pos ⟨started, quiet, onLine⟩, h]

theorem exec_lineQuietEnd_none {s : State} (h : s.line.quiet = none) : exec .lineQuietEnd s = .next s := by
  show done (.of (endQuiet s)) = _
  rw [done_of]
  unfold endQuiet
  rw [h]

theorem exec_lineQuietEnd_some {s : State} {u : Time} (h : s.line.quiet = some u) :
    exec .lineQuietEnd s = .next { s with
      time := { s.time with now := s.timeAt u }, line := { s.line with quiet := none, discards := 0 } } := by
  show done (.of (endQuiet s)) = _
  rw [done_of]
  unfold endQuiet
  rw [h]
  dsimp only
  rw [reachTime_timeAt]

/-- Settles O35: the slots are asked in their order. -/
theorem lineOffersTheLowestSlot : Obligations.LineOffersTheLowestSlot := by
  unfold Obligations.LineOffersTheLowestSlot
  intro s put l none6
  refine ⟨fun idle => ?_, fun loaded numbered quiet onLine => ?_, exec_lineQuietEnd_none, fun u => exec_lineQuietEnd_some⟩
  · rw [exec_messageOffered]
    rcases idle with h | h | h | ⟨⟨link, hello, load, answers, reach, ending⟩, record⟩
    · rw [offerMessage_of_not (.inl h)]
    · rw [offerMessage_of_not (.inr (.inl h))]
    · rw [offerMessage_of_not (.inr (.inr h))]
    · rw [offerMessage_none]
      show l.lowest = none
      simp only [GroupLine.lowest, link, hello, load, answers, reach, ending, record]
  · have offered {m : TxMsg} {l' : GroupLine} (h : s.line.lowest = some (m, l')) : exec .messageOffered s = put l' m := by
      rw [exec_messageOffered, offerMessage_some (lineStarted_iff.2 ⟨loaded, numbered⟩) quiet onLine h]
    refine ⟨fun m link => offered ?_, fun m link hello => offered ?_, fun m link hello load => offered ?_,
      fun m ms link hello load answers => offered ?_, fun m link hello load answers reach => offered ?_,
      fun m link hello load answers reach ending => offered ?_, fun m none record => offered ?_⟩
    · show l.lowest = _
      simp only [GroupLine.lowest, link]
    · show l.lowest = _
      simp only [GroupLine.lowest, link, hello]
    · show l.lowest = _
      simp only [GroupLine.lowest, link, hello, load]
    · show l.lowest = _
      simp only [GroupLine.lowest, link, hello, load, answers]
    · show l.lowest = _
      simp only [GroupLine.lowest, link, hello, load, answers, reach]
    · show l.lowest = _
      simp only [GroupLine.lowest, link, hello, load, answers, reach, ending]
    · obtain ⟨link, hello, load, answers, reach, ending⟩ := none
      show l.lowest = _
      simp only [GroupLine.lowest, link, hello, load, answers, reach, ending, record]

/-! ## The share window -/

theorem other_other (c : Fin 2) : 1 - (1 - c) = c := by
  revert c
  decide

theorem other_ne (c : Fin 2) : 1 - c ≠ c := by
  revert c
  decide

theorem eq_or_other (a c : Fin 2) : a = c ∨ a = 1 - c := by
  revert a c
  decide

theorem slotEligible_iff {x : Channel} : x.slotEligible = true ↔ ∃ o, x.mayEnter o := by
  unfold Channel.slotEligible Channel.mayEnter
  cases x.outstanding <;> simp

theorem nextRecord_eq_none {s : State} (h : ∀ c o, ¬ (s.chan c).mayEnter o) : s.nextRecord = none := by
  have no (c : Fin 2) : (s.chan c).slotEligible = false := Bool.eq_false_iff.2 fun k => by
    obtain ⟨o, ho⟩ := slotEligible_iff.1 k
    exact h c o ho
  simp only [State.nextRecord, no]

theorem nextRecord_of_mayEnter {s : State} {c : Fin 2} {o : Outstanding} (h : (s.chan c).mayEnter o)
    (first : (∀ o', ¬ (s.chan (1 - c)).mayEnter o') ∨ (s.chan (1 - c)).priority < (s.chan c).priority
      ∨ ((s.chan (1 - c)).priority = (s.chan c).priority ∧ s.chans.nextFirst = c)) : s.nextRecord = some c := by
  have mine : (s.chan c).slotEligible = true := slotEligible_iff.2 ⟨o, h⟩
  have turn := eq_or_other s.chans.nextFirst c
  unfold State.nextRecord
  dsimp only
  by_cases other : (s.chan (1 - c)).slotEligible = true
  · have first := first.resolve_left fun none => by
      obtain ⟨o', ho'⟩ := slotEligible_iff.1 other
      exact none o' ho'
    rcases turn with turn | turn
    · rw [turn, mine, other]
      exact if_neg (by omega)
    · rw [turn, other_other, mine, other]
      exact if_pos (first.resolve_right fun ⟨_, same⟩ => other_ne c (turn.symm.trans same))
  · have other := Bool.eq_false_iff.2 other
    rcases turn with turn | turn
    · rw [turn, mine, other]
    · rw [turn, other_other, mine, other]

theorem fillRecord_of_not {s : State} (h : s.mayNotify = false ∨ s.line.wRecord.isSome = true ∨ s.line.sending 7 = true
    ∨ ∀ c o, ¬ (s.chan c).mayEnter o) : fillRecord s = s := by
  unfold fillRecord
  rcases h with h | h | h | h
  · simp [h]
  · simp [Option.isNone_eq_false_iff.2 h]
  · simp [h]
  · rw [nextRecord_eq_none h]
    exact ite_self _

theorem fillRecord_of_nextRecord {s : State} {c : Fin 2} {o : Outstanding} (notify : s.mayNotify = true)
    (free : s.line.wRecord = none) (idle : s.line.sending 7 = false) (next : s.nextRecord = some c)
    (ready : (s.chan c).outstanding = some o) :
    fillRecord s = setChan c (fun y => { y with outstanding := some { o with inSlot := true }, shareUsed := y.shareUsed + 1 })
      { s with
        line := { s.line with
          wRecord := some { dst := (s.chan c).dst, body := .record c (s.chan c).source o.seq o.records } }
        chans := { s.chans with nextFirst := 1 - c } } := by
  unfold fillRecord
  rw [if_pos (by simp [notify, free, idle]), next]
  dsimp only
  rw [ready]

/-- The state of a share window before slot 7 is filled. -/
def State.shareCleared (s : State) : State :=
  eachState (fun c => setChan c fun x => { x with shareUsed := 0 }) bothChans
    { s with time := { s.time with
        now := s.timeAt s.time.shareDue, shareDue := s.time.shareDue + BitVec.ofNat 48 1000 } }

theorem chan_shareCleared (s : State) (c : Fin 2) : s.shareCleared.chan c = { s.chan c with shareUsed := 0 } := by
  revert c
  refine Fin.forall_fin_two.2 ⟨?_, ?_⟩
  · unfold State.shareCleared bothChans
    simp only [eachState]
    rw [chan_setChan_ne (by decide), chan_setChan]
    rfl
  · unfold State.shareCleared bothChans
    simp only [eachState]
    rw [chan_setChan, chan_setChan_ne (by decide)]
    rfl

theorem takeShareWindow_eq (s : State) : takeShareWindow s = fillRecord s.shareCleared := by
  unfold takeShareWindow State.shareCleared
  dsimp only
  rw [reachTime_timeAt]
  rfl

/-- Settles O29: the choice of slot 7 in the state with both shares cleared. -/
theorem shareWindowLetsRecordsIn : Obligations.ShareWindowLetsRecordsIn := by
  unfold Obligations.ShareWindowLetsRecordsIn
  intro s
  have frame : Frame [.time, .chans] s s.shareCleared :=
    ((frame_time _ s).mono (by decide)).trans (.eachState (fun c t => (setChan_frame c _ t).mono (by decide)) _ _)
  have line : s.shareCleared.line = s.line := frame.line (by decide)
  have notify : s.shareCleared.mayNotify = s.mayNotify := rfl
  have ran : exec .shareWindow s = .next (fillRecord s.shareCleared) := by
    rw [← takeShareWindow_eq]
    rfl
  refine ⟨_, ran, ((fillRecord_frame s.shareCleared).time (by decide)).trans rfl,
    (frame.mono (by decide)).trans ((fillRecord_frame _).mono (by decide)), fun idle => ?_, fun may free sending c o enter first => ?_⟩
  · have same : fillRecord s.shareCleared = s.shareCleared := by
      refine fillRecord_of_not ?_
      rw [notify, line]
      refine idle.imp_right (Or.imp_right (Or.imp_right fun none c o => ?_))
      rw [chan_shareCleared]
      exact none c o
    rw [same]
    exact ⟨line, chan_shareCleared s⟩
  · have next : s.shareCleared.nextRecord = some c := by
      refine nextRecord_of_mayEnter (o := o) (by rw [chan_shareCleared]; exact enter) ?_
      rw [chan_shareCleared, chan_shareCleared]
      exact first
    obtain ⟨ready, -, -⟩ := enter
    have filled := fillRecord_of_nextRecord (notify.trans may) (by rw [line]; exact free) (by rw [line]; exact sending) next
      (o := o) (by rw [chan_shareCleared]; exact ready)
    rw [filled]
    refine ⟨?_, ?_, ?_, rfl⟩
    · show ({ s.shareCleared.line with wRecord := _ } : GroupLine) = _
      rw [line, chan_shareCleared]
    · rw [chan_setChan]
      show ({ s.shareCleared.chan c with outstanding := _, shareUsed := (s.shareCleared.chan c).shareUsed + 1 } : Channel) = _
      rw [chan_shareCleared]
    · rw [chan_setChan_ne (other_ne c)]
      exact chan_shareCleared s (1 - c)

end Sys2Proof.Machine
end

section
/-! The notice generators (O27). -/

namespace Sys2Proof.Machine

/-! ## The port hellos of one HELLO_DUE -/

/-- An X-port that takes frames and holds no port hello (R66, R117). -/
def State.wantsHello (s : State) (x : XIndex) : Bool := s.portReady (xPort x) && !(s.buffer.ports[xPort x]).helloWaits

theorem wantsHello_iff {s : State} {x : XIndex} :
    s.wantsHello x = true ↔ s.takesFrames (xPort x) ∧ (s.buffer.ports[xPort x]).helloWaits = false := by
  rw [State.wantsHello, Bool.and_eq_true, portReady_iff, Bool.not_eq_true']

theorem xPort_ne {x y : XIndex} (h : x ≠ y) : xPort x ≠ xPort y := fun k => h <| Fin.ext <| by
  have := congrArg Fin.val k
  simpa [xPort] using this

/-- What the turn of X-port `x` does at a HELLO_DUE. -/
structure HelloTurn (x : XIndex) (s t : State) : Prop where
  frame : Frame [.ports, .buffer] s t
  others : ∀ p, p ≠ xPort x → t.buffer.ports[p] = s.buffer.ports[p] ∧ t.port p = s.port p
  free : t.buffer.free = s.buffer.free - if s.wantsHello x = true then 1 else 0
  idle : s.wantsHello x = false → t.buffer.ports[xPort x] = s.buffer.ports[xPort x] ∧ t.port (xPort x) = s.port (xPort x)
  sent : s.wantsHello x = true → 0 < s.buffer.free →
    ((t.buffer.ports[xPort x]).classes[(3 : Cls)]).copies =
        ((s.buffer.ports[xPort x]).classes[(3 : Cls)]).copies ++ [s.portHello]
      ∧ t.port (xPort x) = s.port (xPort x)
  short : s.wantsHello x = true → s.buffer.free = 0 → t.buffer.ports[xPort x] = s.buffer.ports[xPort x]
    ∧ t.port (xPort x) = { s.port (xPort x) with drops := (s.port (xPort x)).drops.bump .poolEmpty }

theorem makePortHello_turn (x : XIndex) (s : State) : HelloTurn x s (makePortHello x s) := by
  have frame := makePortHello_frame x s
  by_cases wants : s.wantsHello x = true
  · obtain ⟨ready, none⟩ := Bool.and_eq_true_iff.1 wants
    have none : (s.buffer.ports[xPort x]).helloWaits = false := by simpa using none
    by_cases empty : s.buffer.free < 1
    · have e : makePortHello x s = countDrop (xPort x) .poolEmpty s := by
        unfold makePortHello
        rw [if_neg (by simp [ready]), if_neg (by rw [none]; exact Bool.false_ne_true), if_pos empty]
      rw [e] at frame ⊢
      refine ⟨frame, fun p hp => ⟨rfl, port_setPort_ne hp _ s⟩, ?_, fun no => absurd wants (by simp [no]),
        fun _ some => by omega, fun _ _ => ⟨rfl, port_setPort ..⟩⟩
      show s.buffer.free = _
      omega
    · have e : makePortHello x s = enqueueCopy (xPort x) 3 s.portHello s := by
        unfold makePortHello
        rw [if_neg (by simp [ready]), if_neg (by rw [none]; exact Bool.false_ne_true), if_neg empty]
      obtain ⟨free, queue, -, -, -, -, -, others, -⟩ : Enqueued (xPort x) 3 s.portHello s (makePortHello x s) := by
        rw [e]
        exact enqueueCopy_enqueued ready (by show 1 ≤ _; omega) (.inl (Nat.le_refl 1))
      have ports : (makePortHello x s).ports = s.ports := by
        rw [e]
        exact Frame.ports (enqueueCopy_frame (xPort x) 3 s.portHello s) (by decide)
      have port (p : Port) : (makePortHello x s).port p = s.port p := congrArg (fun u => u[p]) ports
      refine ⟨frame, fun p hp => ⟨others p hp, port p⟩, ?_, fun no => absurd wants (by simp [no]),
        fun _ _ => ⟨congrArg ClassQueue.copies queue, port _⟩, fun _ zero => by omega⟩
      have free : (makePortHello x s).buffer.free + 1 = s.buffer.free := free
      rw [if_pos wants]
      omega
  · have e : makePortHello x s = s := by
      unfold makePortHello
      cases ready : s.portReady (xPort x) with
      | false => rfl
      | true =>
        refine (if_neg (by simp)).trans (if_pos ?_)
        simpa [State.wantsHello, ready] using wants
    rw [e]
    exact ⟨.refl _ s, fun _ _ => ⟨rfl, rfl⟩, by rw [if_neg wants]; rfl, fun _ => ⟨rfl, rfl⟩, fun k => absurd k wants,
      fun k => absurd k wants⟩

theorem HelloTurn.takesFrames {x : XIndex} {s t : State} (h : HelloTurn x s t) {p : Port} (hp : p ≠ xPort x) :
    t.takesFrames p ↔ s.takesFrames p := by
  unfold State.takesFrames
  rw [h.frame.loader (by decide), h.frame.line (by decide), (h.others p hp).2]

theorem HelloTurn.wantsHello {x : XIndex} {s t : State} (h : HelloTurn x s t) {y : XIndex} (hy : y ≠ x) :
    t.wantsHello y = s.wantsHello y := by
  have := (h.takesFrames (xPort_ne hy))
  rw [Bool.eq_iff_iff, wantsHello_iff, wantsHello_iff, this, (h.others _ (xPort_ne hy)).1]

theorem HelloTurn.portHello {x : XIndex} {s t : State} (h : HelloTurn x s t) : t.portHello = s.portHello := by
  unfold State.portHello
  rw [h.frame.loader (by decide), h.frame.params (by decide)]

/-- How many X-ports of `xs` before `x` want a cell. -/
def State.cellsBefore (s : State) (xs : List XIndex) (x : XIndex) : Nat :=
  (xs.filter fun y => decide (y < x) && s.wantsHello y).length

/-- What the turns of X-ports in ascending order do at a HELLO_DUE. -/
structure HelloRound (xs : List XIndex) (s t : State) : Prop where
  others : ∀ p, (∀ x ∈ xs, p ≠ xPort x) → t.buffer.ports[p] = s.buffer.ports[p] ∧ t.port p = s.port p
  free : t.buffer.free = s.buffer.free - (xs.filter s.wantsHello).length
  idle : ∀ x ∈ xs, s.wantsHello x = false →
    t.buffer.ports[xPort x] = s.buffer.ports[xPort x] ∧ t.port (xPort x) = s.port (xPort x)
  sent : ∀ x ∈ xs, s.wantsHello x = true → s.cellsBefore xs x < s.buffer.free →
    ((t.buffer.ports[xPort x]).classes[(3 : Cls)]).copies =
        ((s.buffer.ports[xPort x]).classes[(3 : Cls)]).copies ++ [s.portHello]
      ∧ t.port (xPort x) = s.port (xPort x)
  short : ∀ x ∈ xs, s.wantsHello x = true → s.buffer.free ≤ s.cellsBefore xs x →
    t.buffer.ports[xPort x] = s.buffer.ports[xPort x]
      ∧ t.port (xPort x) = { s.port (xPort x) with drops := (s.port (xPort x)).drops.bump .poolEmpty }

section

variable {x : XIndex} {xs : List XIndex} {s t : State}

theorem cellsBefore_head (s : State) (above : ∀ y ∈ xs, x < y) : s.cellsBefore (x :: xs) x = 0 := by
  unfold State.cellsBefore
  rw [List.filter_cons_of_neg (by simp), List.length_eq_zero_iff, List.filter_eq_nil_iff]
  intro y hy
  have := above y hy
  simp [Fin.not_lt.2 this.le]

theorem cellsBefore_tail (turn : HelloTurn x s t) (above : ∀ y ∈ xs, x < y) {y : XIndex} (hy : y ∈ xs) :
    s.cellsBefore (x :: xs) y = t.cellsBefore xs y + if s.wantsHello x = true then 1 else 0 := by
  unfold State.cellsBefore
  have rest : xs.filter (fun z => decide (z < y) && s.wantsHello z) = xs.filter fun z => decide (z < y) && t.wantsHello z :=
    List.filter_congr fun z hz => by rw [turn.wantsHello (above z hz).ne']
  rw [List.filter_cons, rest, decide_eq_true (above y hy), Bool.true_and]
  split <;> rfl

theorem filter_tail (turn : HelloTurn x s t) (above : ∀ y ∈ xs, x < y) :
    ((x :: xs).filter s.wantsHello).length =
      (xs.filter t.wantsHello).length + if s.wantsHello x = true then 1 else 0 := by
  have rest : xs.filter s.wantsHello = xs.filter t.wantsHello :=
    List.filter_congr fun z hz => (turn.wantsHello (above z hz).ne').symm
  rw [List.filter_cons, rest]
  split <;> rfl

end

theorem makePortHellos_round {xs : List XIndex} (sorted : xs.Pairwise (· < ·)) (s : State) :
    HelloRound xs s (eachState makePortHello xs s) := by
  induction xs generalizing s with
  | nil =>
    exact ⟨fun _ _ => ⟨rfl, rfl⟩, rfl, fun x hx => absurd hx (by simp), fun x hx => absurd hx (by simp),
      fun x hx => absurd hx (by simp)⟩
  | cons x xs ih =>
    obtain ⟨above, sorted⟩ := List.pairwise_cons.1 sorted
    have turn := makePortHello_turn x s
    have round := ih sorted (makePortHello x s)
    have away : ∀ y ∈ xs, xPort x ≠ xPort y := fun y hy => xPort_ne (above y hy).ne
    have ne {y : XIndex} (hy : y ∈ xs) : y ≠ x := (above y hy).ne'
    have before {y : XIndex} (hy : y ∈ xs) := cellsBefore_tail turn above hy
    have head := cellsBefore_head s above
    obtain ⟨headQueue, headPort⟩ := round.others _ away
    refine ⟨fun p hp => ?_, ?_, fun y hy => ?_, fun y hy => ?_, fun y hy => ?_⟩
    · have later := round.others p fun y hy => hp y (List.mem_cons_of_mem _ hy)
      have now := turn.others p (hp x List.mem_cons_self)
      exact ⟨later.1.trans now.1, later.2.trans now.2⟩
    · have := turn.free
      rw [filter_tail turn above, show eachState makePortHello (x :: xs) s = _ from rfl, eachState, round.free, this]
      omega
    · rcases List.mem_cons.1 hy with rfl | hy
      · intro wants
        have now := turn.idle wants
        exact ⟨headQueue.trans now.1, headPort.trans now.2⟩
      · intro wants
        have later := round.idle y hy ((turn.wantsHello (ne hy)).trans wants)
        have now := turn.others _ (xPort_ne (ne hy))
        exact ⟨later.1.trans now.1, later.2.trans now.2⟩
    · rcases List.mem_cons.1 hy with rfl | hy
      · intro wants room
        have now := turn.sent wants (by omega)
        exact ⟨(congrArg (fun q : PortQueues => (q.classes[(3 : Cls)]).copies) headQueue).trans now.1, headPort.trans now.2⟩
      · intro wants room
        have free := turn.free
        have := before hy
        have later := round.sent y hy ((turn.wantsHello (ne hy)).trans wants) (by omega)
        have now := turn.others _ (xPort_ne (ne hy))
        rw [turn.portHello, now.1, now.2] at later
        exact later
    · rcases List.mem_cons.1 hy with rfl | hy
      · intro wants room
        have now := turn.short wants (by omega)
        exact ⟨headQueue.trans now.1, headPort.trans now.2⟩
      · intro wants room
        have free := turn.free
        have := before hy
        have later := round.short y hy ((turn.wantsHello (ne hy)).trans wants) (by omega)
        have now := turn.others _ (xPort_ne (ne hy))
        rw [now.1, now.2] at later
        exact later

theorem HelloRound.congr {xs : List XIndex} {s s' t t' : State} (h : HelloRound xs s t) (buffer : s.buffer = s'.buffer)
    (ports : s.ports = s'.ports) (wants : s.wantsHello = s'.wantsHello) (hello : s.portHello = s'.portHello)
    (buffer' : t.buffer = t'.buffer) (ports' : t.ports = t'.ports) : HelloRound xs s' t' := by
  have port (p : Port) : s.port p = s'.port p := congrArg (fun u => u[p]) ports
  have port' (p : Port) : t.port p = t'.port p := congrArg (fun u => u[p]) ports'
  have before (x : XIndex) : s.cellsBefore xs x = s'.cellsBefore xs x := by rw [State.cellsBefore, wants, State.cellsBefore]
  obtain ⟨others, free, idle, sent, short⟩ := h
  rw [buffer', buffer, wants] at free
  simp only [buffer', buffer, wants, port, port', before, hello] at others idle sent short
  exact ⟨others, free, idle, sent, short⟩

/-! ## LOAD_DUE -/

theorem mayNotify_iff {s : State} : s.mayNotify = true ↔ s.acting = true ∧ s.line.conflict = false := by
  simp [State.mayNotify]

theorem mayNotify_eq_false_iff {s : State} : s.mayNotify = false ↔ s.acting = false ∨ s.line.conflict = true := by
  rw [State.mayNotify, Bool.and_eq_false_iff, Bool.not_eq_false']

theorem composeLoad_of_mayNotify {s : State} (h : s.mayNotify = true) :
    composeLoad s = { s with line := { s.line with wLoad := some s.loadNow } } := by
  unfold composeLoad
  rw [if_pos h]
  rfl

theorem exec_loadDue_none {s : State} (h : s.time.loadDue = none) : exec .loadDue s = .next s := by
  show done (.of (takeLoadDue s)) = _
  rw [done_of]
  unfold takeLoadDue
  rw [h]

theorem exec_loadDue_some {s : State} {u : Time} (h : s.time.loadDue = some u) :
    exec .loadDue s = .next (composeLoad { s with time := { s.time with
      now := s.timeAt u, loadDue := some (u + BitVec.ofNat 48 (s.params.loadPeriod * 1000)) } }) := by
  show done (.of (takeLoadDue s)) = _
  rw [done_of]
  unfold takeLoadDue
  rw [h]
  dsimp only
  rw [reachTime_timeAt]
  rfl

/-! ## HELLO_DUE -/

theorem exec_helloDue_none {s : State} (h : s.time.helloDue = none) : exec .helloDue s = .next s := by
  show done (.of (takeHelloDue s)) = _
  rw [done_of]
  unfold takeHelloDue
  rw [h]

theorem exec_helloDue_some {s : State} {u : Time} (h : s.time.helloDue = some u) :
    exec .helloDue s = .next (composeHello (actHello { s with time := { s.time with
      now := s.timeAt u, helloDue := some (u + BitVec.ofNat 48 (s.params.helloPeriod * 1000)) } })) := by
  show done (.of (takeHelloDue s)) = _
  rw [done_of]
  unfold takeHelloDue
  rw [h]
  dsimp only
  rw [reachTime_timeAt]
  rfl

theorem countHello_loader (s : State) : (countHello s).loader = { s.loader with
    helloCount := s.loader.helloCount + 1
    phase := if s.loader.phase = .joining ∧ s.loader.helloCount + 1 = 3 then .running else s.loader.phase
    enteredAt := if s.loader.phase = .joining ∧ s.loader.helloCount + 1 = 3 then s.time.now else s.loader.enteredAt } := by
  unfold countHello
  dsimp only
  by_cases h : s.loader.phase = .joining ∧ s.loader.helloCount + 1 = 3
  · rw [if_pos h, if_pos h, if_pos h]
    rfl
  · rw [if_neg h, if_neg h, if_neg h]

theorem countHello_acting {s : State} (h : s.acting = true) : (countHello s).acting = true := by
  rw [acting_iff] at h ⊢
  rw [countHello_loader]
  dsimp only
  split
  · exact .inr rfl
  · exact h

theorem frame_loader (l : Loader) (s : State) : Frame [.loader] s { s with loader := l } := fun b hb => by
  cases b with
  | loader => exact absurd (List.mem_singleton_self _) hb
  | _ => rfl

theorem countHello_frame (s : State) : Frame [.loader] s (countHello s) := by
  unfold countHello
  dsimp only
  split
  · exact frame_loader _ s
  · exact frame_loader _ s

theorem countHello_takesFrames {s : State} (h : s.acting = true) (p : Port) :
    (countHello s).takesFrames p ↔ s.takesFrames p := by
  have now := acting_iff.1 (countHello_acting h)
  have frame := countHello_frame s
  unfold State.takesFrames State.port
  rw [frame.line (by decide), frame.ports (by decide)]
  exact and_congr_left fun _ => ⟨fun _ => acting_iff.1 h, fun _ => now⟩

theorem countHello_wantsHello {s : State} (h : s.acting = true) (x : XIndex) : (countHello s).wantsHello x = s.wantsHello x := by
  rw [Bool.eq_iff_iff, wantsHello_iff, wantsHello_iff, countHello_takesFrames h, (countHello_frame s).buffer (by decide)]

theorem portReady_of_line {s : State} {l : GroupLine} (h : l.conflict = s.line.conflict) (p : Port) :
    ({ s with line := l } : State).portReady p = s.portReady p := by
  unfold State.portReady State.inService
  rw [h]
  rfl

/-- What a LINK reports does not change with the messages of the line. -/
theorem linkNow_of_line {s : State} {l : GroupLine} (h : l.conflict = s.line.conflict) :
    ({ s with line := l } : State).linkNow = s.linkNow := by
  have bonds : ({ s with line := l } : State).bondUp = s.bondUp := by
    unfold State.bondUp
    congr 1
    funext acc p
    rw [portReady_of_line h]
    rfl
  unfold State.linkNow
  rw [bonds]
  rfl

/-- The state of an acted HELLO_DUE before its notices. -/
def State.helloPorts (s : State) : State := eachState makePortHello allX (countHello s)

theorem actHello_eq {s : State} (h : s.acting = true) : actHello s = periodicLink s.helloPorts := if_pos h

theorem makePortHellos_frame (s : State) : Frame [.ports, .buffer] (countHello s) s.helloPorts :=
  .eachState makePortHello_frame allX _

theorem helloPorts_round (s : State) : HelloRound allX (countHello s) s.helloPorts :=
  makePortHellos_round (by decide) (countHello s)

theorem helloPorts_frame (s : State) : Frame [.ports, .buffer, .loader] s s.helloPorts :=
  ((countHello_frame s).mono (by decide)).trans ((makePortHellos_frame s).mono (by decide))

theorem helloPorts_loader (s : State) : s.helloPorts.loader = (countHello s).loader :=
  (makePortHellos_frame s).loader (by decide)

theorem composeHello_wHello {s : State} (h : s.lineStarted = true) :
    (composeHello s).line.wHello = some (composeHello s).helloNow := by
  rw [composeHello_of_started h]
  rfl

theorem composeHello_wLink (s : State) : (composeHello s).line.wLink = s.line.wLink ∧ (composeHello s).linkNow = s.linkNow := by
  unfold composeHello
  split
  · exact ⟨rfl, linkNow_of_line rfl⟩
  · exact ⟨rfl, rfl⟩

theorem periodicLink_frame (s : State) : Frame [.line] s (periodicLink s) := by
  unfold periodicLink
  split
  · exact composeLink_frame s
  · exact .refl _ s

theorem periodicLink_wLink {s : State} :
    (s.loader.helloCount % 4 = 0 → s.mayNotify = true → (periodicLink s).line.wLink = some (periodicLink s).linkNow)
      ∧ (s.loader.helloCount % 4 ≠ 0 → (periodicLink s).line.wLink = s.line.wLink) := by
  unfold periodicLink
  refine ⟨fun fourth may => ?_, fun other => by rw [if_neg other]⟩
  rw [if_pos fourth, composeLink_of_mayNotify may]
  exact congrArg some (linkNow_of_line (s := s) rfl).symm

theorem actHello_frame (s : State) : Frame [.ports, .buffer, .loader, .line] s (actHello s) := by
  unfold actHello
  split
  · exact ((helloPorts_frame s).mono (by decide)).trans ((periodicLink_frame _).mono (by decide))
  · exact .refl _ s

/-- The HELLO of a HELLO_DUE, in every start state but LOADING. -/
theorem helloDue_wHello {s : State} (loaded : s.loader.phase ≠ .loading) (numbered : s.loader.station ≠ 15#4) :
    (composeHello (actHello s)).line.wHello = some (composeHello (actHello s)).helloNow := by
  refine composeHello_wHello (lineStarted_iff.2 ?_)
  cases acting : s.acting with
  | false =>
    rw [show actHello s = s by simp [actHello, acting]]
    exact ⟨loaded, numbered⟩
  | true =>
    rw [actHello_eq acting, (periodicLink_frame _).loader (by decide), helloPorts_loader]
    refine ⟨fun loading => ?_, by rw [countHello_loader]; exact numbered⟩
    rcases acting_iff.1 (countHello_acting acting) with h | h <;> simp [loading] at h

/-- What an acted HELLO_DUE leaves, but for the queues of its X-ports. -/
theorem helloDue_acting {s : State} (acting : s.acting = true) :
    let t := composeHello (actHello s)
    Frame [.line] s.helloPorts t
      ∧ ((s.loader.helloCount + 1) % 4 = 0 → s.line.conflict = false → t.line.wLink = some t.linkNow)
      ∧ ((s.loader.helloCount + 1) % 4 ≠ 0 → t.line.wLink = s.line.wLink) := by
  intro t
  have et : t = composeHello (periodicLink s.helloPorts) := congrArg composeHello (actHello_eq acting)
  have line : s.helloPorts.line = s.line := (helloPorts_frame s).line (by decide)
  have count : s.helloPorts.loader.helloCount = s.loader.helloCount + 1 := by rw [helloPorts_loader, countHello_loader]
  have nowActing : s.helloPorts.acting = true := by
    rw [acting_iff, helloPorts_loader, ← acting_iff]
    exact countHello_acting acting
  obtain ⟨fourth, other⟩ := periodicLink_wLink (s := s.helloPorts)
  obtain ⟨wLink, linkNow⟩ := composeHello_wLink (periodicLink s.helloPorts)
  rw [et, wLink, linkNow, ← count, ← line]
  exact ⟨(periodicLink_frame _).trans (composeHello_frame _),
    fun due quiet => fourth due (mayNotify_iff.2 ⟨nowActing, quiet⟩), other⟩

/-- Settles O27: the LOAD, and the HELLO after count, port hellos and periodic LINK. -/
theorem noticeGeneratorsCompose : Obligations.NoticeGeneratorsCompose := by
  unfold Obligations.NoticeGeneratorsCompose
  refine ⟨fun s => ⟨exec_loadDue_none, fun u due => ?_⟩, fun s => ⟨exec_helloDue_none, fun u due => ?_⟩⟩
  · intro tb
    rw [exec_loadDue_some due]
    exact ⟨fun acting quiet => congrArg Host.Outcome.next (composeLoad_of_mayNotify (mayNotify_iff.2 ⟨acting, quiet⟩)),
      fun still => congrArg Host.Outcome.next (composeLoad_of_not (mayNotify_eq_false_iff.2 still))⟩
  · let tb : TimeBase :=
      { s.time with now := s.timeAt u, helloDue := some (u + BitVec.ofNat 48 (s.params.helloPeriod * 1000)) }
    let s1 : State := { s with time := tb }
    have timed : Frame [.time] s s1 := frame_time tb s
    have hello := helloDue_wHello (s := s1)
    refine ⟨composeHello (actHello s1), exec_helloDue_some due, ?_, hello, fun still => ?_, fun acting => ?_⟩
    · exact ((composeHello_frame _).time (by decide)).trans ((actHello_frame s1).time (by decide))
    · rw [show actHello s1 = s1 from if_neg (by rw [show s1.acting = s.acting from rfl, still]; exact Bool.false_ne_true)]
      exact (timed.mono (by decide)).trans ((composeHello_frame s1).mono (by decide))
    · obtain ⟨noticed, link⟩ := helloDue_acting (s := s1) acting
      have counted : Frame [.loader] s1 (countHello s1) := countHello_frame s1
      have wants : (countHello s1).wantsHello = s.wantsHello := funext (countHello_wantsHello (s := s1) acting)
      have takes (x : XIndex) : s.wantsHello x = true ↔ s.takesFrames (xPort x) ∧ (s.buffer.ports[xPort x]).helloWaits = false :=
        wantsHello_iff
      have hello' : (countHello s1).portHello = s.portHello := by
        unfold State.portHello
        rw [counted.params (by decide), countHello_loader]
      have round : HelloRound allX s (composeHello (actHello s1)) :=
        (helloPorts_round s1).congr (counted.buffer (by decide)) (counted.ports (by decide)) wants hello'
          (noticed.buffer (by decide)).symm (noticed.ports (by decide)).symm
      have waits (x : XIndex) (h : ¬ s.takesFrames (xPort x) ∨ (s.buffer.ports[xPort x]).helloWaits = true) :
          s.wantsHello x = false := Bool.eq_false_iff.2 fun k => by
        obtain ⟨takesFrames, none⟩ := (takes x).1 k
        rcases h with h | h
        · exact h takesFrames
        · exact Bool.false_ne_true (none.symm.trans h)
      refine ⟨(timed.mono (by decide)).trans (((helloPorts_frame s1).mono (by decide)).trans (noticed.mono (by decide))),
        ?_, link.1, link.2, fun p hp => ?_, ?_, fun x => ?_⟩
      · rw [noticed.loader (by decide), helloPorts_loader, countHello_loader]
      · exact round.others p fun x _ k => absurd (xPort_ge x) (by rw [← k]; omega)
      · exact round.free
      · intro q before
        refine ⟨fun idle => ?_, fun free none room => ?_, fun free none room => ?_⟩
        · exact round.idle x (mem_allX x) (waits x idle)
        · exact round.sent x (mem_allX x) ((takes x).2 ⟨free, none⟩) room
        · exact round.short x (mem_allX x) ((takes x).2 ⟨free, none⟩) room

end Sys2Proof.Machine
end

section
/-! The close of an interval (O28). -/

namespace Sys2Proof.Machine

/-! ## Maps with changed values -/

theorem mapFind_map {α β : Type} (m : List (Nat × α)) (f : α → β) (k : Nat) :
    mapFind (m.map fun x => (x.1, f x.2)) k = (mapFind m k).map f := by
  induction m with
  | nil => rfl
  | cons y m ih =>
    rw [List.map_cons, mapFind, mapFind]
    split
    · rfl
    · exact ih

theorem mapWf_map {α β : Type} {m : List (Nat × α)} (wf : mapWf m = true) (f : α → β) :
    mapWf (m.map fun x => (x.1, f x.2)) = true := by
  induction m with
  | nil => rfl
  | cons y m ih =>
    obtain ⟨above, wf'⟩ := mapWf_cons.1 wf
    refine mapWf_cons.2 ⟨fun z hz => ?_, ih wf'⟩
    obtain ⟨x, hx, rfl⟩ := List.mem_map.1 hz
    exact above x hx

theorem keys_sorted {α : Type} {m : List (Nat × α)} (wf : mapWf m = true) : (m.map Prod.fst).Pairwise (· < ·) := by
  induction m with
  | nil => exact .nil
  | cons y m ih =>
    obtain ⟨above, wf'⟩ := mapWf_cons.1 wf
    refine List.pairwise_cons.2 ⟨fun k hk => ?_, ih wf'⟩
    obtain ⟨x, hx, rfl⟩ := List.mem_map.1 hk
    exact above x hx

/-! ## Reading every accumulator (R157) -/

/-- An accumulator after its read (R157). -/
def Accumulator.read (a : Accumulator) : Accumulator := if a.checkGood = true then a else { suspect := true }

/-- The accumulators after their reads. -/
def readAccs (accs : List (Nat × Accumulator)) : List (Nat × Accumulator) := accs.map fun x => (x.1, x.2.read)

/-- How many accumulators fail their check. -/
def faultsOf (accs : List (Nat × Accumulator)) : Nat := (accs.filter fun x => !x.2.checkGood).length

/-- The state after the reads of some accumulators, `accs` in all and `n` of them faulty. -/
def State.readTo (s : State) (accs : List (Nat × Accumulator)) (n : Nat) : State :=
  { s with
    meter := { s.meter with accs := accs }
    loader := { s.loader with integrityFaults := satInc^[n] s.loader.integrityFaults } }

theorem testAccs_eq {before after : List (Nat × Accumulator)} {s : State} (accs : s.meter.accs = before ++ after)
    (wf : mapWf s.meter.accs = true) :
    eachOut testAcc (after.map Prod.fst) s =
      ⟨s.readTo (before ++ readAccs after) (faultsOf after), List.replicate (faultsOf after) ⟨.integrityFault, none⟩⟩ := by
  induction after generalizing before s with
  | nil =>
    show Out.of s = ⟨{ s with meter := { s.meter with accs := before ++ [] }, loader := s.loader }, []⟩
    rw [← accs]
    rfl
  | cons y after ih =>
    obtain ⟨k, a⟩ := y
    have here : s.acc k = a := by
      unfold State.acc mapGet
      rw [accs, mapFind_middle (accs ▸ wf)]
      rfl
    rw [List.map_cons, eachOut]
    cases good : a.checkGood with
    | true =>
      have read : a.read = a := if_pos good
      rw [testAcc_good (by rw [here]; exact good), Out.of_andThen,
        ih (before := before ++ [(k, a)]) (by rw [accs, List.append_assoc]; rfl) wf]
      simp [readAccs, faultsOf, read, good]
    | false =>
      have read : a.read = { suspect := true } := if_neg (by simp [good])
      have put : (putAcc k { suspect := true } s).meter.accs = before ++ (k, { suspect := true }) :: after := by
        unfold putAcc mapSet
        rw [accs, if_neg (by decide)]
        exact mapInsert_middle (accs ▸ wf)
      have wf' : mapWf (putAcc k { suspect := true } s).meter.accs = true := by
        unfold putAcc
        exact mapSet_wf (d := ({} : Accumulator)) (m := s.meter.accs) wf k { suspect := true }
      have faults : faultsOf ((k, a) :: after) = faultsOf after + 1 := by simp [faultsOf, good]
      have next := ih (before := before ++ [(k, { suspect := true })]) (s := (integrityFault (putAcc k { suspect := true } s)).st)
        (by rw [List.append_assoc]; exact put) wf'
      rw [testAcc_bad (by rw [here]; exact good), Out.andThen_eq, next, faults]
      simp only [readAccs, List.map_cons, read, List.append_assoc]
      rfl

/-! ## The records and the cleared accumulators (R161) -/

theorem closeRecords_eq {accs : List (Nat × Accumulator)} (wf : mapWf accs = true) (keys : ∀ x ∈ accs, x.1 < 1024) :
    closeRecords accs = ((List.range 1024).filter fun k => (mapGet {} accs k).recorded).map
      fun k => recordOf k (mapGet {} accs k) := by
  have get {x : Nat × Accumulator} (hx : x ∈ accs) : mapGet {} accs x.1 = x.2 := by
    rw [mapGet, mapFind_of_mem wf hx]
    rfl
  have same : (accs.filter fun x => x.2.recorded).map Prod.fst = (List.range 1024).filter fun k => (mapGet {} accs k).recorded := by
    refine eq_of_sorted_of_mem (f := id) ((keys_sorted wf).sublist (List.filter_sublist.map _))
      (List.pairwise_lt_range.filter _) fun k => ⟨fun hk => ?_, fun hk => ?_⟩
    · obtain ⟨x, hx, rfl⟩ := List.mem_map.1 hk
      obtain ⟨hx, recorded⟩ := List.mem_filter.1 hx
      exact List.mem_filter.2 ⟨List.mem_range.2 (keys x hx), by rw [get hx]; exact recorded⟩
    · obtain ⟨-, recorded⟩ := List.mem_filter.1 hk
      cases found : mapFind accs k with
      | none =>
        rw [mapGet, found] at recorded
        exact absurd recorded (by decide)
      | some a =>
        rw [mapGet, found] at recorded
        exact List.mem_map.2 ⟨(k, a), List.mem_filter.2 ⟨mem_of_mapFind found, recorded⟩, rfl⟩
  rw [← same, List.map_map]
  exact List.map_congr_left fun x hx => by
    show recordOf x.1 x.2 = recordOf x.1 (mapGet {} accs x.1)
    rw [get (List.mem_filter.1 hx).1]

theorem mapGet_readAccs (s : State) (k : Nat) : mapGet {} (readAccs s.meter.accs) k = s.readAcc k := by
  unfold readAccs State.readAcc State.acc mapGet
  rw [mapFind_map]
  cases mapFind s.meter.accs k <;> rfl

theorem closeRecords_read {s : State} (wf : mapWf s.meter.accs = true) (keys : ∀ x ∈ s.meter.accs, x.1 < 1024) :
    closeRecords (readAccs s.meter.accs) = s.recordsRead := by
  have keys' : ∀ x ∈ readAccs s.meter.accs, x.1 < 1024 := fun x hx => by
    obtain ⟨y, hy, rfl⟩ := List.mem_map.1 hx
    exact keys y hy
  rw [closeRecords_eq (accs := readAccs s.meter.accs) (mapWf_map wf _) keys', State.recordsRead]
  simp only [mapGet_readAccs]

/-- The state after a close, all accumulators read and `n` of them faulty. -/
def State.closed (s : State) : State :=
  { s with
    meter := { s.meter with
      accs := clearAccs (readAccs s.meter.accs), number := s.meter.number + 1, span := 1, marks := 0, opened := s.time.now
      queue := s.meter.queue ++ [{ number := s.meter.number, span := s.meter.span, opened := s.meter.opened
                                   closed := s.time.now, marks := s.meter.marks, records := s.recordsRead }] }
    loader := { s.loader with integrityFaults := satInc^[faultsOf s.meter.accs] s.loader.integrityFaults } }

theorem closeInterval_eq {s : State} (wf : mapWf s.meter.accs = true) (keys : ∀ x ∈ s.meter.accs, x.1 < 1024) :
    closeInterval s = ⟨s.closed, List.replicate (faultsOf s.meter.accs) ⟨.integrityFault, none⟩ ++ [⟨.intervalClosed, none⟩]⟩ := by
  unfold closeInterval
  rw [testAccs_eq (before := []) rfl wf, Out.andThen_eq]
  unfold State.closed
  rw [← closeRecords_read wf keys]
  rfl

theorem acc_closed {s : State} (wf : mapWf s.meter.accs = true) (k : Nat) :
    s.closed.acc k = { residue := (s.readAcc k).residue } := by
  rw [← mapGet_readAccs]
  exact mapGet_clearAccs (mapWf_map wf _) k

theorem closed_frame (s : State) : Frame [.meter, .loader] s s.closed := fun b hb => by
  cases b with
  | meter => exact absurd (by simp) hb
  | loader => exact absurd (by simp) hb
  | _ => rfl

/-! ## INTERVAL_END -/

theorem exec_intervalEnd_none {s : State} (h : s.time.intervalDue = none) : exec .intervalEnd s = .next s := by
  show done (takeIntervalEnd s) = _
  unfold takeIntervalEnd
  rw [h]
  rfl

theorem exec_intervalEnd_some {s : State} {u : Time} (h : s.time.intervalDue = some u) :
    exec .intervalEnd s = done (boundary { s with time := { s.time with
      now := s.timeAt u, intervalDue := some (u + BitVec.ofNat 48 (s.params.billing * 1000000)) } }) := by
  show done (takeIntervalEnd s) = _
  unfold takeIntervalEnd
  rw [h]
  dsimp only
  rw [reachTime_timeAt]
  rfl

/-- Settles O28: the boundary at the moment that is due. -/
theorem intervalEndClosesOrDefers : Obligations.IntervalEndClosesOrDefers := by
  unfold Obligations.IntervalEndClosesOrDefers
  refine fun s => ⟨exec_intervalEnd_none, fun u due => ?_⟩
  intro tb
  rw [exec_intervalEnd_some due]
  let s1 : State := { s with time := tb }
  refine ⟨fun still => ?_, fun acting full => ?_, fun acting room last wf keys => ?_⟩
  · rw [boundary_of_not_acting (s := s1) still]
    rfl
  · have held : s1.closes = false := Bool.eq_false_iff.2 fun closes => by
      obtain ⟨room, last⟩ := State.closes_iff.1 closes
      exact full.elim (fun two => absurd room (Nat.not_lt.2 two)) last
    rw [boundary_of_deferred (s := s1) acting held]
    rfl
  · have closes : s1.closes = true := State.closes_iff.2 ⟨room, last⟩
    have run : boundary s1 = closeInterval s1 := by
      unfold boundary
      rw [if_pos (show s1.acting = true from acting), if_pos closes]
    intro faults
    refine ⟨s1.closed, ?_, ((frame_time tb s).mono (by decide)).trans ((closed_frame s1).mono (by decide)), rfl, rfl, rfl,
      acc_closed (s := s1) wf⟩
    rw [run, closeInterval_eq (s := s1) wf keys]
    rfl

end Sys2Proof.Machine
end

section
/-! The cyclic checks (O53): shifting a register after all bits of an octet were added at its end is the bit-serial check. -/

namespace Sys2Proof.Machine

/-! ## One shift -/

theorem withNat_eq {α : Type} (n : Nat) (f : Nat → α) : withNat n f = f n := by
  cases n <;> rfl

section

variable {w : Nat} (p : BitVec w)

/-- A register after one shift without an input bit. -/
def shiftUp (r : BitVec w) : BitVec w := stepUp p r false

theorem shiftUp_xor (a b : BitVec w) : shiftUp p (a ^^^ b) = shiftUp p a ^^^ shiftUp p b := by
  have split (r : BitVec w) : shiftUp p r = r <<< 1 ^^^ (if r.msb then p else 0#w) := by
    unfold shiftUp stepUp
    cases r.msb <;> simp
  have mask : (if (a ^^^ b).msb then p else 0#w) = (if a.msb then p else 0#w) ^^^ (if b.msb then p else 0#w) := by
    rw [BitVec.msb_xor]
    cases a.msb <;> cases b.msb <;> simp
  rw [split, split, split, mask, BitVec.shiftLeft_xor_distrib]
  ac_rfl

/-- The bit that leaves first. -/
def topBit (w : Nat) (b : Bool) : BitVec w := if b then BitVec.twoPow w (w - 1) else 0

theorem getLsbD_topBit (b : Bool) (i : Nat) : (topBit w b).getLsbD i = (b && decide (i < w) && decide (i = w - 1)) := by
  cases b with
  | false => simp [topBit]
  | true =>
    simp only [topBit, if_true, BitVec.getLsbD_twoPow, Bool.true_and]
    by_cases h : i < w <;> by_cases k : i = w - 1 <;> simp [h, k] <;> omega

/-- An input bit acts as if it were added to the bit that leaves. -/
theorem stepUp_eq (hw : 0 < w) (r : BitVec w) (b : Bool) : stepUp p r b = shiftUp p (r ^^^ topBit w b) := by
  have msb : (topBit w b).msb = b := by
    rw [BitVec.msb_eq_getLsbD_last, getLsbD_topBit]
    simp [hw]
  have gone : topBit w b <<< 1 = 0#w := by
    refine BitVec.eq_of_getLsbD_eq fun i hi => ?_
    rw [BitVec.getLsbD_shiftLeft, getLsbD_topBit]
    simp
    omega
  unfold shiftUp stepUp
  rw [BitVec.msb_xor, msb, BitVec.shiftLeft_xor_distrib, gone, BitVec.xor_zero]
  simp

theorem shiftUp_ushiftRight (r : BitVec w) (h : r.getLsbD 0 = false) : shiftUp p (r >>> 1) = r := by
  have msb : (r >>> 1).msb = false := by
    rw [BitVec.msb_eq_getLsbD_last, BitVec.getLsbD_ushiftRight, BitVec.getLsbD_of_ge _ _ (by omega)]
  unfold shiftUp stepUp
  rw [msb]
  refine BitVec.eq_of_getLsbD_eq fun i hi => ?_
  cases i with
  | zero => simp [h]
  | succ i => simp [hi, Nat.add_comm]

/-! ## All bits of an octet at once -/

/-- Bits at the end of the register that leaves first. -/
def placeBits : List Bool → BitVec w
  | [] => 0
  | b :: bs => topBit w b ^^^ placeBits bs >>> 1

theorem getLsbD_placeBits (bs : List Bool) {i : Nat} (hi : i < w) :
    (placeBits bs : BitVec w).getLsbD i = bs.getD (w - 1 - i) false := by
  induction bs generalizing i with
  | nil => simp [placeBits]
  | cons b bs ih =>
    rw [placeBits, BitVec.getLsbD_xor, getLsbD_topBit, BitVec.getLsbD_ushiftRight]
    by_cases last : i = w - 1
    · subst last
      rw [BitVec.getLsbD_of_ge _ _ (by omega)]
      simp [hi]
    · rw [ih (by omega), show w - 1 - i = (w - 1 - (1 + i)) + 1 by omega]
      simp [last]

theorem foldl_stepUp (hw : 0 < w) (bs : List Bool) (short : bs.length ≤ w) (r : BitVec w) :
    bs.foldl (stepUp p) r = (shiftUp p)^[bs.length] (r ^^^ placeBits bs) := by
  induction bs generalizing r with
  | nil => simp [placeBits]
  | cons b bs ih =>
    have short' : bs.length + 1 ≤ w := short
    have low : (placeBits bs : BitVec w).getLsbD 0 = false := by
      rw [getLsbD_placeBits bs hw, List.getD_eq_default _ _ (by omega)]
    rw [List.foldl_cons, ih (by omega), List.length_cons, Function.iterate_succ_apply, placeBits, ← BitVec.xor_assoc,
      shiftUp_xor, shiftUp_ushiftRight p _ low, ← stepUp_eq p hw]

theorem placeBits_bitsUp (hw : 8 ≤ w) (b : Byte) : (placeBits (bitsUp b) : BitVec w) = b.setWidth w <<< (w - 8) := by
  refine BitVec.eq_of_getLsbD_eq fun i hi => ?_
  rw [getLsbD_placeBits _ hi, BitVec.getLsbD_shiftLeft, BitVec.getLsbD_setWidth]
  by_cases low : i < w - 8
  · rw [List.getD_eq_default _ _ (by simp [bitsUp]; omega)]
    simp [low]
  · have : w - 1 - i < 8 := by omega
    have e : 7 - (w - 1 - i) = i - (w - 8) := by omega
    simp [bitsUp, List.getD, this, e, low, hi]
    omega

end

/-! ## The model's registers -/

section

variable {w : Nat} (p : BitVec w)

theorem shiftUp_toNat (r : BitVec w) :
    (shiftUp p r).toNat = if r.toNat < 2 ^ (w - 1) then 2 * r.toNat else (2 * r.toNat - 2 ^ w) ^^^ p.toNat := by
  have hr := r.isLt
  have shifted : (r <<< 1).toNat = 2 * r.toNat % 2 ^ w := by
    rw [BitVec.toNat_shiftLeft, Nat.shiftLeft_eq]
    ring_nf
  unfold shiftUp stepUp
  rw [BitVec.msb_eq_decide]
  cases w with
  | zero =>
    have : r.toNat = 0 := by simpa using hr
    simp [this]
  | succ w =>
    have pow : 2 ^ (w + 1) = 2 * 2 ^ w := by ring
    rw [Nat.add_sub_cancel]
    by_cases low : r.toNat < 2 ^ w
    · rw [if_neg (by simpa using low), if_pos low, shifted, Nat.mod_eq_of_lt (by omega)]
    · rw [if_pos (by simpa using Nat.not_lt.1 low), if_neg low, BitVec.toNat_xor, shifted, Nat.mod_eq_sub_mod (by omega),
        Nat.mod_eq_of_lt (by omega)]

theorem crcShiftUp_toNat (n : Nat) (r : BitVec w) : crcShiftUp w p.toNat n r.toNat = ((shiftUp p)^[n] r).toNat := by
  induction n generalizing r with
  | zero => rfl
  | succ n ih => rw [crcShiftUp, withNat_eq, ← shiftUp_toNat, ih, Function.iterate_succ_apply]

theorem xor_octet_toNat (hw : 8 ≤ w) (r : BitVec w) (b : Byte) :
    r.toNat ^^^ (b.toNat * 2 ^ (w - 8)) = (r ^^^ placeBits (bitsUp b)).toNat := by
  have hb := b.isLt
  have pow : 2 ^ w = 2 ^ 8 * 2 ^ (w - 8) := by rw [← pow_add, Nat.add_sub_cancel' hw]
  have fits : b.toNat * 2 ^ (w - 8) < 2 ^ w := by
    rw [pow]
    exact Nat.mul_lt_mul_of_pos_right hb (by positivity)
  have octet : (b.setWidth w).toNat = b.toNat :=
    (BitVec.toNat_setWidth ..).trans (Nat.mod_eq_of_lt (hb.trans_le (Nat.pow_le_pow_right (by decide) hw)))
  rw [placeBits_bitsUp hw, BitVec.toNat_xor, BitVec.toNat_shiftLeft, octet, Nat.shiftLeft_eq, Nat.mod_eq_of_lt fits]

theorem length_bitsUp (b : Byte) : (bitsUp b).length = 8 := by simp [bitsUp]

/-- The octet-wise check, most significant bit first, is the bit-serial one. -/
theorem crcUp_toNat (hw : 8 ≤ w) (octets : List Byte) (r : BitVec w) :
    crcUp w p.toNat octets r.toNat = ((octets.flatMap bitsUp).foldl (stepUp p) r).toNat := by
  induction octets generalizing r with
  | nil => rfl
  | cons b octets ih =>
    rw [crcUp, withNat_eq, xor_octet_toNat hw, crcShiftUp_toNat, ih, List.flatMap_cons, List.foldl_append,
      foldl_stepUp p (by omega) (bitsUp b) (by rw [length_bitsUp]; exact hw), length_bitsUp]

end

/-! ## The reflected register -/

section

variable {w : Nat} (p : BitVec w)

theorem shiftUp_reverse_toNat (r : BitVec w) :
    (shiftUp p r).reverse.toNat =
      if r.reverse.toNat % 2 = 1 then r.reverse.toNat / 2 ^^^ p.reverse.toNat else r.reverse.toNat / 2 := by
  have low : (r.reverse.toNat % 2 = 1) ↔ r.msb = true := by
    have : r.reverse.getLsbD 0 = r.msb := by rw [BitVec.getLsbD_reverse]; rfl
    rw [← this, BitVec.getLsbD, Nat.testBit_zero, decide_eq_true_iff]
  have half : (r <<< 1).reverse = r.reverse >>> 1 := by
    refine BitVec.eq_of_getLsbD_eq fun i hi => ?_
    rw [BitVec.getLsbD_ushiftRight, BitVec.getLsbD_reverse, BitVec.getLsbD_reverse, BitVec.getMsbD_shiftLeft, Nat.add_comm]
  have halfNat : r.reverse.toNat / 2 = (r <<< 1).reverse.toNat := by
    rw [half, BitVec.toNat_ushiftRight, Nat.shiftRight_eq_div_pow, pow_one]
  unfold shiftUp stepUp
  rw [halfNat]
  by_cases h : r.msb = true
  · rw [if_pos (by simp [h]), if_pos (low.2 h), ← BitVec.toNat_xor]
    congr 1
    refine BitVec.eq_of_getLsbD_eq fun i hi => ?_
    simp only [BitVec.getLsbD_xor, BitVec.getLsbD_reverse, BitVec.getMsbD_xor]
  · rw [if_neg (by simp [h]), if_neg (mt low.1 h)]

theorem crcShiftDown_toNat (n : Nat) (r : BitVec w) :
    crcShiftDown p.reverse.toNat n r.reverse.toNat = ((shiftUp p)^[n] r).reverse.toNat := by
  induction n generalizing r with
  | zero => rfl
  | succ n ih => rw [crcShiftDown, withNat_eq, ← shiftUp_reverse_toNat p, ih, Function.iterate_succ_apply]

theorem xor_reflected_octet_toNat (hw : 8 ≤ w) (r : BitVec w) (b : Byte) :
    r.reverse.toNat ^^^ b.toNat = (r ^^^ placeBits (bitsUp b).reverse).reverse.toNat := by
  have octet : (b.setWidth w).toNat = b.toNat :=
    (BitVec.toNat_setWidth ..).trans (Nat.mod_eq_of_lt (b.isLt.trans_le (Nat.pow_le_pow_right (by decide) hw)))
  have placed : (r ^^^ placeBits (bitsUp b).reverse).reverse = r.reverse ^^^ b.setWidth w := by
    refine BitVec.eq_of_getLsbD_eq fun i hi => ?_
    rw [BitVec.getLsbD_reverse, BitVec.getMsbD_xor, BitVec.getLsbD_xor, BitVec.getLsbD_reverse, BitVec.getLsbD_setWidth,
      BitVec.getMsbD_eq_getLsbD (x := placeBits _), getLsbD_placeBits _ (by omega), show w - 1 - (w - 1 - i) = i by omega]
    by_cases short : i < 8
    · have : 7 - (7 - i) = i := by omega
      simp [bitsUp, List.getD, hi, short, this]
    · rw [List.getD_eq_default _ _ (by simp [length_bitsUp]; omega), BitVec.getLsbD_of_ge _ _ (by omega), Bool.and_false]
  rw [placed, BitVec.toNat_xor, octet]

/-- The octet-wise check, least significant bit first, is the bit-serial one reflected. -/
theorem crcDown_toNat (hw : 8 ≤ w) (octets : List Byte) (r : BitVec w) :
    crcDown p.reverse.toNat octets r.reverse.toNat =
      ((octets.flatMap fun b => (bitsUp b).reverse).foldl (stepUp p) r).reverse.toNat := by
  induction octets generalizing r with
  | nil => rfl
  | cons b octets ih =>
    rw [crcDown, withNat_eq, xor_reflected_octet_toNat hw, crcShiftDown_toNat p, ih, List.flatMap_cons,
      List.foldl_append, foldl_stepUp p (by omega) (bitsUp b).reverse (by rw [List.length_reverse, length_bitsUp]; exact hw),
      List.length_reverse, length_bitsUp]

end

theorem complement_toNat (x : BitVec 32) : x.toNat ^^^ 0xFFFFFFFF = (~~~x).toNat := by
  rw [← BitVec.xor_allOnes, BitVec.toNat_xor]
  rfl

theorem reflected_polynomial : (0x04C11DB7#32).reverse.toNat = 0xEDB88320 := by decide

theorem reflected_ones : (0xFFFFFFFF#32).reverse.toNat = 0xFFFFFFFF := by decide

/-- Settles O53: the three checks by their registers, and the hash input of R13. -/
theorem flowBucketIsTheCyclicCheck : Obligations.FlowBucketIsTheCyclicCheck := by
  unfold Obligations.FlowBucketIsTheCyclicCheck
  refine ⟨fun octets => crcUp_toNat (0x1021#16) (by decide) octets (0xFFFF#16), fun octets => ?_, fun octets => ?_,
    fun t l => ⟨?_, fun plain => ?_, fun tagged => ?_⟩⟩
  · rw [← complement_toNat, ← crcUp_toNat (0x04C11DB7#32) (by decide) octets]
    rfl
  · rw [← complement_toNat, ← crcDown_toNat (0x04C11DB7#32) (by decide) octets, reflected_polynomial, reflected_ones, frameCheck]
  · simp [flowBucket, hashInput, slice]
  · simp [flowBucket, hashInput, slice, vlanTagged, plain]
  · simp [flowBucket, hashInput, slice, vlanTagged, tagged]

end Sys2Proof.Machine
end

section
/-! The intake of orders, the orders on intervals, and RESTART (O39, O43). -/

namespace Sys2Proof.Machine

/-! ## Reception -/

section

variable {s : State} {src dst : Station}

theorem receive_of_hearsFrom (h : s.hearsFrom src dst) {cls : Nat} (hc : cls < 8) {payload : List Byte}
    (hp : payload.length ≤ 120) (f : State → Out) : receive cls src dst payload f s = f (refreshHeard src s) := by
  obtain ⟨loaded, numbered, notAll, foreign, here⟩ := h
  have started : s.lineStarted = true := lineStarted_iff.2 ⟨loaded, numbered⟩
  have fits : ¬ (src = 15#4 ∨ 8 ≤ cls ∨ 120 < payload.length) := by
    rintro (k | k | k)
    · exact notAll k
    · omega
    · omega
  unfold receive
  rw [if_neg (by rw [started]; exact Bool.false_ne_true), if_neg fits, if_neg foreign, if_pos here]

/-! ## Intake -/

variable {kind : Byte} {tag : BitVec 16} {f : State → Verdict × Out}

theorem mayOrder_iff : s.mayOrder src = true ↔ src ∈ s.orders.collectors ∨ s.orders.anySource = true := by
  simp [State.mayOrder]

theorem takeOrder_of_stranger (h : ¬ (src ∈ s.orders.collectors ∨ s.orders.anySource = true)) :
    takeOrder src dst kind tag f s = .of { s with orders := { s.orders with ignored := satInc s.orders.ignored } } := by
  have no : s.mayOrder src = false := Bool.eq_false_iff.2 (mt mayOrder_iff.1 h)
  unfold takeOrder
  rw [no]
  rfl

theorem takeOrder_of_broadcast (h : src ∈ s.orders.collectors ∨ s.orders.anySource = true) (all : dst = 15#4)
    (k6 : kind ≠ 6) (k7 : kind ≠ 7) : takeOrder src dst kind tag f s = .of s := by
  have kept : broadcastKind kind = false := by
    rw [broadcastKind, Bool.or_eq_false_iff]
    exact ⟨beq_false_of_ne k6, beq_false_of_ne k7⟩
  unfold takeOrder
  rw [mayOrder_iff.2 h, if_neg (by decide), if_pos ⟨all, kept⟩]

theorem not_broadcast (aim : dst ≠ 15#4 ∨ kind = 6 ∨ kind = 7) : ¬ (dst = 15#4 ∧ broadcastKind kind = false) := by
  rintro ⟨all, kept⟩
  rcases aim with other | rfl | rfl
  · exact other all
  · exact absurd kept (by decide)
  · exact absurd kept (by decide)

theorem takeOrder_of_full (h : src ∈ s.orders.collectors ∨ s.orders.anySource = true) (aim : dst ≠ 15#4 ∨ kind = 6 ∨ kind = 7)
    (full : s.orders.restartPending = true ∨ 4 ≤ s.answerLength) :
    takeOrder src dst kind tag f s = .of { s with orders := { s.orders with dropped := satInc s.orders.dropped } } := by
  unfold takeOrder
  rw [mayOrder_iff.2 h, if_neg (by decide), if_neg (not_broadcast aim),
    if_pos (show s.orders.restartPending = true ∨ Config.answerLimit ≤ s.answerLength from full)]

/-- An order that is judged is answered with its verdict. -/
theorem takeOrder_of_judged (h : src ∈ s.orders.collectors ∨ s.orders.anySource = true) (aim : dst ≠ 15#4 ∨ kind = 6 ∨ kind = 7)
    (steady : s.orders.restartPending = false) (room : s.answerLength < 4) :
    takeOrder src dst kind tag f s =
      (judgeOrder kind f s).2.also (appendAnswer src kind tag (judgeOrder kind f s).1) := by
  have open_ : ¬ (s.orders.restartPending = true ∨ Config.answerLimit ≤ s.answerLength) := by
    rintro (k | k)
    · exact Bool.false_ne_true (steady.symm.trans k)
    · exact absurd room (Nat.not_lt.2 k)
  unfold takeOrder
  rw [mayOrder_iff.2 h, if_neg (by decide), if_neg (not_broadcast aim), if_neg open_]

theorem knownKind_iff : knownKind kind = true ↔ 1 ≤ kind.toNat ∧ kind.toNat ≤ 8 := by
  simp [knownKind]

theorem judgeOrder_of_unknown (h : ¬ (1 ≤ kind.toNat ∧ kind.toNat ≤ 8)) : judgeOrder kind f s = refuse .badParameter s := by
  have no : knownKind kind = false := Bool.eq_false_iff.2 (mt knownKind_iff.1 h)
  unfold judgeOrder
  rw [no]
  rfl

theorem barred_iff : ((s.loader.phase == .failsafe || s.line.conflict) && !failsafeKind kind) = true ↔
    (s.loader.phase = .failsafe ∨ s.line.conflict = true) ∧ kind ≠ 7 ∧ kind ≠ 8 := by
  simp [failsafeKind]

theorem judgeOrder_of_barred (known : 1 ≤ kind.toNat ∧ kind.toNat ≤ 8)
    (h : (s.loader.phase = .failsafe ∨ s.line.conflict = true) ∧ kind ≠ 7 ∧ kind ≠ 8) :
    judgeOrder kind f s = refuse .notReady s := by
  unfold judgeOrder
  rw [knownKind_iff.2 known, if_neg (by decide), if_pos (barred_iff.2 h)]

theorem judgeOrder_of_ruled (known : 1 ≤ kind.toNat ∧ kind.toNat ≤ 8)
    (h : ¬ ((s.loader.phase = .failsafe ∨ s.line.conflict = true) ∧ kind ≠ 7 ∧ kind ≠ 8)) : judgeOrder kind f s = f s := by
  unfold judgeOrder
  rw [knownKind_iff.2 known, if_neg (by decide), if_neg (mt barred_iff.1 h)]

end

theorem also_refuse (src : Station) (kind : Byte) (tag : BitVec 16) (r : Reason) (s : State) :
    (refuse r s).2.also (appendAnswer src kind tag (refuse r s).1) = .of (s.answered (answerTo src kind tag (some r) .none)) := rfl

theorem also_accept (src : Station) (kind : Byte) (tag : BitVec 16) (d : AnswerData) (o : Out) :
    (accept d o).2.also (appendAnswer src kind tag (accept d o).1) =
      ⟨o.st.answered (answerTo src kind tag none d), o.evs⟩ := rfl

/-! ## An order that is carried out -/

section

variable {s : State} {src dst : Station} {kind : Byte} {tag : BitVec 16} {ps : List Byte}

theorem carriesOut_hearsFrom (h : s.carriesOut kind src dst ps) : s.hearsFrom src dst := by
  obtain ⟨loaded, numbered, notAll, foreign, aim, -⟩ := h
  exact ⟨loaded, numbered, notAll, foreign, aim.imp_right And.left⟩

/-- An order that is carried out is answered with the verdict of its rule, once its source was heard. -/
theorem receiveOrder_of_carriesOut (h : s.carriesOut kind src dst ps) (known : 1 ≤ kind.toNat ∧ kind.toNat ≤ 8) :
    let v := orderRule kind ps (refreshHeard src s)
    receiveOrder kind src dst tag ps s = v.2.also (appendAnswer src kind tag v.1) := by
  have hears := carriesOut_hearsFrom h
  obtain ⟨-, numbered, -, -, aim, short, collector, steady, room, ready⟩ := h
  have frame := refreshHeard_frame src s
  have orders := frame.orders (by decide)
  have line := frame.line (by decide)
  have loader := frame.loader (by decide)
  have here : dst ≠ 15#4 ∨ kind = 6 ∨ kind = 7 := aim.imp (fun own all => numbered (own.symm.trans all)) And.right
  have length : (kind :: beOctets 2 tag.toNat ++ ps).length ≤ 120 := by
    have : (beOctets 2 tag.toNat).length = 2 := by simp [beOctets]
    rw [List.length_append, List.length_cons, this]
    omega
  have notBarred : ¬ (((refreshHeard src s).loader.phase = .failsafe ∨ (refreshHeard src s).line.conflict = true)
      ∧ kind ≠ 7 ∧ kind ≠ 8) := by
    rw [loader, line]
    rintro ⟨stands, k7, k8⟩
    rcases ready with k | k | ⟨phase, conflict⟩
    · exact k7 k
    · exact k8 k
    · exact stands.elim phase (Bool.eq_false_iff.1 conflict)
  intro v
  unfold receiveOrder
  rw [receive_of_hearsFrom hears (by decide) length, takeOrder_of_judged (by rw [orders]; exact collector) here
    (by rw [orders]; exact steady) (by unfold State.answerLength; rw [line]; exact room),
    judgeOrder_of_ruled known notBarred]

theorem receiveOrder_refused (h : s.carriesOut kind src dst ps) (known : 1 ≤ kind.toNat ∧ kind.toNat ≤ 8) {r : Reason}
    (rule : orderRule kind ps (refreshHeard src s) = refuse r (refreshHeard src s)) :
    done (receiveOrder kind src dst tag ps s) =
      .next ((refreshHeard src s).answered (answerTo src kind tag (some r) .none)) := by
  have run := receiveOrder_of_carriesOut (tag := tag) h known
  dsimp only at run
  rw [run, rule, also_refuse, done_of]

theorem receiveOrder_accepted (h : s.carriesOut kind src dst ps) (known : 1 ≤ kind.toNat ∧ kind.toNat ≤ 8) {d : AnswerData}
    {o : Out} (rule : orderRule kind ps (refreshHeard src s) = accept d o) :
    done (receiveOrder kind src dst tag ps s) = done ⟨o.st.answered (answerTo src kind tag none d), o.evs⟩ := by
  have run := receiveOrder_of_carriesOut (tag := tag) h known
  dsimp only at run
  rw [run, rule, also_accept]

end

/-- Settles O39: the chain of R168 and R169, and the rule of RESTART. -/
theorem orderIntake : Obligations.OrderIntake := by
  unfold Obligations.OrderIntake
  refine ⟨fun s src dst l hears short => ?_, fun s src dst tag ps carries => ?_⟩
  · intro s1 collector octet kind known barred refused result
    have frame := refreshHeard_frame src s
    have orders : s1.orders = s.orders := frame.orders (by decide)
    have line : s1.line = s.line := frame.line (by decide)
    have loader : s1.loader = s.loader := frame.loader (by decide)
    have answers : s1.answerLength = s.answerLength := by
      unfold State.answerLength
      rw [line]
    let rule := if l.length < 3 then refuse .badParameter else orderRule kind (l.drop 3)
    have run : result = done (takeOrder src dst kind (orderTag l) rule s1) :=
      congrArg done (receive_of_hearsFrom hears (by decide) short _)
    refine ⟨fun stranger => ?_, fun given all k6 k7 => ?_, fun given aim => ⟨fun full => ?_, fun steady room => ?_⟩⟩
    · rw [run, takeOrder_of_stranger (by rw [orders]; exact stranger), done_of]
    · rw [run, takeOrder_of_broadcast (by rw [orders]; exact given) all k6 k7, done_of]
    · rw [run, takeOrder_of_full (by rw [orders]; exact given) aim (by rw [orders, answers]; exact full), done_of]
    · have judged := takeOrder_of_judged (s := s1) (src := src) (dst := dst) (kind := kind) (tag := orderTag l) (f := rule)
        (by rw [orders]; exact given) aim (by rw [orders]; exact steady) (by rw [answers]; exact room)
      have bars : barred ↔ (s1.loader.phase = .failsafe ∨ s1.line.conflict = true) ∧ kind ≠ 7 ∧ kind ≠ 8 := by
        rw [loader, line]
      have answered {r : Reason} (h : judgeOrder kind rule s1 = refuse r s1) : result = refused r := by
        rw [run, judged, h]
        rfl
      refine ⟨fun unknown => answered (judgeOrder_of_unknown unknown),
        fun known stands => answered (judgeOrder_of_barred known (bars.1 stands)), fun known free tooShort => answered ?_⟩
      rw [judgeOrder_of_ruled known (mt bars.2 free)]
      exact congrFun (if_pos tooShort) s1
  · have run := receiveOrder_of_carriesOut (tag := tag) carries (by decide)
    exact congrArg done run

/-! ## Closes with good accumulators -/

theorem readAcc_of_accsGood {s : State} (h : s.accsGood) (k : Nat) : s.readAcc k = s.acc k := readAcc_of_good (h.2.2 k)

theorem faultsOf_of_accsGood {s : State} (h : s.accsGood) : faultsOf s.meter.accs = 0 := by
  obtain ⟨wf, -, good⟩ := h
  unfold faultsOf
  rw [List.length_eq_zero_iff, List.filter_eq_nil_iff]
  intro x hx
  have here : s.acc x.1 = x.2 := by
    rw [State.acc, mapGet, mapFind_of_mem wf hx]
    rfl
  simp [← here, good]

/-- The close of an interval whose accumulators all pass their check: header, record list and cleared accumulators. -/
theorem closeInterval_of_good {s : State} (h : s.accsGood) :
    closeInterval s = ⟨s.closed, [⟨.intervalClosed, none⟩]⟩ ∧ Frame [.meter] s s.closed
      ∧ s.closed.meter.queue = s.meter.queue ++
        [{ number := s.meter.number, span := s.meter.span, opened := s.meter.opened, closed := s.time.now
           marks := s.meter.marks, records := s.recordsNow }]
      ∧ ∀ k, s.closed.acc k = { residue := (s.acc k).residue } := by
  have none : faultsOf s.meter.accs = 0 := faultsOf_of_accsGood h
  have records : s.recordsRead = s.recordsNow := by
    unfold State.recordsRead State.recordsNow
    simp only [readAcc_of_accsGood h]
  refine ⟨?_, fun b hb => ?_, ?_, fun k => ?_⟩
  · rw [closeInterval_eq h.1 h.2.1, none]
    rfl
  · cases b with
    | meter => exact absurd (List.mem_singleton_self _) hb
    | loader =>
      show ({ s.loader with integrityFaults := satInc^[faultsOf s.meter.accs] _ } : Loader) = s.loader
      rw [none]
      rfl
    | _ => rfl
  · rw [← records]
    rfl
  · rw [acc_closed h.1, readAcc_of_accsGood h]

theorem closed_header (s : State) :
    s.closed.meter.number = s.meter.number + 1 ∧ s.closed.meter.span = 1 ∧ s.closed.meter.marks = 0
      ∧ s.closed.meter.opened = s.time.now := ⟨rfl, rfl, rfl, rfl⟩

/-! ## The rules of the interval orders -/

section

variable {s : State} {ps : List Byte}

theorem orderDiscard_of_short (h : ps.length < 4) : orderDiscard ps s = refuse .badParameter s := if_pos h

theorem orderDiscard_of_long (h : 4 ≤ ps.length) : orderDiscard ps s = discardOf (BitVec.ofNat 32 (fieldNat ps 0 4)) s :=
  if_neg (Nat.not_lt.2 h)

theorem interval_isSome_iff {n : Count} : (s.interval n).isSome = true ↔ ∃ i ∈ s.meter.queue, i.number = n := by
  simp [State.interval]

theorem reads_iff {x : Channel} {n : Count} : x.reads n = true ↔ x.state ≠ .idle ∧ x.source = n := by
  simp [Channel.reads]

theorem readers_ne_nil_iff {n : Count} :
    s.readers n ≠ [] ↔ ∃ c : Fin 2, (s.chan c).state ≠ .idle ∧ (s.chan c).source = n := by
  have both (c : Fin 2) : c ∈ ([0, 1] : List (Fin 2)) := by
    revert c
    decide
  rw [State.readers, ne_eq, List.filter_eq_nil_iff]
  simp only [not_forall, Decidable.not_not]
  exact ⟨fun ⟨c, _, h⟩ => ⟨c, reads_iff.1 h⟩, fun ⟨c, h⟩ => ⟨c, both c, reads_iff.2 h⟩⟩

theorem discardOf_of_absent {n : Count} (h : ∀ i ∈ s.meter.queue, i.number ≠ n) : discardOf n s = refuse .noInterval s := by
  have none : (s.interval n).isNone = true :=
    Option.isNone_iff_eq_none.2 (List.find?_eq_none.2 fun i hi => by simpa using h i hi)
  unfold discardOf State.discardRefusal
  rw [if_pos none]

theorem discardOf_of_read {n : Count} (h : ∃ i ∈ s.meter.queue, i.number = n)
    (read : ∃ c : Fin 2, (s.chan c).state ≠ .idle ∧ (s.chan c).source = n) : discardOf n s = refuse .inExport s := by
  have some := interval_isSome_iff.2 h
  unfold discardOf State.discardRefusal
  rw [if_neg (by simp [Option.isSome_iff_ne_none.1 some]), if_pos (readers_ne_nil_iff.2 read)]

theorem discardOf_of_mayDiscard {n : Count} (h : s.mayDiscard n) :
    discardOf n s = accept (.discarded (if s.meter.deferral && s.meter.number != BitVec.allOnes 32 then some s.meter.number
      else none)) (removeInterval n s) := by
  obtain ⟨named, free⟩ := h
  have some := interval_isSome_iff.2 named
  have unread : ¬ s.readers n ≠ [] := fun k => by
    obtain ⟨c, state, source⟩ := readers_ne_nil_iff.1 k
    exact free c state source
  unfold discardOf State.discardRefusal
  rw [if_neg (by simp [Option.isSome_iff_ne_none.1 some]), if_neg unread]

/-- A deferral stands, and the live number is below the last. -/
theorem deferralCloses_iff : (s.meter.deferral && s.meter.number != BitVec.allOnes 32) = true ↔
    1 < s.meter.span ∧ s.meter.number ≠ BitVec.allOnes 32 := by
  simp [Meter.deferral]

end

theorem removeInterval_of_kept {s : State} {n : Count} (h : s.meter.span ≤ 1 ∨ s.meter.number = BitVec.allOnes 32) :
    removeInterval n s = .of (s.without n) := by
  refine if_neg fun k => ?_
  obtain ⟨deferred, last⟩ := deferralCloses_iff (s := s.without n) |>.1 k
  exact h.elim (fun one => absurd one (Nat.not_le.2 deferred)) last

theorem removeInterval_of_deferral {s : State} {n : Count} (h : 1 < s.meter.span) (last : s.meter.number ≠ BitVec.allOnes 32) :
    removeInterval n s = closeInterval (s.without n) := if_pos (deferralCloses_iff (s := s.without n) |>.2 ⟨h, last⟩)

theorem accsGood_of_meter {s t : State} (h : t.meter.accs = s.meter.accs) (good : s.accsGood) : t.accsGood := by
  obtain ⟨wf, keys, checks⟩ := good
  exact ⟨h ▸ wf, h ▸ keys, fun k => by rw [acc_of_accs h]; exact checks k⟩

theorem recordsNow_of_meter {s t : State} (h : t.meter.accs = s.meter.accs) : t.recordsNow = s.recordsNow := by
  unfold State.recordsNow
  simp only [acc_of_accs h]

/-- A close under an order, of a meter whose pending intervals are now `q`: its interval, its header, its answer. -/
theorem closed_answered {s u : State} (frame : Frame [.peers, .meter] s u) {q : List Interval}
    (meter : u.meter = { s.meter with queue := q }) (good : s.accsGood) (m : TxMsg) :
    ∃ t, done ⟨(closeInterval u).st.answered m, (closeInterval u).evs⟩ = .next (conclude ⟨t, [⟨.intervalClosed, none⟩]⟩)
      ∧ t.meter.queue = q ++ [{ number := s.meter.number, span := s.meter.span, opened := s.meter.opened
                                closed := s.time.now, marks := s.meter.marks, records := s.recordsNow }]
      ∧ (t.meter.number = s.meter.number + 1 ∧ t.meter.span = 1 ∧ t.meter.marks = 0 ∧ t.meter.opened = s.time.now
        ∧ ∀ k, t.acc k = { residue := (s.acc k).residue })
      ∧ Frame [.peers, .meter, .line] s t ∧ t.line = (s.answered m).line := by
  have accs : u.meter.accs = s.meter.accs := by rw [meter]
  have time : u.time = s.time := frame.time (by decide)
  obtain ⟨run, closes, queue, cleared⟩ := closeInterval_of_good (accsGood_of_meter accs good)
  have answered : Frame [.line] u.closed (u.closed.answered m) := fun b hb => by
    cases b with
    | line => exact absurd (List.mem_singleton_self _) hb
    | _ => rfl
  rw [meter, time, recordsNow_of_meter accs] at queue
  refine ⟨u.closed.answered m, by rw [run]; rfl, queue, ⟨?_, rfl, rfl, ?_, fun k => ?_⟩, ?_, ?_⟩
  · show u.meter.number + 1 = _
    rw [meter]
  · show u.time.now = _
    rw [time]
  · rw [← acc_of_accs accs]
    exact cleared k
  · exact (frame.mono (by decide)).trans ((closes.mono (by decide)).trans (answered.mono (by decide)))
  · show ({ u.closed.line with answers := u.closed.line.answers ++ [m] } : GroupLine) = _
    rw [closes.line (by decide), frame.line (by decide)]
    rfl

/-- Settles O43: the two rules in the state in which the source was heard. -/
theorem intervalOrdersCloseAndDiscard : Obligations.IntervalOrdersCloseAndDiscard := by
  unfold Obligations.IntervalOrdersCloseAndDiscard
  intro s src dst tag ps s1 n refused header closed
  have heard : Frame [.peers] s s1 := refreshHeard_frame src s
  have meter : s1.meter = s.meter := heard.meter (by decide)
  have chan (c : Fin 2) : s1.chan c = s.chan c := by
    unfold State.chan
    rw [heard.chans (by decide)]
  refine ⟨fun carries => ?_, fun carries acting => ?_⟩
  · have discarded {r : Reason} (rule : orderDiscard ps s1 = refuse r s1) :
        exec (.discardInterval src dst tag ps) s = refused r := receiveOrder_refused carries (by decide) rule
    refine ⟨fun short => discarded (orderDiscard_of_short short), fun long absent => discarded ?_,
      fun long named read => discarded ?_, fun long may => ?_⟩
    · rw [orderDiscard_of_long long, discardOf_of_absent (by rw [meter]; exact absent)]
    · rw [orderDiscard_of_long long, discardOf_of_read (by rw [meter]; exact named) (by simp only [chan]; exact read)]
    · intro left
      have may' : s1.mayDiscard n := by
        unfold State.mayDiscard
        rw [meter]
        simp only [chan]
        exact may
      have rule : orderRule 5 ps s1 = accept (.discarded (if s.meter.deferral && s.meter.number != BitVec.allOnes 32
          then some s.meter.number else none)) (removeInterval n s1) := by
        rw [← meter]
        exact (orderDiscard_of_long long).trans (discardOf_of_mayDiscard may')
      have ran := receiveOrder_accepted (tag := tag) carries (by decide) rule
      refine ⟨fun kept => ?_, fun deferred last good => ?_⟩
      · have no : ¬ (s.meter.deferral && s.meter.number != BitVec.allOnes 32) = true := fun k => by
          obtain ⟨deferred, last⟩ := deferralCloses_iff.1 k
          exact kept.elim (fun one => absurd one (Nat.not_le.2 deferred)) last
        rw [if_neg no, removeInterval_of_kept (by rw [meter]; exact kept)] at ran
        refine ran.trans ?_
        unfold State.without
        rw [meter]
        rfl
      · rw [if_pos (deferralCloses_iff.2 ⟨deferred, last⟩), removeInterval_of_deferral (by rw [meter]; exact deferred)
          (by rw [meter]; exact last)] at ran
        have without : Frame [.peers, .meter] s (s1.without n) := (heard.mono (by decide)).trans fun b hb => by
          cases b with
          | meter => exact absurd (by simp) hb
          | _ => rfl
        obtain ⟨t, done, effects⟩ := closed_answered without (q := left)
          (by show ({ s1.meter with queue := _ } : Meter) = _; rw [meter]) good
          (answerTo src 5 tag none (.discarded (some s.meter.number)))
        obtain ⟨queue, head, frame, line⟩ := effects
        exact ⟨t, ran.trans done, queue, head, frame, line⟩
  · have ran := receiveOrder_accepted (tag := tag) carries (by decide) (rfl : orderRule 6 ps s1 = accept _ (boundary s1))
    have acting' : s1.acting = true := by
      rw [acting_iff, heard.loader (by decide), ← acting_iff]
      exact acting
    refine ⟨fun full => ?_, fun room last good => ?_⟩
    · have held : s1.closes = false := Bool.eq_false_iff.2 fun closes => by
        obtain ⟨room, last⟩ := State.closes_iff.1 closes
        rw [meter] at room last
        exact full.elim (fun two => absurd room (Nat.not_lt.2 two)) last
      rw [held, boundary_of_deferred acting' held, meter] at ran
      refine ran.trans ?_
      rw [if_neg Bool.false_ne_true, meter]
      rfl
    · have closes : s1.closes = true := State.closes_iff.2 (by rw [meter]; exact ⟨room, last⟩)
      have run : boundary s1 = closeInterval s1 := by
        unfold boundary
        rw [if_pos acting', if_pos closes]
      rw [closes, run, meter] at ran
      obtain ⟨t, done, effects⟩ := closed_answered (heard.mono (by decide)) (q := s.meter.queue) meter good
        (answerTo src 6 tag none (.closed s.meter.number))
      obtain ⟨queue, head, frame, line⟩ := effects
      exact ⟨t, ran.trans done, queue, head, frame, line⟩

end Sys2Proof.Machine
end

section
/-! STATUS and its parts (O44). -/

namespace Sys2Proof.Machine

/-! ## The bond-up set (R126) -/

/-- A union of bits over a list, with a set to begin with. -/
theorem getLsbD_foldl_or {α : Type} (f : α → Option (BitVec 64)) (l : List α) (x : BitVec 64) (i : Nat) :
    (l.foldl (fun acc a => acc ||| (f a).getD 0) x).getLsbD i = true ↔
      x.getLsbD i = true ∨ ∃ a ∈ l, ∃ y, f a = some y ∧ y.getLsbD i = true := by
  induction l generalizing x with
  | nil => simp
  | cons a l ih =>
    have here : ((f a).getD 0).getLsbD i = true ↔ ∃ y, f a = some y ∧ y.getLsbD i = true := by
      cases f a <;> simp
    rw [List.foldl_cons, ih, BitVec.getLsbD_or, Bool.or_eq_true, here, or_assoc, List.exists_mem_cons_iff]

/-- The bit of an S-port in the bond-up set. -/
def State.bondBit (s : State) (p : Fin 24) : Option (BitVec 64) :=
  (s.port (sPort p)).bond.bind fun b => if s.portReady (sPort p) then some (BitVec.ofNat 64 (2 ^ b)) else none

theorem bondUp_eq (s : State) : s.bondUp = allS.foldl (fun acc p => acc ||| (s.bondBit p).getD 0) 0 := by
  unfold State.bondUp
  congr 1
  funext acc p
  unfold State.bondBit
  cases (s.port (sPort p)).bond with
  | none => simp
  | some b => cases s.portReady (sPort p) <;> simp

theorem getLsbD_pow {b i : Nat} (hi : i < 64) : (BitVec.ofNat 64 (2 ^ b)).getLsbD i = true ↔ b = i := by
  rw [BitVec.getLsbD_ofNat, decide_eq_true hi, Bool.true_and, Nat.testBit_two_pow, decide_eq_true_iff]

theorem bondBit_iff {s : State} {p : Fin 24} {i : Nat} (hi : i < 64) :
    (∃ y, s.bondBit p = some y ∧ y.getLsbD i = true) ↔ (s.port (sPort p)).bond = some i ∧ s.takesFrames (sPort p) := by
  rw [← portReady_iff, State.bondBit]
  cases (s.port (sPort p)).bond with
  | none => simp
  | some b =>
    cases s.portReady (sPort p) with
    | false => simp
    | true =>
      rw [Option.bind_some, if_pos rfl]
      simp only [Option.some.injEq, exists_eq_left', getLsbD_pow hi, and_true]

theorem bondUp_getLsbD (s : State) (b : Fin 64) : s.bondUp.getLsbD b.val = true ↔
    ∃ p : Fin 24, (s.port (sPort p)).bond = some b.val ∧ s.takesFrames (sPort p) := by
  rw [bondUp_eq, getLsbD_foldl_or]
  simp only [bondBit_iff b.isLt, mem_allS, true_and]
  exact or_iff_right (by simp)

/-! ## The heard source -/

/-- A heard source changes its own peer slot alone. -/
theorem refreshHeard_eq (src : Station) (s : State) :
    refreshHeard src s = { s with peers := { s.peers with slots := (refreshHeard src s).peers.slots } } := by
  unfold refreshHeard
  split
  · rfl
  · rfl

/-! ## Subjects and parts -/

section

variable {s : State} {ps : List Byte}

theorem orderStatus_of_unknown (long : 3 ≤ ps.length) (h : octetNat ps 0 = 0 ∨ 5 < octetNat ps 0) :
    orderStatus ps s = refuse .badParameter s := by
  unfold orderStatus
  rw [if_neg (Nat.not_lt.2 long)]
  dsimp only
  split
  · omega
  · omega
  · omega
  · omega
  · omega
  · rfl

theorem orderStatus_station (long : 3 ≤ ps.length) (h : octetNat ps 0 = 1) :
    orderStatus ps s = statusStation (octetNat ps 2) s := by
  simp only [orderStatus, if_neg (Nat.not_lt.2 long), h]

theorem orderStatus_port (long : 3 ≤ ps.length) (h : octetNat ps 0 = 2) :
    orderStatus ps s = statusPort (octetNat ps 1) (octetNat ps 2) s := by
  simp only [orderStatus, if_neg (Nat.not_lt.2 long), h]

theorem orderStatus_peers (long : 3 ≤ ps.length) (h : octetNat ps 0 = 3) :
    orderStatus ps s = statusPeers (octetNat ps 2) s := by
  simp only [orderStatus, if_neg (Nat.not_lt.2 long), h]

theorem orderStatus_tenant (long : 3 ≤ ps.length) (h : octetNat ps 0 = 4) {t : Tenant} (ht : t.toNat = octetNat ps 1) :
    orderStatus ps s = statusTenant t (octetNat ps 2) s := by
  have e : ps.getD 1 0 = t := BitVec.eq_of_toNat_eq ht.symm
  simp only [orderStatus, if_neg (Nat.not_lt.2 long), h, e]

theorem orderStatus_intervals (long : 3 ≤ ps.length) (h : octetNat ps 0 = 5) :
    orderStatus ps s = statusIntervals (octetNat ps 2) s := by
  simp only [orderStatus, if_neg (Nat.not_lt.2 long), h]

end

section

variable {n : Nat} (s : State)

theorem statusStation_beyond (h : 3 < n) : statusStation n s = refuse .badParameter s := by
  obtain ⟨m, rfl⟩ : ∃ m, n = m + 4 := ⟨n - 4, by omega⟩
  rfl

theorem statusPort_beyond {p : Nat} (h : 32 < p ∨ 1 < n) : statusPort p n s = refuse .badParameter s := by
  unfold statusPort
  split
  · obtain ⟨m, rfl⟩ : ∃ m, n = m + 2 := ⟨n - 2, by omega⟩
    rfl
  · rfl

theorem statusPeers_beyond (h : 4 < n) : statusPeers n s = refuse .badParameter s := dif_neg (by omega)

theorem statusTenant_beyond (t : Tenant) (h : 1 < n) : statusTenant t n s = refuse .badParameter s := by
  obtain ⟨m, rfl⟩ : ∃ m, n = m + 2 := ⟨n - 2, by omega⟩
  rfl

theorem statusIntervals_beyond (h : 2 < n) : statusIntervals n s = refuse .badParameter s := by
  obtain ⟨m, rfl⟩ : ∃ m, n = m + 3 := ⟨n - 3, by omega⟩
  rfl

end

/-! ## Items as the statement spells them -/

theorem occupancy_eq (s : State) (p : Port) : s.buffer.ports[p].occupancy = s.portCells p := by
  simp [PortQueues.occupancy, State.portCells, allCls, Nat.add_assoc]

theorem sending_eq (l : GroupLine) (n : Nat) : l.sending n = l.onLine.any fun m => m.body.cls == n := by
  unfold GroupLine.sending
  cases l.onLine <;> simp

theorem freshness_eq (s : State) (x : PeerSlot) :
    s.freshness x = if x.uplink = none then .absent else if s.isFresh x = true then .fresh else .stale := by
  unfold State.freshness State.isFresh reached
  cases x.uplink with
  | none => rfl
  | some v =>
    cases x.freshExpiry with
    | none => rfl
    | some t => simp

theorem tenantAccs_eq (t : Tenant) : tenantAccs t = [t.toNat * 4, t.toNat * 4 + 1, t.toNat * 4 + 2, t.toNat * 4 + 3] := rfl

theorem statusTenant_accs {t : Tenant} {s : State} (good : ∀ k, (s.acc k).checkGood = true) :
    statusTenant t 1 s = accept (.status 1 2 (.accumulators [s.acc (t.toNat * 4), s.acc (t.toNat * 4 + 1),
      s.acc (t.toNat * 4 + 2), s.acc (t.toNat * 4 + 3)])) (.of s) := by
  show accept (.status 1 2 (.accumulators ((tenantAccs t).map (eachOut testAcc (tenantAccs t) s).st.acc)))
    (eachOut testAcc (tenantAccs t) s) = _
  rw [eachOut_testAcc_good fun k _ => good k]
  rfl

theorem answerLength_eq (s : State) :
    s.answerLength = s.line.answers.length + if (s.line.onLine.any fun m => m.body.cls == 4) = true then 1 else 0 := by
  rw [State.answerLength, ← sending_eq]
  rfl

theorem slotsHeld_eq (l : GroupLine) :
    let on (c : Nat) : Bool := l.onLine.any fun m => m.body.cls == c
    l.slotsHeld = [(on 0, l.wLink.isSome), (on 1, l.wHello.isSome), (false, false), (on 3, l.wLoad.isSome),
      (on 4, !on 4 && !l.answers.isEmpty), (on 5, l.wReach.isSome), (on 6, l.wEnd.isSome), (on 7, l.wRecord.isSome)] := by
  simp only [GroupLine.slotsHeld, sending_eq]

theorem getD_toList {α : Type} {n : Nat} (v : Vector α n) {i : Nat} (h : i < n) (d : α) : v.toList.getD i d = v[i] := by
  simp [List.getD, h]

theorem portLinkPart_loadIndex (s : State) (p : Port) :
    (s.portLinkPart p).loadIndex = if p.val < 24 then none else some (s.load.idx.toList.getD (p.val - 24) 0) := by
  unfold State.portLinkPart asU asX
  dsimp only
  have := p.isLt
  by_cases edge : p.val < 24
  · rw [if_pos edge, dif_neg (by omega), dif_neg (by omega)]
  · rw [if_neg edge, getD_toList _ (by omega)]
    by_cases up : p.val < 28
    · rw [dif_pos ⟨by omega, up⟩]
      rfl
    · rw [dif_neg (by omega), dif_pos (by omega)]
      have place : 4 + (p.val - 28) = p.val - 24 := by omega
      show some (s.xLoad ⟨p.val - 28, _⟩) = _
      unfold State.xLoad
      simp only [place]

theorem portLinkPart_peak (s : State) (p : Port) :
    (s.portLinkPart p).peak = if 24 ≤ p.val ∧ p.val < 28 then s.load.peak.toList[p.val - 24]? else none := by
  show (asU p).map (fun u => s.load.peak[u.val]) = _
  unfold asU
  by_cases up : 24 ≤ p.val ∧ p.val < 28
  · have inside : p.val - 24 < 4 := by omega
    rw [dif_pos up, if_pos up]
    simp [inside]
  · rw [dif_neg up, if_neg up]
    rfl

theorem statusPort_of_port (p : Port) (n : Nat) (s : State) :
    (n = 0 → statusPort p.val n s = statusOf 0 2 (.portLink (s.portLinkPart p)) s)
      ∧ (n = 1 → statusPort p.val n s = statusOf 1 2 (.portCounts (s.portCountsPart p)) s) := by
  unfold statusPort
  rw [dif_pos p.isLt]
  refine ⟨?_, ?_⟩
  · rintro rfl
    rfl
  · rintro rfl
    rfl

theorem statusPeers_of_slot (n : SlotNo) (s : State) :
    statusPeers n.val s = statusOf n.val 5 (.peer ((s.slot n).map s.peerPart)) s := dif_pos n.isLt

theorem tenantPart_listed (s : State) (t : Tenant) : (s.tenantPart t).listed =
    (s.restraint.list.find? fun i => i.1 == t).map fun i =>
      (i.2, decide (((s.restraint.slot : Int) - i.2) % 64 < s.params.window)) := by
  have opened (start : Nat) : s.windowOpen start = decide (((s.restraint.slot : Int) - start) % 64 < s.params.window) := by
    rw [Bool.eq_iff_iff, windowOpen_iff, decide_eq_true_iff]
  show (s.listedStart t).map (fun start => (start, s.windowOpen start)) = _
  simp only [State.listedStart, Option.map_map, opened]
  rfl

/-- Settles O44: each part as the model reports it, in the state in which the source was heard. -/
theorem statusReportsTheState : Obligations.StatusReportsTheState := by
  unfold Obligations.StatusReportsTheState
  refine ⟨fun s b _ => bondUp_getLsbD s b, ?_⟩
  intro s src dst tag ps carries long s1 reply refused subject index part onLine
  have heard : s1 = { s with peers := { s.peers with slots := s1.peers.slots } } := refreshHeard_eq src s
  have bad (rule : orderStatus ps s1 = refuse .badParameter s1) : exec (.status src dst tag ps) s = refused :=
    receiveOrder_refused carries (by decide) rule
  have good {p n : Nat} {x : StatusPart} (rule : orderStatus ps s1 = accept (.status p n x) (.of s1)) :
      exec (.status src dst tag ps) s = reply p n x := receiveOrder_accepted carries (by decide) rule
  refine ⟨fun other => bad (orderStatus_of_unknown long other), fun station => ?_, fun port => ?_, fun peers => ?_,
    fun tenant => ?_, fun intervals => ?_⟩
  · have rule := orderStatus_station (s := s1) long station
    refine ⟨fun beyond => bad (rule.trans (statusStation_beyond s1 beyond)), fun zero => good ?_, fun one => good ?_,
      fun two => good ?_, fun three => good ?_⟩
    · have same : s1.identityPart = s.identityPart := by rw [heard]; rfl
      rw [rule, show octetNat ps 2 = 0 from zero]
      exact congrArg (fun x => statusOf 0 4 (.stationIdentity x) s1) same
    · have same : s1.loadPart = s.loadPart := by rw [heard]; rfl
      rw [rule, show octetNat ps 2 = 1 from one]
      refine congrArg (fun x => statusOf 1 4 (.stationLoad x) s1) (same.trans ?_)
      unfold State.loadPart State.cellsHeld
      simp only [occupancy_eq]
      rfl
    · have same : s1.noticesPart = s.noticesPart := by rw [heard]; rfl
      rw [rule, show octetNat ps 2 = 2 from two]
      refine congrArg (fun x => statusOf 2 4 (.stationNotices x) s1) (same.trans ?_)
      unfold State.noticesPart
      rw [answerLength_eq, slotsHeld_eq]
      rfl
    · have same : s1.linksPart = s.linksPart := by rw [heard]; rfl
      rw [rule, show octetNat ps 2 = 3 from three]
      exact congrArg (fun x => statusOf 3 4 (.stationLinks x) s1) same
  · have rule := orderStatus_port (s := s1) long port
    refine ⟨fun beyond => bad (rule.trans (statusPort_beyond s1 beyond)), fun p hp => ⟨fun zero => good ?_, fun one => good ?_⟩⟩
    · have same : s1.portLinkPart p = s.portLinkPart p := by rw [heard]; rfl
      obtain ⟨named, -⟩ := statusPort_of_port p (octetNat ps 2) s1
      rw [rule, ← show p.val = octetNat ps 1 from hp]
      refine (named zero).trans (congrArg (fun x => statusOf 0 2 (.portLink x) s1) (same.trans ?_))
      rw [← portLinkPart_loadIndex, ← portLinkPart_peak]
      rfl
    · have same : s1.portCountsPart p = s.portCountsPart p := by rw [heard]; rfl
      obtain ⟨-, named⟩ := statusPort_of_port p (octetNat ps 2) s1
      rw [rule, ← show p.val = octetNat ps 1 from hp]
      exact (named one).trans (congrArg (fun x => statusOf 1 2 (.portCounts x) s1) same)
  · have rule := orderStatus_peers (s := s1) long peers
    refine ⟨fun beyond => bad (rule.trans (statusPeers_beyond s1 beyond)), fun n hn => good ?_⟩
    have same : s1.peerPart = s.peerPart := by rw [heard]; rfl
    rw [rule, ← show n.val = octetNat ps 2 from hn, statusPeers_of_slot, same]
    refine congrArg (fun f => statusOf n.val 5 (.peer ((s1.slot n).map f)) s1) (funext fun x => ?_)
    unfold State.peerPart
    rw [freshness_eq]
  · have named (t : Tenant) (ht : t.toNat = index) := orderStatus_tenant (s := s1) long tenant ht
    refine ⟨fun beyond => bad ((named (BitVec.ofNat 8 index) ?_).trans (statusTenant_beyond s1 _ beyond)),
      fun t ht => ⟨fun zero => good ?_, fun one checks => good ?_⟩⟩
    · exact Nat.mod_eq_of_lt (BitVec.isLt _)
    · have same : s1.tenantPart t = s.tenantPart t := by rw [heard]; rfl
      rw [named t ht, show octetNat ps 2 = 0 from zero]
      refine congrArg (fun x => statusOf 0 2 (.tenant x) s1) (same.trans ?_)
      rw [← tenantPart_listed]
      rfl
    · have same (k : Nat) : s1.acc k = s.acc k := by rw [heard]; rfl
      rw [named t ht, show octetNat ps 2 = 1 from one, statusTenant_accs fun k => by rw [same]; exact checks k]
      simp only [same]
  · have rule := orderStatus_intervals (s := s1) long intervals
    refine ⟨fun beyond => bad (rule.trans (statusIntervals_beyond s1 beyond)), fun zero => good ?_, fun one => good ?_,
      fun two => good ?_⟩
    · have same : s1.intervalsPart = s.intervalsPart := by rw [heard]; rfl
      rw [rule, show octetNat ps 2 = 0 from zero]
      exact congrArg (fun x => statusOf 0 3 (.intervals x) s1) same
    · have same : s1.chan 0 = s.chan 0 := by rw [heard]; rfl
      rw [rule, show octetNat ps 2 = 1 from one]
      exact congrArg (fun x : Channel => statusOf 1 3 (.channel x x.settling) s1) same
    · have same : s1.chan 1 = s.chan 1 := by rw [heard]; rfl
      rw [rule, show octetNat ps 2 = 2 from two]
      exact congrArg (fun x : Channel => statusOf 2 3 (.channel x x.settling) s1) same

end Sys2Proof.Machine
end

section
/-! The production of records and the slots of the channels (O41). -/

namespace Sys2Proof.Machine

/-! ## One examined record (R172) -/

theorem inRange_wants (x : Channel) (r : Record) : inRange x.filterLow x.filterHigh r.tenant = x.wants r := rfl

theorem stops_iff {x : Channel} {r : Record} :
    (x.stop.any fun p => inRange p.1 p.2 r.tenant) = true ↔ x.stopsAt r := by
  unfold Channel.stopsAt inRange
  cases x.stop with
  | none => simp
  | some p => simp [Prod.eq_iff_fst_eq_snd_eq]

theorem readAccount_eq {s : State} {t : Tenant} (good : ∀ n e, mapFind s.tenants n = some e → e.checkGood = true) :
    readAccount t s = (s.accountOf t, .of s) := by
  unfold readAccount State.accountOf
  cases h : mapFind s.tenants t.toNat with
  | none => rfl
  | some e =>
    dsimp only [Option.bind_some]
    rw [good _ e h]
    by_cases ok : e.integ = .good
    · rw [if_pos ok, if_pos ok, if_pos rfl]
    · rw [if_neg ok, if_neg ok]

section

variable (s : State) (x : Channel) (records : List Record)

/-- The channel once `n` records from its cursor are examined (R172). -/
def State.examinedTo (n : Nat) : Channel :=
  let taken := (records.drop x.cursor).take n
  { x with
    mark := x.markNow, cursor := x.cursor + n, sent := x.sent + (s.messageAfter x records n).length
    skipF := x.skipF + (taken.filter fun r => !x.wants r).length
    skipU := x.skipU + (taken.filter fun r => x.wants r && (s.outRecord x r).isNone).length
    building := s.messageAfter x records n }

/-- A stop range applies at the record `n` places behind the cursor (R172 step 2). -/
def Channel.stopsBefore (resumed : Bool) (n : Nat) : Prop :=
  ¬ (resumed = true ∧ n = 0) ∧ ∃ r, records[x.cursor + n]? = some r ∧ x.wants r = true ∧ x.stopsAt r

/-- The channel at the end of a production that examined `n` records (R172, R173). -/
def State.produced (n : Nat) : Channel :=
  let y := s.examinedTo x records n
  let causes := s.causesAfter x records n
  if causes ≠ {} then y.terminate causes
  else if (s.messageAfter x records n).length = 2 then y.build
  else y.terminate { causes with matched := true }

theorem causesNow_examinedTo (n : Nat) : (s.examinedTo x records n).causesNow records.length = s.causesAfter x records n := by
  unfold Channel.causesNow State.causesAfter State.examinedTo
  simp only [Causes.mk.injEq, and_true]
  refine ⟨?_, ?_, ?_⟩
  · rw [Bool.eq_iff_iff, beq_iff_eq, decide_eq_true_iff]
  · rw [Bool.eq_iff_iff, Bool.and_eq_true, bne_iff_ne, beq_iff_eq, decide_eq_true_iff]
  · rw [Bool.eq_iff_iff, Bool.and_eq_true, beq_iff_eq, Bool.and_eq_true, decide_eq_true_iff]

theorem causesAfter_any (n : Nat) : (s.causesAfter x records n).any = true ↔ s.causesAfter x records n ≠ {} := by
  have each : ∀ a b c : Bool, ({ exhausted := a, count := b, single := c } : Causes).any = true
      ↔ ({ exhausted := a, count := b, single := c } : Causes) ≠ {} := by decide
  exact each _ _ _

variable {s x records}

theorem messageAfter_zero : s.messageAfter x records 0 = [] := rfl

theorem messageAfter_succ {n : Nat} {r : Record} (h : records[x.cursor + n]? = some r) :
    s.messageAfter x records (n + 1) = s.messageAfter x records n ++ (s.outRecord x r).toList := by
  unfold State.messageAfter
  rw [List.take_add_one, List.getElem?_drop, h, List.filterMap_append]
  cases hr : s.outRecord x r <;> simp [hr]

theorem taken_succ {n : Nat} {r : Record} (h : records[x.cursor + n]? = some r) :
    (records.drop x.cursor).take (n + 1) = (records.drop x.cursor).take n ++ [r] := by
  rw [List.take_add_one, List.getElem?_drop, h]
  rfl

theorem outRecord_of_unwanted {r : Record} (h : x.wants r = false) : s.outRecord x r = none := if_pos h

/-- One more record of the source is examined (R172 steps 1, 3 and 4). -/
theorem examine_next {n : Nat} {r : Record} (h : records[x.cursor + n]? = some r) {pass : Bool}
    (free : x.wants r = false ∨ pass = true ∨ ¬ x.stopsAt r)
    (good : x.translate = true → ∀ n e, mapFind s.tenants n = some e → e.checkGood = true) :
    examine pass r (s.examinedTo x records n) s = ((s.examinedTo x records (n + 1), false), .of s) := by
  have msg := messageAfter_succ (s := s) h
  have taken := taken_succ h
  unfold examine
  rw [show (s.examinedTo x records n).filterLow = x.filterLow from rfl,
    show (s.examinedTo x records n).filterHigh = x.filterHigh from rfl, inRange_wants,
    show (s.examinedTo x records n).stop = x.stop from rfl,
    show (s.examinedTo x records n).translate = x.translate from rfl]
  cases wanted : x.wants r with
  | false =>
    rw [outRecord_of_unwanted wanted] at msg
    simp [State.examinedTo, msg, taken, wanted, Nat.add_assoc]
  | true =>
    have through : (!pass && x.stop.any fun p => inRange p.1 p.2 r.tenant) = false := by
      rw [wanted] at free
      rcases free with no | rfl | no
      · cases no
      · rfl
      · rw [Bool.eq_false_iff.2 (mt stops_iff.1 no), Bool.and_false]
    rw [through]
    cases translate : x.translate with
    | false =>
      have out : s.outRecord x r = some ⟨none, r⟩ := by simp [State.outRecord, wanted, translate]
      rw [out] at msg
      simp [State.examinedTo, msg, taken, wanted, out, Channel.joinRecord, Nat.add_assoc]
    | true =>
      have out : s.outRecord x r = (s.accountOf r.tenant).map fun a => ⟨some a, r⟩ := by
        simp [State.outRecord, wanted, translate]
      rw [readAccount_eq (good translate)]
      cases account : s.accountOf r.tenant with
      | none =>
        rw [account, Option.map_none] at out
        rw [out] at msg
        simp [State.examinedTo, msg, taken, wanted, translate, out, Nat.add_assoc]
      | some a =>
        rw [account, Option.map_some] at out
        rw [out] at msg
        simp [State.examinedTo, msg, taken, wanted, out, Channel.joinRecord, Nat.add_assoc]

theorem examine_stopped {n : Nat} {r : Record} (wanted : x.wants r = true) (stops : x.stopsAt r) :
    examine false r (s.examinedTo x records n) s = ((s.examinedTo x records n, true), .of s) := by
  unfold examine
  rw [show (s.examinedTo x records n).filterLow = x.filterLow from rfl,
    show (s.examinedTo x records n).filterHigh = x.filterHigh from rfl, inRange_wants,
    show (s.examinedTo x records n).stop = x.stop from rfl, wanted, stops_iff.2 stops]
  rfl

/-- The examination stops after `n` records and not before (R172, R173). -/
structure State.ProductionEnds (s : State) (x : Channel) (records : List Record) (resumed : Bool) (k n : Nat) : Prop where
  inside : x.cursor + n ≤ records.length
  goesOn : ∀ m, k ≤ m → m < n →
    s.causesAfter x records m = {} ∧ (s.messageAfter x records m).length < 2 ∧ ¬ x.stopsBefore records resumed m
  ends : s.causesAfter x records n ≠ {} ∨ (s.messageAfter x records n).length = 2 ∨ x.stopsBefore records resumed n

theorem examineAll_ends (resumed : Bool) (good : x.translate = true → ∀ n e, mapFind s.tenants n = some e → e.checkGood = true)
    (rest : List Record) (k : Nat) (here : rest = records.drop (x.cursor + k)) (inside : x.cursor + k ≤ records.length)
    (short : (s.messageAfter x records k).length ≤ 2) :
    ∃ n, k ≤ n ∧ s.ProductionEnds x records resumed k n
      ∧ examineAll records.length rest (resumed && k == 0) (s.examinedTo x records k) s = (s.produced x records n, .of s) := by
  have causes (n : Nat) := causesNow_examinedTo s x records n
  have atOnce (ends : s.causesAfter x records k ≠ {} ∨ (s.messageAfter x records k).length = 2
      ∨ x.stopsBefore records resumed k) : s.ProductionEnds x records resumed k k :=
    ⟨inside, fun m hm hk => absurd hk (Nat.not_lt.2 hm), ends⟩
  induction rest generalizing k with
  | nil =>
    have all : x.cursor + k = records.length := by
      have := congrArg List.length here
      rw [List.length_drop, List.length_nil] at this
      omega
    have exhausted : (s.causesAfter x records k).exhausted = true := decide_eq_true all
    have some : s.causesAfter x records k ≠ {} := fun e => by simp [e] at exhausted
    refine ⟨k, le_rfl, atOnce (.inl some), ?_⟩
    have same : { s.causesAfter x records k with exhausted := true } = s.causesAfter x records k := by
      rw [← exhausted]
    rw [examineAll, causes, same, State.produced, if_pos some]
  | cons r rest ih =>
    have next : records[x.cursor + k]? = some r := by
      rw [← Nat.add_zero (x.cursor + k), ← List.getElem?_drop, ← here]
      rfl
    have more : x.cursor + (k + 1) ≤ records.length := by
      have := (List.getElem?_eq_some_iff.1 next).1
      omega
    unfold examineAll
    rw [causes]
    by_cases some : s.causesAfter x records k ≠ {}
    · rw [if_pos ((causesAfter_any ..).2 some)]
      refine ⟨k, le_rfl, atOnce (.inl some), ?_⟩
      rw [State.produced, if_pos some]
    · rw [if_neg (mt (causesAfter_any ..).1 some)]
      have none : s.causesAfter x records k = {} := not_not.1 some
      by_cases two : (s.messageAfter x records k).length = 2
      · rw [if_pos (show (s.examinedTo x records k).building.length = 2 from two)]
        refine ⟨k, le_rfl, atOnce (.inr (.inl two)), ?_⟩
        rw [State.produced, if_neg some, if_pos two]
      · rw [if_neg (show ¬ (s.examinedTo x records k).building.length = 2 from two)]
        by_cases stop : x.stopsBefore records resumed k
        · obtain ⟨first, r', hr', wanted, stops⟩ := id stop
          obtain rfl : r' = r := Option.some.inj (hr'.symm.trans next)
          have fresh : (resumed && k == 0) = false := Bool.eq_false_iff.2 fun both => by
            obtain ⟨res, zero⟩ := Bool.and_eq_true_iff.1 both
            exact first ⟨res, beq_iff_eq.1 zero⟩
          refine ⟨k, le_rfl, atOnce (.inr (.inr stop)), ?_⟩
          rw [fresh, examine_stopped wanted stops]
          simp only [if_true]
          rw [causes, State.produced, if_neg some, if_neg two]
        · have free : x.wants r = false ∨ (resumed && k == 0) = true ∨ ¬ x.stopsAt r := by
            by_cases wanted : x.wants r = true
            · by_cases first : resumed = true ∧ k = 0
              · exact .inr (.inl (by rw [first.1, first.2]; rfl))
              · exact .inr (.inr fun stops => stop ⟨first, r, next, wanted, stops⟩)
            · exact .inl (Bool.eq_false_iff.2 wanted)
          have later : (s.messageAfter x records (k + 1)).length ≤ 2 := by
            have : (s.outRecord x r).toList.length ≤ 1 := by cases s.outRecord x r <;> simp
            rw [messageAfter_succ next, List.length_append]
            omega
          obtain ⟨n, hn, ends, run⟩ := ih (k + 1) (by rw [← Nat.add_assoc, ← List.drop_drop, ← here]; rfl) more later
            fun ends => ⟨more, fun m hm hk => absurd hk (Nat.not_lt.2 hm), ends⟩
          refine ⟨n, by omega, ⟨ends.inside, fun m hm hmn => ?_, ends.ends⟩, ?_⟩
          · rcases Nat.eq_or_lt_of_le hm with rfl | hm
            · exact ⟨none, by omega, stop⟩
            · exact ends.goesOn m hm hmn
          · rw [examine_next next free good]
            have later : (resumed && k + 1 == 0) = false := by simp
            rw [later] at run
            simp only [Bool.false_eq_true, if_false]
            rw [show (Out.of s).st = s from rfl, run]
            rfl

end

/-! ## Slot 7 -/

/-- What slot 7 does to a channel: its outstanding message may have entered it. -/
structure Channel.Entered (x y : Channel) : Prop where
  rest : y = { x with outstanding := y.outstanding, shareUsed := y.shareUsed }
  message : (y.outstanding.map fun o => (o.seq, o.records)) = x.outstanding.map fun o => (o.seq, o.records)
  idle : x.outstanding = none → y = x

theorem Channel.Entered.refl (x : Channel) : x.Entered x := ⟨rfl, rfl, fun _ => rfl⟩

theorem fillRecord_cases (s : State) : fillRecord s = s ∨ ∃ c o, s.nextRecord = some c ∧ (s.chan c).outstanding = some o
    ∧ fillRecord s = setChan c (fun y => { y with outstanding := some { o with inSlot := true }, shareUsed := y.shareUsed + 1 })
      { s with
        line := { s.line with
          wRecord := some { dst := (s.chan c).dst, body := .record c (s.chan c).source o.seq o.records } }
        chans := { s.chans with nextFirst := 1 - c } } := by
  by_cases open_ : (s.mayNotify && s.line.wRecord.isNone && !s.line.sending 7) = true
  · cases next : s.nextRecord with
    | none =>
      refine .inl ?_
      unfold fillRecord
      rw [next]
      exact ite_self _
    | some c =>
      cases ready : (s.chan c).outstanding with
      | none =>
        refine .inl ?_
        unfold fillRecord
        rw [next]
        dsimp only
        rw [ready]
        exact ite_self _
      | some o =>
        simp only [Bool.and_eq_true, Option.isNone_iff_eq_none, Bool.not_eq_true'] at open_
        obtain ⟨⟨notify, free⟩, idle⟩ := open_
        exact .inr ⟨c, o, rfl, ready, fillRecord_of_nextRecord notify free idle next ready⟩
  · exact .inl (if_neg open_)

theorem fillRecord_chan (s : State) (d : Fin 2) : (s.chan d).Entered ((fillRecord s).chan d) := by
  rcases fillRecord_cases s with e | ⟨c, o, -, ready, e⟩
  · rw [e]
    exact .refl _
  · rw [e]
    by_cases same : d = c
    · subst same
      rw [chan_setChan]
      exact ⟨rfl, by rw [ready]; rfl, fun none => by rw [none] at ready; cases ready⟩
    · rw [chan_setChan_ne same]
      exact .refl _

theorem fillRecord_line (s : State) : (fillRecord s).line = { s.line with wRecord := (fillRecord s).line.wRecord } := by
  rcases fillRecord_cases s with e | ⟨c, o, -, -, e⟩
  · rw [e]
  · rw [e]
    rfl

/-- Slot 7 once filled, or found without a message for it, is not filled again. -/
theorem fillRecord_fillRecord (s : State) : fillRecord (fillRecord s) = fillRecord s := by
  rcases fillRecord_cases s with e | ⟨c, o, -, -, e⟩
  · rw [e, e]
  · refine fillRecord_of_not (.inr (.inl ?_))
    rw [e]
    rfl

/-! ## Slot 6 -/

/-- What slot 6 does to a channel: its END may have entered it. -/
def Channel.endEntered (x : Channel) : Channel :=
  { x with pendingEnd := x.pendingEnd.map fun e => { e with stage := .inSlot } }

theorem fillEnd_cases (s : State) : fillEnd s = s ∨ ∃ r rs, s.chans.readyEnds = r :: rs
    ∧ fillEnd s = setChan r.chan Channel.endEntered
      { s with
        line := { s.line with wEnd := some { dst := r.dst, body := .endReport r } }
        chans := { s.chans with readyEnds := rs } } := by
  by_cases open_ : (s.mayNotify && s.line.wEnd.isNone && !s.line.sending 6) = true
  · cases ends : s.chans.readyEnds with
    | nil =>
      refine .inl ?_
      unfold fillEnd
      rw [ends]
      exact ite_self _
    | cons r rs =>
      refine .inr ⟨r, rs, rfl, ?_⟩
      unfold fillEnd
      rw [if_pos open_, ends]
      rfl
  · exact .inl (if_neg open_)

theorem fillEnd_chan (s : State) (d : Fin 2) :
    (fillEnd s).chan d = s.chan d ∨ (fillEnd s).chan d = (s.chan d).endEntered := by
  rcases fillEnd_cases s with e | ⟨r, rs, -, e⟩
  · rw [e]
    exact .inl rfl
  · rw [e]
    by_cases same : d = r.chan
    · subst same
      rw [chan_setChan]
      exact .inr rfl
    · rw [chan_setChan_ne same]
      exact .inl rfl

theorem fillEnd_line (s : State) : (fillEnd s).line = { s.line with wEnd := (fillEnd s).line.wEnd } := by
  rcases fillEnd_cases s with e | ⟨r, rs, -, e⟩
  · rw [e]
  · rw [e]
    rfl

/-- A prepared END waits for its channel's outstanding message. -/
def Channel.awaitsEnd (x : Channel) (causes : Causes) : Prop := x.pendingEnd = some ⟨causes, .prepared⟩ ∧ x.outstanding = none

theorem readyEnd_of_not {c : Fin 2} {s : State} (h : ∀ causes, ¬ (s.chan c).awaitsEnd causes) : readyEnd c s = s := by
  unfold readyEnd
  dsimp only
  split
  · next causes hp ho => exact absurd ⟨hp, ho⟩ (h causes)
  · rfl

/-- The state in which a prepared END has been made ready. -/
def State.endReady (s : State) (c : Fin 2) (causes : Causes) : State :=
  let s1 := setChan c (fun y => { y with pendingEnd := some ⟨causes, .ready⟩ }) s
  { s1 with chans := { s1.chans with readyEnds := s1.chans.readyEnds ++ [endReportOf c (s.chan c) causes] } }

theorem readyEnd_of_awaits {c : Fin 2} {s : State} {causes : Causes} (h : (s.chan c).awaitsEnd causes) :
    readyEnd c s = fillEnd (s.endReady c causes) := by
  obtain ⟨hp, ho⟩ := h
  unfold readyEnd
  simp only [hp, ho]
  rfl

theorem chan_endReady (s : State) (c : Fin 2) (causes : Causes) :
    (s.endReady c causes).chan c = { s.chan c with pendingEnd := some ⟨causes, .ready⟩ } :=
  chan_setChan c (fun y => { y with pendingEnd := some ⟨causes, .ready⟩ }) s

theorem chan_endReady_ne {c d : Fin 2} (h : d ≠ c) (s : State) (causes : Causes) : (s.endReady c causes).chan d = s.chan d :=
  chan_setChan_ne h (fun y => { y with pendingEnd := some ⟨causes, .ready⟩ }) s

/-- The channel of an END that was made ready. -/
theorem readyEnd_chan {c : Fin 2} {s : State} {causes : Causes} (h : (s.chan c).awaitsEnd causes) :
    ∃ stage, stage ≠ EndStage.prepared ∧ (readyEnd c s).chan c = { s.chan c with pendingEnd := some ⟨causes, stage⟩ } := by
  rw [readyEnd_of_awaits h]
  rcases fillEnd_chan (s.endReady c causes) c with e | e
  · exact ⟨.ready, by decide, by rw [e, chan_endReady]⟩
  · exact ⟨.inSlot, by decide, by rw [e, chan_endReady]; rfl⟩

theorem readyEnd_line (c : Fin 2) (s : State) : (readyEnd c s).line = { s.line with wEnd := (readyEnd c s).line.wEnd } := by
  by_cases h : ∃ causes, (s.chan c).awaitsEnd causes
  · obtain ⟨causes, h⟩ := h
    rw [readyEnd_of_awaits h]
    exact fillEnd_line _
  · rw [readyEnd_of_not (not_exists.1 h)]

/-- An END is made ready once. -/
theorem readyEnd_done (c : Fin 2) (s : State) : ∀ causes, ¬ ((readyEnd c s).chan c).awaitsEnd causes := by
  by_cases h : ∃ causes, (s.chan c).awaitsEnd causes
  · obtain ⟨causes, h⟩ := h
    obtain ⟨stage, ne, e⟩ := readyEnd_chan h
    rw [e]
    rintro causes' ⟨hp, -⟩
    cases hp
    exact ne rfl
  · rw [readyEnd_of_not (not_exists.1 h)]
    exact not_exists.1 h

/-! ## The end of a production -/

theorem produce_of_running {c : Fin 2} {resumed : Bool} {s : State} (run : (s.chan c).state = .running)
    (free : (s.chan c).outstanding = none) :
    let records := s.sourceRecords (s.chan c)
    let n := examineAll records.length (records.drop (s.chan c).cursor) resumed { s.chan c with mark := (s.chan c).markNow } s
    produce resumed c s = n.2.also fun s1 => fillRecord (readyEnd c (setChan c (fun _ => n.1) s1)) := if_pos ⟨run, free⟩

/-- What a channel goes on with after a production is done by the production itself. -/
theorem channelFreed_of_running {c : Fin 2} {s : State} (run : (s.chan c).state = .running)
    (free : (s.chan c).outstanding = none) : channelFreed c s = produce false c s := by
  have settled (u : State) : fillRecord (readyEnd c (fillRecord (readyEnd c u))) = fillRecord (readyEnd c u) := by
    have done : ∀ causes, ¬ ((fillRecord (readyEnd c u)).chan c).awaitsEnd causes := by
      rintro causes ⟨hp, ho⟩
      obtain ⟨rest, message, -⟩ := fillRecord_chan (readyEnd c u) c
      refine readyEnd_done c u causes ⟨?_, ?_⟩
      · rw [rest] at hp
        exact hp
      · rw [ho] at message
        exact Option.map_eq_none_iff.1 message.symm
    rw [readyEnd_of_not done, fillRecord_fillRecord]
  unfold channelFreed
  rw [produce_of_running run free]
  show (⟨_, _⟩ : Out) = ⟨_, _⟩
  exact congrArg (Out.mk · _) (settled _)

/-- Production over a source whose tenant entries are good: the channel as produced, then slots 6 and 7. -/
theorem produce_ends {s : State} {c : Fin 2} {resumed : Bool} {i : Interval} (run : (s.chan c).state = .running)
    (free : (s.chan c).outstanding = none) (empty : (s.chan c).building = []) (source : s.interval (s.chan c).source = some i)
    (inside : (s.chan c).cursor ≤ i.records.length)
    (good : (s.chan c).translate = true → ∀ n e, mapFind s.tenants n = some e → e.checkGood = true) :
    ∃ n, s.ProductionEnds (s.chan c) i.records resumed 0 n
      ∧ produce resumed c s =
        .of (fillRecord (readyEnd c (setChan c (fun _ => s.produced (s.chan c) i.records n) s))) := by
  have records : s.sourceRecords (s.chan c) = i.records := by
    unfold State.sourceRecords
    rw [source]
  have start : s.examinedTo (s.chan c) i.records 0 = { s.chan c with mark := (s.chan c).markNow } := by
    simp [State.examinedTo, messageAfter_zero, empty]
  obtain ⟨n, -, ends, ran⟩ := examineAll_ends resumed good (i.records.drop (s.chan c).cursor) 0 rfl inside (Nat.zero_le _)
  refine ⟨n, ends, ?_⟩
  have whole : (resumed && (0 : Nat) == 0) = resumed := by cases resumed <;> rfl
  rw [whole, start] at ran
  have produced := produce_of_running (resumed := resumed) run free
  dsimp only at produced
  rw [produced, records, ran]
  rfl

/-- How a production leaves its channel, by what ended it. -/
theorem produced_cases (s : State) (x : Channel) (records : List Record) (free : x.outstanding = none) (n : Nat) :
    let y := s.produced x records n
    let msg := s.messageAfter x records n
    y = { s.examinedTo x records n with
          building := [], seq := if msg = [] then x.seq else x.seq + 1
          outstanding := if msg = [] then none else some { seq := x.seq, records := msg }
          state := y.state, pendingEnd := y.pendingEnd }
      ∧ (s.causesAfter x records n = {} → msg.length = 2 → y.state = x.state ∧ y.pendingEnd = x.pendingEnd)
      ∧ ∀ q : Causes, (s.causesAfter x records n ≠ {} ∧ q = s.causesAfter x records n)
            ∨ (s.causesAfter x records n = {} ∧ msg.length < 2 ∧ q = { s.causesAfter x records n with matched := true }) →
          y.state = (if q.exhausted = true then .idle else .stopped) ∧ y.pendingEnd = some ⟨q, .prepared⟩ := by
  intro y msg
  have ended (q : Causes) (h : y = (s.examinedTo x records n).terminate q) :
      y = { s.examinedTo x records n with
          building := [], seq := if msg = [] then x.seq else x.seq + 1
          outstanding := if msg = [] then none else some { seq := x.seq, records := msg }
          state := y.state, pendingEnd := y.pendingEnd }
        ∧ y.state = (if q.exhausted = true then .idle else .stopped) ∧ y.pendingEnd = some ⟨q, .prepared⟩ := by
    rw [h]
    refine ⟨?_, rfl, rfl⟩
    unfold Channel.terminate
    by_cases nil : msg = []
    · rw [if_pos (show (s.examinedTo x records n).building = [] from nil), if_pos nil, if_pos nil]
      have building : (s.examinedTo x records n).building = [] := nil
      have outstanding : (s.examinedTo x records n).outstanding = none := free
      simp only [building, outstanding]
      rfl
    · rw [if_neg (show ¬ (s.examinedTo x records n).building = [] from nil), if_neg nil, if_neg nil]
      rfl
  by_cases some : s.causesAfter x records n = {}
  · by_cases two : msg.length = 2
    · have h : y = (s.examinedTo x records n).build := by
        show s.produced x records n = _
        rw [State.produced, if_neg (not_not.2 some), if_pos two]
      have ne : msg ≠ [] := fun e => by simp [e] at two
      refine ⟨?_, fun _ _ => by rw [h]; exact ⟨rfl, rfl⟩, fun q hq => ?_⟩
      · rw [h, if_neg ne, if_neg ne]
        rfl
      · rcases hq with ⟨k, -⟩ | ⟨-, k, -⟩
        · exact absurd some k
        · omega
    · have h : y = (s.examinedTo x records n).terminate { s.causesAfter x records n with matched := true } := by
        show s.produced x records n = _
        rw [State.produced, if_neg (not_not.2 some), if_neg two]
      obtain ⟨whole, effect⟩ := ended _ h
      refine ⟨whole, fun _ k => absurd k two, fun q hq => ?_⟩
      rcases hq with ⟨k, -⟩ | ⟨-, -, rfl⟩
      · exact absurd some k
      · exact effect
  · have h : y = (s.examinedTo x records n).terminate (s.causesAfter x records n) := if_pos some
    obtain ⟨whole, effect⟩ := ended _ h
    refine ⟨whole, fun k => absurd k some, fun q hq => ?_⟩
    rcases hq with ⟨-, rfl⟩ | ⟨k, -⟩
    · exact effect
    · exact absurd k some

end Sys2Proof.Machine
end

section
/-! Production and termination of a RUNNING channel (O41). -/

namespace Sys2Proof.Machine

/-- What making an END ready and filling slot 7 do to a channel. -/
structure Channel.Served (x y : Channel) : Prop where
  rest : y = { x with outstanding := y.outstanding, shareUsed := y.shareUsed, pendingEnd := y.pendingEnd }
  message : (y.outstanding.map fun o => (o.seq, o.records)) = x.outstanding.map fun o => (o.seq, o.records)
  idle : x.outstanding = none → y.outstanding = none ∧ y.shareUsed = x.shareUsed
  ended : ∀ causes, x.awaitsEnd causes → ∃ stage, stage ≠ EndStage.prepared ∧ y.pendingEnd = some ⟨causes, stage⟩
  kept : (∀ causes, ¬ x.awaitsEnd causes) → y.pendingEnd = x.pendingEnd

theorem Channel.Entered.pendingEnd {x y : Channel} (h : x.Entered y) : y.pendingEnd = x.pendingEnd := by
  rw [h.rest]

theorem served_chan (c : Fin 2) (s : State) : (s.chan c).Served ((fillRecord (readyEnd c s)).chan c) := by
  have entered := fillRecord_chan (readyEnd c s) c
  by_cases h : ∃ causes, (s.chan c).awaitsEnd causes
  · obtain ⟨causes, awaits⟩ := h
    obtain ⟨stage, ne, now⟩ := readyEnd_chan awaits
    obtain ⟨held, free⟩ := awaits
    have same := entered.idle (by rw [now]; exact free)
    rw [same, now]
    refine ⟨rfl, rfl, fun _ => ⟨free, rfl⟩, fun causes' awaits' => ⟨stage, ne, ?_⟩, fun none => absurd ⟨held, free⟩ (none causes)⟩
    cases held.symm.trans awaits'.1
    rfl
  · have none := not_exists.1 h
    rw [readyEnd_of_not none] at entered ⊢
    obtain ⟨rest, message, idle⟩ := entered
    refine ⟨?_, message, fun free => by rw [idle free]; exact ⟨free, rfl⟩, fun causes awaits => absurd awaits (none causes),
      fun _ => Channel.Entered.pendingEnd ⟨rest, message, idle⟩⟩
    exact rest.trans (by rw [Channel.Entered.pendingEnd ⟨rest, message, idle⟩])

theorem served_line (c : Fin 2) (s : State) : (fillRecord (readyEnd c s)).line =
    { s.line with wEnd := (fillRecord (readyEnd c s)).line.wEnd, wRecord := (fillRecord (readyEnd c s)).line.wRecord } := by
  have record := fillRecord_line (readyEnd c s)
  have ending := readyEnd_line c s
  generalize (fillRecord (readyEnd c s)).line = l at *
  generalize (readyEnd c s).line = m at *
  rw [record, ending]

theorem served_frame (c : Fin 2) (s : State) : Frame [.line, .chans] s (fillRecord (readyEnd c s)) :=
  (readyEnd_frame c s).trans (fillRecord_frame _)

/-! ## Outcomes on the line of a RUNNING channel's message -/

theorem back_eq (x : Channel) : x.toMark = x.back := rfl

theorem setChan_const (c : Fin 2) (f : Channel → Channel) (s : State) : setChan c f s = setChan c (fun _ => f (s.chan c)) s := rfl

theorem exec_messageCompleted_record {s : State} {m : TxMsg} {c : Fin 2} {n : Count} {q : BitVec 16} {records : List OutRecord}
    (on : s.line.onLine = some m) (body : m.body = .record c n q records) :
    exec .messageCompleted s = done (channelFreed c (setChan c (fun x => { x with outstanding := none })
      { s with line := { s.line with onLine := none, discards := 0 } })) := by
  show done (completeMessage s) = _
  unfold completeMessage
  rw [on]
  dsimp only
  unfold completedOutcome
  rw [body]
  rfl

theorem exec_arbitrationLost_withdrawn {s : State} {m : TxMsg} {c : Fin 2} {n : Count} {q : BitVec 16} {records : List OutRecord}
    (on : s.line.onLine = some m) (body : m.body = .record c n q records) (asked : m.withdrawn = true) :
    exec .arbitrationLost s =
      done (channelFreed c (setChan c Channel.toMark { s with line := { s.line with onLine := none } })) := by
  show done (loseArbitration s) = _
  unfold loseArbitration
  rw [on]
  dsimp only
  unfold withdrawnOutcome
  rw [if_pos asked, body]
  rfl

theorem exec_transmitError_withdrawn {s : State} {m : TxMsg} {c : Fin 2} {n : Count} {q : BitVec 16} {records : List OutRecord}
    (on : s.line.onLine = some m) (body : m.body = .record c n q records) (asked : m.withdrawn = true) :
    exec .transmitError s = done (channelFreed c (setChan c Channel.toMark
      { s with line := { s.line with onLine := none, txError := satInc s.line.txError } })) := by
  show done (transmitErrorAt s) = _
  unfold transmitErrorAt
  rw [on]
  dsimp only
  unfold withdrawnOutcome
  rw [if_pos asked, body]
  rfl

theorem countDiscard_eq (s : State) :
    countDiscard { s with line := { s.line with onLine := none, txError := satInc s.line.txError } } =
      { s with line := s.lineFailed } := by
  unfold countDiscard enterQuiet State.lineFailed
  dsimp only
  split
  · rfl
  · rfl

theorem newerWaits_record {m : TxMsg} {c : Fin 2} {n : Count} {q : BitVec 16} {records : List OutRecord}
    (body : m.body = .record c n q records) (l : GroupLine) : l.newerWaits m = false := by
  unfold GroupLine.newerWaits
  rw [body]

theorem transmitErrorAt_ninth {s : State} {m : TxMsg} (on : s.line.onLine = some m) (kept : m.withdrawn = false)
    (last : s.line.newerWaits m = false) (ninth : 8 ≤ m.errors) :
    transmitErrorAt s = discardedOutcome m { s with line := s.lineFailed } := by
  unfold transmitErrorAt
  rw [on]
  exact (if_neg (by rw [kept]; exact Bool.false_ne_true)).trans ((if_neg (Bool.eq_false_iff.1 last)).trans
    ((if_neg (by omega)).trans (congrArg (discardedOutcome m) (countDiscard_eq s))))

theorem exec_transmitError_record {s : State} {m : TxMsg} {c : Fin 2} {n : Count} {q : BitVec 16} {records : List OutRecord}
    (on : s.line.onLine = some m) (body : m.body = .record c n q records) (kept : m.withdrawn = false) (ninth : 8 ≤ m.errors) :
    exec .transmitError s = done (channelFreed c (setChan c (fun x => { x with outstanding := none, lost := x.lost + records.length })
      { s with line := s.lineFailed })) := by
  show done (transmitErrorAt s) = _
  rw [transmitErrorAt_ninth on kept (newerWaits_record body _) ninth]
  unfold discardedOutcome
  rw [body]
  rfl

/-- A record whose tenant entry fails its check at the translation is skipped; the entry is refetched (R9 case 4). -/
theorem examine_of_faulty {s : State} {x : Channel} {r : Record} {e : TenantEntry} {pass : Bool} (translate : x.translate = true)
    (wanted : x.wants r = true) (free : pass = true ∨ ¬ x.stopsAt r) (he : mapFind s.tenants r.tenant.toNat = some e)
    (ok : e.integ = .good) (bad : e.checkGood = false) :
    examine pass r x s = (({ x with skipU := x.skipU + 1, cursor := x.cursor + 1 }, false),
      ⟨{ s with
          tenants := mapInsert s.tenants r.tenant.toNat { e with integ := s.faultInteg }
          loader := s.faultLoader ⟨.tenant, r.tenant.toNat⟩ }, [⟨.integrityFault, none⟩]⟩) := by
  have through : (!pass && x.stop.any fun p => inRange p.1 p.2 r.tenant) = false := by
    rcases free with rfl | no
    · rfl
    · rw [Bool.eq_false_iff.2 (mt stops_iff.1 no), Bool.and_false]
  have read : readAccount r.tenant s = (none, configFault ⟨.tenant, r.tenant.toNat⟩ s) := by
    simp [readAccount, he, ok, bad]
  unfold examine
  rw [inRange_wants, wanted, through, translate, read, configFault_tenant he]
  rfl

theorem chan_of_line (s : State) (l : GroupLine) (c : Fin 2) : ({ s with line := l } : State).chan c = s.chan c := rfl

/-- A RUNNING channel whose message left it produces again. -/
theorem freed_running {s : State} {l : GroupLine} {c : Fin 2} {f : Channel → Channel} (run : (f (s.chan c)).state = .running)
    (free : (f (s.chan c)).outstanding = none) :
    channelFreed c (setChan c f { s with line := l }) =
      produce false c (setChan c (fun _ => f (s.chan c)) { s with line := l }) := by
  have here : (setChan c (fun _ => f (s.chan c)) { s with line := l }).chan c = f (s.chan c) :=
    chan_setChan c (fun _ => f (s.chan c)) { s with line := l }
  rw [setChan_const, chan_of_line]
  exact channelFreed_of_running (by rw [here]; exact run) (by rw [here]; exact free)

/-- Settles O41: the examination up to its end, then slots 6 and 7; a faulty tenant entry; what goes on after an outcome. -/
theorem recordsAreProducedInOrder : Obligations.RecordsAreProducedInOrder := by
  unfold Obligations.RecordsAreProducedInOrder
  refine ⟨fun s c resumed i => ?_, fun s c r e pass => ?_, fun s m c n q records on body run => ?_⟩
  · intro x run free empty source inside good examined msg causes stopped
    obtain ⟨n, ends, produced⟩ := produce_ends (resumed := resumed) run free empty source inside good
    let z := s.produced x i.records n
    let u := setChan c (fun _ => z) s
    have now : u.chan c = z := chan_setChan c (fun _ => z) s
    have served := served_chan c u
    rw [now] at served
    obtain ⟨whole, goesOn, terminates⟩ := produced_cases s x i.records free n
    have whole : z = { s.examinedTo x i.records n with
          building := [], seq := if msg n = [] then x.seq else x.seq + 1
          outstanding := if msg n = [] then none else some { seq := x.seq, records := msg n }
          state := z.state, pendingEnd := z.pendingEnd } := whole
    have outstanding : z.outstanding = if msg n = [] then none else some { seq := x.seq, records := msg n } :=
      congrArg Channel.outstanding whole
    have noEnd (h : msg n ≠ []) : ∀ q, ¬ z.awaitsEnd q := fun q ⟨_, free⟩ => by
      rw [outstanding, if_neg h] at free
      cases free
    have state : ((fillRecord (readyEnd c u)).chan c).state = z.state := by rw [served.rest]
    refine ⟨n, fillRecord (readyEnd c u), produced, ?_, served_line c u, ends.inside, fun m hm => ends.goesOn m (Nat.zero_le m) hm,
      ends.ends, ?_, ?_, fun none two => ?_, fun q hq => ?_⟩
    · exact (((setChan_frame c _ s).mono (by decide)).trans ((served_frame c u).mono (by decide)))
    · have rest := served.rest
      rw [whole] at rest
      rw [state]
      refine rest.trans ?_
      congr 1
      exact empty.symm
    · rw [served.message, outstanding]
      by_cases none : msg n = []
      · rw [if_pos none, if_pos none]
        rfl
      · rw [if_neg none, if_neg none]
        rfl
    · obtain ⟨stays, ending⟩ := goesOn none two
      have some : msg n ≠ [] := fun e => by
        rw [e] at two
        cases two
      exact ⟨state.trans (stays.trans run), (served.kept (noEnd some)).trans ending⟩
    · obtain ⟨stops, ending⟩ := terminates q hq
      refine ⟨state.trans stops, ?_⟩
      by_cases none : msg n = []
      · obtain ⟨stage, ne, now⟩ := served.ended q ⟨ending, by rw [outstanding, if_pos none]⟩
        exact ⟨⟨q, stage⟩, now, rfl, fun prepared => absurd prepared ne, fun some => absurd none some⟩
      · exact ⟨⟨q, .prepared⟩, (served.kept (noEnd none)).trans ending, rfl, fun _ => none, fun _ => rfl⟩
  · intro x translate wanted free he ok bad
    exact examine_of_faulty translate wanted free he ok bad
  · intro cleared next
    refine ⟨?_, fun kept ninth => ?_, fun asked => ⟨?_, ?_⟩⟩
    · rw [exec_messageCompleted_record on body]
      exact congrArg done (freed_running (f := fun x => { x with outstanding := none }) run rfl)
    · rw [exec_transmitError_record on body kept ninth]
      exact congrArg done (freed_running (f := fun x => { x with outstanding := none, lost := x.lost + records.length }) run rfl)
    · rw [exec_arbitrationLost_withdrawn on body asked]
      exact congrArg done (freed_running (f := Channel.toMark) run rfl)
    · rw [exec_transmitError_withdrawn on body asked]
      exact congrArg done (freed_running (f := Channel.toMark) run rfl)

end Sys2Proof.Machine
end

section
/-! Messages that leave the line (O36, O37). -/

namespace Sys2Proof.Machine

/-! ## What the event links keep -/

/-- A relation that every action of a link keeps. -/
structure KeptByLinks (R : State → State → Prop) : Prop where
  refl : ∀ s, R s s
  trans : ∀ {s t u}, R s t → R t u → R s u
  act : ∀ a s, R s (act a s).st
  setLink : ∀ n f s, R s (setLink n f s)

namespace KeptByLinks

variable {R : State → State → Prop} (h : KeptByLinks R)
include h

theorem hearEvent (e : Event) (n : Nat) (s : State) : R s (hearEvent e n s).st := by
  unfold Machine.hearEvent
  split
  · exact h.refl s
  · split
    · split
      · exact h.trans (h.act _ s) (h.setLink n _ _)
      · exact h.setLink n _ s
    · exact h.refl s

theorem takeEvent (e : Event) (s : State) : R s (takeEvent e s).st := by
  have each (ns : List Nat) (t : State) : R t (eachOut (Machine.hearEvent e) ns t).st := by
    induction ns generalizing t with
    | nil => exact h.refl t
    | cons n ns ih => exact h.trans (h.hearEvent e n t) (ih _)
  unfold Machine.takeEvent
  split
  · exact each _ s
  · exact h.refl s

theorem settleEvents (n : Nat) (es : List Event) (s : State) : R s (settleEvents n es s) := by
  induction n generalizing es s with
  | zero => exact h.refl s
  | succ n ih =>
    unfold Machine.settleEvents
    induction es generalizing s with
    | nil => exact h.refl s
    | cons e es ihe => exact h.trans (h.takeEvent e s) (h.trans (ih _ _) (ihe _))

theorem conclude (o : Out) : R o.st (conclude o) := h.settleEvents 8 o.evs o.st

end KeptByLinks

/-- The line but for its waiting messages, and the lost counts of the channels. -/
structure LineKept (s t : State) : Prop where
  line : t.line = { s.line with
    wLink := t.line.wLink, wLoad := t.line.wLoad, wEnd := t.line.wEnd, wRecord := t.line.wRecord }
  lost : ∀ c, (t.chan c).lost = (s.chan c).lost

theorem LineKept.refl (s : State) : LineKept s s := ⟨rfl, fun _ => rfl⟩

theorem LineKept.trans {s t u : State} (h : LineKept s t) (k : LineKept t u) : LineKept s u := by
  refine ⟨?_, fun c => (k.lost c).trans (h.lost c)⟩
  have now := k.line
  rw [h.line] at now
  exact now

theorem served_chan_lost (c d : Fin 2) (s : State) : ((fillRecord (readyEnd c s)).chan d).lost = (s.chan d).lost := by
  have entered : ((fillRecord (readyEnd c s)).chan d).lost = ((readyEnd c s).chan d).lost := by
    rw [(fillRecord_chan (readyEnd c s) d).rest]
  refine entered.trans ?_
  by_cases h : ∃ causes, (s.chan c).awaitsEnd causes
  · obtain ⟨causes, awaits⟩ := h
    have ready : ((s.endReady c causes).chan d).lost = (s.chan d).lost := by
      by_cases same : d = c
      · subst same
        rw [chan_endReady]
      · rw [chan_endReady_ne same]
    rw [readyEnd_of_awaits awaits, ← ready]
    rcases fillEnd_chan (s.endReady c causes) d with e | e
    · rw [e]
    · rw [e]
      rfl
  · rw [readyEnd_of_not (not_exists.1 h)]

theorem served_lineKept (c : Fin 2) (s : State) : LineKept s (fillRecord (readyEnd c s)) :=
  ⟨(served_line c s).trans (by rw [served_line]), fun d => served_chan_lost c d s⟩

theorem LineKept.of_setChan (c : Fin 2) {f : Channel → Channel} (hf : ∀ x, (f x).lost = x.lost) (s : State) :
    LineKept s (setChan c f s) := by
  refine ⟨rfl, fun d => ?_⟩
  by_cases same : d = c
  · subst same
    rw [chan_setChan, hf]
  · rw [chan_setChan_ne same]

theorem LineKept.of_frame {l : List Block} {s t : State} (h : Frame l s t) (hl : Block.line ∉ l) (hc : Block.chans ∉ l) :
    LineKept s t := by
  refine ⟨by rw [h.line hl], fun c => ?_⟩
  unfold State.chan
  rw [h.chans hc]

theorem Channel.terminate_lost (causes : Causes) (x : Channel) : (x.terminate causes).lost = x.lost := by
  unfold Channel.terminate
  split
  · rfl
  · rfl

theorem lineKept_keptByLinks : KeptByLinks LineKept where
  refl := .refl
  trans := .trans
  act a s := by
    cases a with
    | sendLoad =>
      show LineKept s (composeLoad s)
      unfold composeLoad
      split
      · exact ⟨rfl, fun _ => rfl⟩
      · exact .refl s
    | sendLink =>
      show LineKept s (composeLink s)
      unfold composeLink
      split
      · exact ⟨rfl, fun _ => rfl⟩
      · exact .refl s
    | closeInterval => exact .of_frame (boundary_frame s) (by decide) (by decide)
    | exportEvent c =>
      show LineKept s (exportEvent c s)
      unfold exportEvent
      dsimp only
      split
      · exact (LineKept.of_setChan c (Channel.terminate_lost _) s).trans (served_lineKept c _)
      · exact .refl s
    | markInterval code => exact ⟨rfl, fun _ => rfl⟩
  setLink n f s := ⟨rfl, fun _ => rfl⟩

theorem examine_lost (b : Bool) (r : Record) (x : Channel) (s : State) : (examine b r x s).1.1.lost = x.lost := by
  unfold examine
  split
  · rfl
  · split
    · rfl
    · split
      · dsimp only
        split
        · rfl
        · rfl
      · rfl

theorem examineAll_lost (total : Nat) (rs : List Record) (b : Bool) (x : Channel) (s : State) :
    (examineAll total rs b x s).1.lost = x.lost := by
  induction rs generalizing b x s with
  | nil => exact Channel.terminate_lost _ x
  | cons r rs ih =>
    unfold examineAll
    split
    · exact Channel.terminate_lost _ x
    · split
      · rfl
      · dsimp only
        split
        · exact (Channel.terminate_lost _ _).trans (examine_lost b r x s)
        · exact (ih _ _ _).trans (examine_lost b r x s)

theorem LineKept.serve {s t : State} (h : LineKept s t) {c : Fin 2} {y : Channel} (hy : y.lost = (s.chan c).lost) :
    LineKept s (fillRecord (readyEnd c (setChan c (fun _ => y) t))) := by
  refine LineKept.trans (t := setChan c (fun _ => y) t) ⟨h.line, fun d => ?_⟩ (served_lineKept c _)
  by_cases same : d = c
  · subst same
    rw [chan_setChan, hy]
  · rw [chan_setChan_ne same, h.lost]

theorem examineAll_lineKept (total : Nat) (rs : List Record) (b : Bool) (x : Channel) (s : State) :
    LineKept s (examineAll total rs b x s).2.st := .of_frame (examineAll_frame total rs b x s) (by decide) (by decide)

theorem produce_lineKept (b : Bool) (c : Fin 2) (s : State) : LineKept s (produce b c s).st := by
  by_cases run : (s.chan c).state = .running ∧ (s.chan c).outstanding = none
  · obtain ⟨total, rs, x, hx, produced⟩ : ∃ total rs x, x.lost = (s.chan c).lost ∧ produce b c s =
        (examineAll total rs b x s).2.also fun t =>
          fillRecord (readyEnd c (setChan c (fun _ => (examineAll total rs b x s).1) t)) :=
      ⟨_, _, { s.chan c with mark := (s.chan c).markNow }, rfl, produce_of_running run.1 run.2⟩
    rw [produced]
    exact LineKept.serve (examineAll_lineKept total rs b x s) ((examineAll_lost total rs b x s).trans hx)
  · rw [show produce b c s = .of s from if_neg run]
    exact .refl s

theorem channelFreed_lineKept (c : Fin 2) (s : State) : LineKept s (channelFreed c s).st :=
  (produce_lineKept false c s).trans (served_lineKept c _)

/-! ## Outcomes by the class of the message -/

section

variable {s : State} {m : TxMsg}

/-- A message that no block waits for. -/
def State.Unattended (s : State) (m : TxMsg) : Prop :=
  m.body.cls = 0 ∨ m.body.cls = 1 ∨ m.body.cls = 3 ∨ (m.body.cls = 4 ∧ (m.restarts = false ∨ s.orders.restartPending = false))

theorem slotFreed_unattended (h : s.Unattended m) : slotFreed m s = s := by
  unfold slotFreed
  obtain ⟨dst, body, errors, withdrawn⟩ := m
  cases body with
  | answer kind tag refusal data =>
    have no : ¬ ((TxMsg.restarts ⟨dst, .answer kind tag refusal data, errors, withdrawn⟩ && s.orders.restartPending) = true) := by
      rcases h with h | h | h | ⟨-, h | h⟩
      · cases h
      · cases h
      · cases h
      · rw [h]
        exact Bool.false_ne_true
      · rw [h, Bool.and_false]
        exact Bool.false_ne_true
    exact if_neg no
  | reach serial items => rcases h with h | h | h | ⟨h, -⟩ <;> cases h
  | endReport r => rcases h with h | h | h | ⟨h, -⟩ <;> cases h
  | _ => rfl

theorem outcomes_of_not_record (h : m.body.cls ≠ 7) :
    completedOutcome m s = .of (slotFreed m s) ∧ discardedOutcome m s = .of (slotFreed m s) := by
  unfold completedOutcome discardedOutcome
  obtain ⟨dst, body, errors, withdrawn⟩ := m
  cases body with
  | record c n q records => exact absurd rfl h
  | _ => exact ⟨rfl, rfl⟩

theorem slotFreed_reach (h : m.body.cls = 5) : slotFreed m s = composeReach s := by
  unfold slotFreed
  obtain ⟨dst, body, errors, withdrawn⟩ := m
  cases body with
  | reach serial items => rfl
  | _ => cases h

theorem slotFreed_restart {tag : BitVec 16} {data : AnswerData} (body : m.body = .answer 8 tag none data)
    (pending : s.orders.restartPending = true) : slotFreed m s = s.restarted := by
  have restarts : m.restarts = true := by
    unfold TxMsg.restarts
    rw [body]
    rfl
  unfold slotFreed
  rw [body]
  exact if_pos (by rw [restarts, pending]; rfl)

theorem slotFreed_end {r : EndReport} (body : m.body = .endReport r) : slotFreed m s = endGone r.chan s := by
  unfold slotFreed
  rw [body]

theorem endGone_of_none {c : Fin 2} (h : s.chans.readyEnds = []) :
    endGone c s = setChan c (fun x => { x with pendingEnd := none }) s := by
  unfold endGone
  rcases fillEnd_cases (setChan c (fun x => { x with pendingEnd := none }) s) with e | ⟨r, rs, ends, -⟩
  · exact e
  · exact absurd (h.symm.trans ends) (by simp)

theorem fillEnd_of_ready {r : EndReport} {rs : List EndReport} (notify : s.mayNotify = true) (free : s.line.wEnd = none)
    (idle : s.line.sending 6 = false) (ends : s.chans.readyEnds = r :: rs) :
    fillEnd s = setChan r.chan Channel.endEntered
      { s with
        line := { s.line with wEnd := some { dst := r.dst, body := .endReport r } }
        chans := { s.chans with readyEnds := rs } } := by
  unfold fillEnd
  rw [if_pos (by simp [notify, free, idle]), ends]
  rfl

theorem endGone_of_ready {c : Fin 2} {r : EndReport} {rs : List EndReport} (notify : s.mayNotify = true)
    (free : s.line.wEnd = none) (idle : s.line.onLine = none) (ends : s.chans.readyEnds = r :: rs) :
    Frame [.line, .chans] s (endGone c s)
      ∧ (endGone c s).line = { s.line with wEnd := some { dst := r.dst, body := .endReport r } }
      ∧ (endGone c s).chans.readyEnds = rs := by
  have sending : s.line.sending 6 = false := by simp [GroupLine.sending, idle]
  refine ⟨endGone_frame c s, ?_, ?_⟩ <;> unfold endGone <;>
    rw [fillEnd_of_ready (s := setChan c (fun x => { x with pendingEnd := none }) s) notify free sending ends] <;> rfl

end

/-! ## The three commands -/

section

variable {s : State} {m : TxMsg}

theorem exec_messageCompleted_some (on : s.line.onLine = some m) : exec .messageCompleted s =
    done (completedOutcome m { s with line := { s.line with onLine := none, discards := 0 } }) := by
  show done (completeMessage s) = _
  unfold completeMessage
  rw [on]

theorem exec_messageCompleted_none (on : s.line.onLine = none) : exec .messageCompleted s = .next s := by
  show done (completeMessage s) = _
  unfold completeMessage
  rw [on]
  rfl

theorem exec_arbitrationLost_none (on : s.line.onLine = none) : exec .arbitrationLost s = .next s := by
  show done (loseArbitration s) = _
  unfold loseArbitration
  rw [on]
  rfl

theorem exec_transmitError_none (on : s.line.onLine = none) : exec .transmitError s = .next s := by
  show done (transmitErrorAt s) = _
  unfold transmitErrorAt
  rw [on]
  rfl

theorem exec_arbitrationLost_kept (on : s.line.onLine = some m) (kept : m.withdrawn = false) :
    exec .arbitrationLost s = .next (returnMessage m { s with line := { s.line with onLine := none } }) := by
  show done (loseArbitration s) = _
  unfold loseArbitration
  rw [on]
  exact congrArg done (if_neg (by rw [kept]; exact Bool.false_ne_true))

theorem exec_transmitError_newer (on : s.line.onLine = some m) (kept : m.withdrawn = false) (newer : s.line.newerWaits m = true) :
    exec .transmitError s = .next { s with line := { s.line with onLine := none, txError := satInc s.line.txError } } := by
  show done (transmitErrorAt s) = _
  unfold transmitErrorAt
  rw [on]
  exact congrArg done ((if_neg (by rw [kept]; exact Bool.false_ne_true)).trans (if_pos newer))

theorem exec_transmitError_again (on : s.line.onLine = some m) (kept : m.withdrawn = false) (last : s.line.newerWaits m = false)
    (again : m.errors < 8) : exec .transmitError s = .next { s with
      line := ({ s.line with onLine := none, txError := satInc s.line.txError } : GroupLine).giveBack
        { m with errors := m.errors + 1 } } := by
  show done (transmitErrorAt s) = _
  unfold transmitErrorAt
  rw [on]
  have returned : returnMessage { m with errors := m.errors + 1 }
      { s with line := { s.line with onLine := none, txError := satInc s.line.txError } } = _ :=
    if_neg (Bool.eq_false_iff.1 last)
  exact (congrArg done ((if_neg (by rw [kept]; exact Bool.false_ne_true)).trans ((if_neg (Bool.eq_false_iff.1 last)).trans
    ((if_pos (by omega)).trans (congrArg Out.of returned)))))

theorem exec_transmitError_ninth (on : s.line.onLine = some m) (kept : m.withdrawn = false) (last : s.line.newerWaits m = false)
    (ninth : 8 ≤ m.errors) : exec .transmitError s = done (discardedOutcome m { s with line := s.lineFailed }) :=
  congrArg done (transmitErrorAt_ninth on kept last ninth)

end

/-- A message without a RECORD's channel behind it, completed or discarded: what follows, over the line `l` that it left. -/
theorem slotFreed_cases {s : State} {m : TxMsg} (l : GroupLine) (conflict : l.conflict = s.line.conflict)
    (idle : l.onLine = none) :
    let u : State := { s with line := l }
    (s.Unattended m → slotFreed m u = u)
      ∧ (m.body.cls = 5 → slotFreed m u = composeReach u)
      ∧ (∀ tag data, m.body = .answer 8 tag none data → s.orders.restartPending = true → slotFreed m u = s.restarted)
      ∧ (∀ r, m.body = .endReport r → s.chans.readyEnds = [] →
          slotFreed m u = setChan r.chan (fun x => { x with pendingEnd := none }) u)
      ∧ (∀ r r' rs, m.body = .endReport r → s.chans.readyEnds = r' :: rs → s.mayNotify = true → l.wEnd = none →
          Frame [.line, .chans] s (slotFreed m u)
            ∧ (slotFreed m u).line = { l with wEnd := some { dst := r'.dst, body := .endReport r' } }
            ∧ (slotFreed m u).chans.readyEnds = rs) := by
  intro u
  refine ⟨fun h => slotFreed_unattended (s := u) h, slotFreed_reach, fun tag data body pending => slotFreed_restart (s := u) body pending,
    fun r body ends => (slotFreed_end body).trans (endGone_of_none (s := u) ends), fun r r' rs body ends notify free => ?_⟩
  have may : u.mayNotify = true := by
    rw [mayNotify_iff] at notify ⊢
    exact ⟨notify.1, conflict.trans notify.2⟩
  obtain ⟨frame, line, rest⟩ := endGone_of_ready (s := u) (c := r.chan) may free idle ends
  rw [slotFreed_end body]
  refine ⟨Frame.trans (fun b hb => ?_) frame, line, rest⟩
  cases b with
  | line => exact absurd List.mem_cons_self hb
  | _ => rfl

theorem Channel.Served.eq_of_settled {x y : Channel} (h : x.Served y) (free : x.outstanding = none)
    (none : ∀ causes, ¬ x.awaitsEnd causes) : y = x := by
  obtain ⟨outstanding, shareUsed⟩ := h.idle free
  rw [h.rest, outstanding, shareUsed, h.kept none, ← free]

/-- A channel that is not RUNNING has its END made ready, and slot 7 takes what is ready. -/
theorem channelFreed_of_still {c : Fin 2} {s : State} (h : (s.chan c).state ≠ .running) :
    channelFreed c s = .of (fillRecord (readyEnd c s)) := by
  have kept : produce false c s = .of s := if_neg fun k => h k.1
  unfold channelFreed
  rw [kept, Out.of_also]

/-- The state of a channel's RECORD that left the line, before what follows. -/
theorem freed_still {s : State} {l : GroupLine} {c : Fin 2} {f : Channel → Channel} (still : (f (s.chan c)).state ≠ .running)
    (free : (f (s.chan c)).outstanding = none) :
    let t := fillRecord (readyEnd c (setChan c f { s with line := l }))
    channelFreed c (setChan c f { s with line := l }) = .of t ∧ Frame [.line, .chans] s t
      ∧ t.line = { l with wEnd := t.line.wEnd, wRecord := t.line.wRecord }
      ∧ ((f (s.chan c)).pendingEnd = none → t.chan c = f (s.chan c)) := by
  intro t
  let u := setChan c f { s with line := l }
  have now : u.chan c = f (s.chan c) := chan_setChan c f { s with line := l }
  have before : Frame [.line, .chans] s u := fun b hb => by
    cases b with
    | line => exact absurd List.mem_cons_self hb
    | chans => exact absurd (List.mem_cons_of_mem _ List.mem_cons_self) hb
    | _ => rfl
  refine ⟨channelFreed_of_still (by rw [now]; exact still), before.trans (served_frame c u), served_line c u, fun none => ?_⟩
  refine ((served_chan c u).eq_of_settled (by rw [now]; exact free) fun causes awaits => ?_).trans now
  obtain ⟨pending, -⟩ := awaits
  rw [now, none] at pending
  cases pending

/-- A prepared END enters an empty slot 6 when its channel's RECORD left the line. -/
theorem prepared_enters {u : State} {c : Fin 2} {causes : Causes} (awaits : (u.chan c).awaitsEnd causes)
    (notify : u.mayNotify = true) (free : u.line.wEnd = none) (idle : u.line.onLine = none) (none : u.chans.readyEnds = []) :
    let t := fillRecord (readyEnd c u)
    t.line.wEnd = some { dst := (u.chan c).dst, body := .endReport (endReportOf c (u.chan c) causes) }
      ∧ t.chan c = { u.chan c with pendingEnd := some ⟨causes, .inSlot⟩ } := by
  intro t
  have sending : u.line.sending 6 = false := by simp [GroupLine.sending, idle]
  have ends : (u.endReady c causes).chans.readyEnds = [endReportOf c (u.chan c) causes] := by
    show u.chans.readyEnds ++ _ = _
    rw [none]
    rfl
  have ready : readyEnd c u = setChan c Channel.endEntered
      { u.endReady c causes with
        line := { u.line with wEnd := some { dst := (u.chan c).dst, body := .endReport (endReportOf c (u.chan c) causes) } }
        chans := { (u.endReady c causes).chans with readyEnds := [] } } :=
    (readyEnd_of_awaits awaits).trans (fillEnd_of_ready (s := u.endReady c causes) notify free sending ends)
  have now : (readyEnd c u).chan c = { u.chan c with pendingEnd := some ⟨causes, .inSlot⟩ } := by
    rw [ready, chan_setChan]
    exact congrArg Channel.endEntered (chan_endReady u c causes)
  obtain ⟨-, outstanding⟩ := awaits
  refine ⟨?_, ((fillRecord_chan (readyEnd c u) c).idle (by rw [now]; exact outstanding)).trans now⟩
  show (fillRecord (readyEnd c u)).line.wEnd = _
  rw [fillRecord_line, ready]
  rfl

/-- Settles O37: what follows the completed message, by its class. -/
theorem messageCompletionServesItsOwner : Obligations.MessageCompletionServesItsOwner := by
  unfold Obligations.MessageCompletionServesItsOwner
  refine fun s => ⟨exec_messageCompleted_none, fun m on => ?_⟩
  intro l
  have run := exec_messageCompleted_some on
  have freed (h : m.body.cls ≠ 7) : exec .messageCompleted s = .next (slotFreed m { s with line := l }) := by
    rw [run, (outcomes_of_not_record h).1, done_of]
  obtain ⟨unattended, reach, restart, ended, next⟩ := slotFreed_cases (m := m) l rfl rfl
  refine ⟨fun h => ?_, fun h => ?_, fun tag data body pending => ?_, fun r body ends => ?_,
    fun r r' rs body ends notify free => ?_, fun c n q records body still => ?_⟩
  · rw [freed (by rcases h with h | h | h | ⟨h, -⟩ <;> rw [h] <;> decide), unattended h]
  · rw [freed (by rw [h]; decide), reach h]
  · rw [freed (by rw [body]; exact fun k => by cases k), restart tag data body pending]
  · rw [freed (by rw [body]; exact fun k => by cases k), ended r body ends]
  · exact ⟨_, freed (by rw [body]; exact fun k => by cases k), next r r' rs body ends notify free⟩
  · obtain ⟨freed, frame, line, settled⟩ := freed_still (s := s) (l := l) (c := c) (f := fun x => { x with outstanding := none })
      still rfl
    refine ⟨_, (exec_messageCompleted_record on body).trans (congrArg done freed), frame, congrArg GroupLine.onLine line,
      congrArg GroupLine.discards line,
      settled, fun causes prepared notify free noneReady => ?_⟩
    let u := setChan c (fun x => { x with outstanding := none }) { s with line := l }
    have now : u.chan c = { s.chan c with outstanding := none } :=
      chan_setChan c (fun x => { x with outstanding := none }) { s with line := l }
    have entered := prepared_enters (u := u) (causes := causes) (by rw [now]; exact ⟨prepared, rfl⟩) notify free rfl noneReady
    rw [now] at entered
    exact entered

/-- Settles O36: what follows the message that came back, by its outcome and class. -/
theorem messagesComeBackFromTheLine : Obligations.MessagesComeBackFromTheLine := by
  unfold Obligations.MessagesComeBackFromTheLine
  refine fun s => ⟨fun on => ⟨exec_arbitrationLost_none on, exec_transmitError_none on⟩, fun m on => ?_⟩
  intro cleared erred
  refine ⟨fun kept newer => ⟨?_, exec_transmitError_newer on kept newer⟩, fun kept last => ⟨?_, exec_transmitError_again on kept last,
    fun ninth => ?_⟩, fun c n q records asked body still settled => ?_⟩
  · rw [exec_arbitrationLost_kept on kept]
    exact congrArg Host.Outcome.next (if_pos newer)
  · rw [exec_arbitrationLost_kept on kept]
    exact congrArg Host.Outcome.next (if_neg (Bool.eq_false_iff.1 last))
  · have run := exec_transmitError_ninth on kept last ninth
    have freed (h : m.body.cls ≠ 7) : exec .transmitError s = .next (slotFreed m { s with line := s.lineFailed }) := by
      rw [run, (outcomes_of_not_record h).2, done_of]
    obtain ⟨unattended, reach, restart, ended, next⟩ := slotFreed_cases (s := s) (m := m) s.lineFailed rfl rfl
    refine ⟨fun h => ?_, fun tag data body pending => ?_, fun h => ?_, fun r body ends => ?_,
      fun r r' rs body ends notify free => ?_, fun c n q records body => ?_⟩
    · rw [freed (by rcases h with h | h | h | ⟨h, -⟩ <;> rw [h] <;> decide), unattended h]
    · rw [freed (by rw [body]; exact fun k => by cases k), restart tag data body pending]
    · rw [freed (by rw [h]; decide), reach h]
    · rw [freed (by rw [body]; exact fun k => by cases k), ended r body ends]
    · exact ⟨_, freed (by rw [body]; exact fun k => by cases k), next r r' rs body ends notify free⟩
    · let u := setChan c (fun x => { x with outstanding := none, lost := x.lost + records.length }) { s with line := s.lineFailed }
      have now : u.chan c = { s.chan c with outstanding := none, lost := (s.chan c).lost + records.length } :=
        chan_setChan c (fun x => { x with outstanding := none, lost := x.lost + records.length }) { s with line := s.lineFailed }
      have keeps := (channelFreed_lineKept c u).trans (lineKept_keptByLinks.conclude (channelFreed c u))
      refine ⟨_, exec_transmitError_record on body kept ninth, ?_, congrArg GroupLine.txError keeps.line,
        congrArg GroupLine.txFailed keeps.line, congrArg GroupLine.discards keeps.line, congrArg GroupLine.onLine keeps.line⟩
      rw [keeps.lost, now]
  · intro back
    have freed (l : GroupLine) := freed_still (s := s) (l := l) (c := c) (f := Channel.toMark) still rfl
    obtain ⟨freed1, frame1, line1, settled1⟩ := freed { s.line with onLine := none }
    obtain ⟨freed2, frame2, line2, settled2⟩ := freed { s.line with onLine := none, txError := satInc s.line.txError }
    exact ⟨⟨_, (exec_arbitrationLost_withdrawn on body asked).trans (congrArg done freed1), settled1 settled,
        (congrArg GroupLine.onLine line1 :), (congrArg GroupLine.discards line1 :), frame1⟩,
      _, (exec_transmitError_withdrawn on body asked).trans (congrArg done freed2), settled2 settled,
        (congrArg GroupLine.onLine line2 :), (congrArg GroupLine.discards line2 :), (congrArg GroupLine.txError line2 :),
        (congrArg GroupLine.txFailed line2 :), frame2⟩

end Sys2Proof.Machine
end


section
/-! Reception: the checks of a message, the class it is handed on as, and the slot of its source. -/

namespace Sys2Proof.Machine

/-! ## The slot of a good message's source -/

theorem live_iff {x : SlotState} : x.live = true ↔ x ≠ .lost := by simp [SlotState.live]

theorem modifySlot_of_slot {s : State} {n : SlotNo} {x : PeerSlot} (h : s.slot n = some x) (f : PeerSlot → PeerSlot) :
    modifySlot n f s = setSlot n (some (f x)) s := by
  unfold modifySlot
  rw [h]
  rfl

theorem refreshHeard_of_none {s : State} {src : Station} (h : s.slotOf src = none) : refreshHeard src s = s := by
  unfold refreshHeard
  rw [h]

theorem refreshHeard_of_slot {s : State} {src : Station} {n : SlotNo} {x : PeerSlot} (h : s.slotOf src = some n)
    (hx : s.slot n = some x) : refreshHeard src s = setSlot n (some (s.heardSlot x)) s := by
  unfold refreshHeard
  rw [h]
  refine (modifySlot_of_slot hx _).trans (congrArg (fun y => setSlot n (some y) s) ?_)
  unfold State.heardSlot
  by_cases lost : x.state = .lost
  · rw [if_neg (mt live_iff.1 (not_not.2 lost)), if_pos lost]
  · rw [if_pos (live_iff.2 lost), if_neg lost]
    rfl

/-! ## The receive checks -/

section

variable {cls : Nat} {src dst : Station} {payload : List Byte} {f : State → Out} {s : State}

theorem receive_of_ownNumber (started : s.lineStarted = true) (numbered : s.loader.station ≠ 15#4) (hc : cls < 8)
    (hp : payload.length ≤ 120) : receive cls s.loader.station dst payload f s = ownNumber cls s := by
  have fits : ¬ (s.loader.station = 15#4 ∨ 8 ≤ cls ∨ 120 < payload.length) := by
    rintro (k | k | k)
    · exact numbered k
    · omega
    · omega
  unfold receive
  rw [if_neg (by rw [started]; exact Bool.false_ne_true), if_neg fits, if_pos rfl]

/-- A good message of another station for another one is not handed on. -/
theorem receive_of_elsewhere (started : s.lineStarted = true) (notAll : src ≠ 15#4) (hc : cls < 8) (hp : payload.length ≤ 120)
    (foreign : src ≠ s.loader.station) (elsewhere : ¬ (dst = s.loader.station ∨ dst = 15#4)) :
    receive cls src dst payload f s = .of (refreshHeard src s) := by
  have fits : ¬ (src = 15#4 ∨ 8 ≤ cls ∨ 120 < payload.length) := by
    rintro (k | k | k)
    · exact notAll k
    · omega
    · omega
  unfold receive
  rw [if_neg (by rw [started]; exact Bool.false_ne_true), if_neg fits, if_neg foreign, if_neg elsewhere]

/-- A good message without a dispatch refreshes its source's slot, whatever its destination. -/
theorem receive_of_foreign (started : s.lineStarted = true) (notAll : src ≠ 15#4) (hc : cls < 8) (hp : payload.length ≤ 120)
    (foreign : src ≠ s.loader.station) : receive cls src dst payload Out.of s = .of (refreshHeard src s) := by
  by_cases here : dst = s.loader.station ∨ dst = 15#4
  · obtain ⟨loaded, numbered⟩ := lineStarted_iff.1 started
    exact receive_of_hearsFrom ⟨loaded, numbered, notAll, foreign, here⟩ hc hp _
  · exact receive_of_elsewhere started notAll hc hp foreign here

/-- Beside its length, the payload plays a part in the dispatch only. -/
theorem receive_payload {other : List Byte} (hp : payload.length ≤ 120) (ho : other.length ≤ 120) :
    receive cls src dst payload f s = receive cls src dst other f s := by
  unfold receive
  simp only [Nat.not_lt.2 hp, Nat.not_lt.2 ho]

end

theorem rxFails_iff (m : List Byte) (ranOn : Bool) : rxFails m ranOn = true ↔
    m.length < octetNat m 2 + 5 ∨ fieldNat m (octetNat m 2 + 3) 2 ≠ crc16 (m.take (octetNat m 2 + 3)) ∨ 120 < octetNat m 2
      ∨ 8 ≤ octetNat m 0 / 16 ∨ octetNat m 0 % 16 = 15 ∨ ranOn = true ∨ octetNat m 2 + 5 < m.length := by
  have source : BitVec.ofNat 4 (octetNat m 0 % 16) = 15#4 ↔ octetNat m 0 % 16 = 15 := by
    refine ⟨fun h => ?_, fun h => by rw [h]⟩
    have same : octetNat m 0 % 16 % 2 ^ 4 = 15 := (BitVec.toNat_ofNat _ _).symm.trans (congrArg BitVec.toNat h)
    omega
  unfold rxFails rxHeader
  simp only [Bool.or_eq_true, decide_eq_true_iff, bne_iff_ne, beq_iff_eq, source, or_assoc]

/-- A message that passes every check is handled as the message it is. -/
theorem exec_messageDiscardedRx_of_good {s : State} {m : List Byte} {ranOn : Bool} (started : s.lineStarted = true)
    (good : rxFails m ranOn = false) :
    let cls := octetNat m 0 / 16
    let src := BitVec.ofNat 4 (octetNat m 0 % 16)
    let dst := BitVec.ofNat 4 (octetNat m 1 / 16)
    let payload := slice m 3 (octetNat m 2)
    exec (.messageDiscardedRx m ranOn false) s = done (receive cls src dst payload (dispatch cls src dst payload) s) := by
  show done (receiveOctets m ranOn false s) = _
  unfold receiveOctets
  rw [started, if_neg (by decide), if_neg (Bool.eq_false_iff.1 good)]
  rfl

/-! ## A typed order is the ORDER it spells -/

theorem octets_of_tag (tag : BitVec 16) :
    (BitVec.ofNat 8 (tag.toNat / 256 ^ 1) ++ BitVec.ofNat 8 (tag.toNat / 256 ^ 0) : BitVec 16) = tag := by
  apply BitVec.eq_of_toNat_eq
  have small := tag.isLt
  have low : tag.toNat % 256 < 2 ^ 8 := Nat.mod_lt _ (by decide)
  rw [BitVec.toNat_append, BitVec.toNat_ofNat, BitVec.toNat_ofNat, pow_one, pow_zero, Nat.div_one]
  show (tag.toNat / 256 % 2 ^ 8) <<< 8 ||| tag.toNat % 256 = tag.toNat
  rw [← Nat.shiftLeft_add_eq_or_of_lt low, Nat.shiftLeft_eq]
  omega

theorem takeOrderPayload_spelt (src dst : Station) (kind : Byte) (tag : BitVec 16) (ps : List Byte) :
    takeOrderPayload src dst (kind :: beOctets 2 tag.toNat ++ ps) = takeOrder src dst kind tag (orderRule kind ps) := by
  funext s
  have long : ¬ (kind :: beOctets 2 tag.toNat ++ ps).length < 3 := by simp [beOctets]
  have spells : orderTag (kind :: beOctets 2 tag.toNat ++ ps) = tag := octets_of_tag tag
  unfold takeOrderPayload
  rw [if_neg long, spells]
  rfl

theorem receiveOrder_spelt (kind : Byte) (src dst : Station) (tag : BitVec 16) (ps : List Byte) (s : State) :
    done (receiveOrder kind src dst tag ps s) = exec (.unknownOrder src dst (kind :: beOctets 2 tag.toNat ++ ps)) s := by
  show _ = done (receive 2 src dst (kind :: beOctets 2 tag.toNat ++ ps)
    (takeOrderPayload src dst (kind :: beOctets 2 tag.toNat ++ ps)) s)
  rw [takeOrderPayload_spelt]
  rfl

/-- Settles O38: the checks, the class a message is handed on as, and what a message that is not handed on does. -/
theorem receptionHandsMessagesOn : Obligations.ReceptionHandsMessagesOn := by
  unfold Obligations.ReceptionHandsMessagesOn
  refine ⟨fun s m ranOn own => ?_, fun s cls src dst l loaded numbered notAll hc hl => ?_⟩
  · intro n fails src dst
    refine ⟨fun off => ?_, fun started fail => ?_, fun started pass => ?_, fun src dst tag ps => ?_⟩
    · show done (receiveOctets m ranOn own s) = _
      unfold receiveOctets
      rw [off]
      rfl
    · show done (receiveOctets m ranOn own s) = _
      unfold receiveOctets
      rw [started, if_neg (by decide), if_pos ((rxFails_iff m ranOn).2 fail)]
      rfl
    · have good : rxFails m ranOn = false := Bool.eq_false_iff.2 (mt (rxFails_iff m ranOn).1 pass)
      have run := exec_messageDiscardedRx_of_good started good
      refine ⟨?_, fun h => ?_, fun h => ?_, fun h => ?_, fun h => ?_, fun h => ?_, fun c hc h => ?_⟩
      · show done (receiveOctets m ranOn true s) = _
        unfold receiveOctets
        rw [started, if_neg (by decide), if_neg (Bool.eq_false_iff.1 good), if_pos rfl, done_of]
      · rw [run, h]
        rfl
      · rw [run, h]
        rfl
      · rw [run, h]
        rfl
      · rw [run, h]
        rfl
      · rw [run, h]
        rfl
      · rw [run, h]
        have short : 120 < n → False := fun k => pass (.inr (.inr (.inl k)))
        show _ = done (receive c.toNat src dst [] Out.of s)
        have same : dispatch c.toNat src dst (slice m 3 (octetNat m 2)) = Out.of := by
          rcases hc with rfl | rfl | rfl <;> rfl
        rw [same]
        exact congrArg done (receive_payload (Nat.not_lt.1 fun k => short (k.trans_le (List.length_take_le _ _))) (Nat.zero_le _))
    · exact ⟨receiveOrder_spelt 1 src dst tag ps s, receiveOrder_spelt 2 src dst tag ps s, receiveOrder_spelt 3 src dst tag ps s,
        receiveOrder_spelt 4 src dst tag ps s, receiveOrder_spelt 5 src dst tag ps s, receiveOrder_spelt 6 src dst tag ps s,
        receiveOrder_spelt 7 src dst tag ps s, receiveOrder_spelt 8 src dst tag ps s⟩
  · have started : s.lineStarted = true := lineStarted_iff.2 ⟨loaded, numbered⟩
    refine ⟨fun own hello => ?_, fun foreign => ?_⟩
    · subst own
      have other : cls.toNat ≠ 1 := fun h => hello (BitVec.eq_of_toNat_eq h)
      refine (congrArg done (receive_of_ownNumber started numbered hc (Nat.zero_le _))).trans ?_
      unfold ownNumber
      rw [if_neg other, done_of]
    · have run : exec (.messageNotHandedOn cls src dst) s = .next (refreshHeard src s) :=
        (congrArg done (receive_of_foreign started notAll hc (Nat.zero_le _) foreign)).trans (done_of _)
      refine ⟨fun none => run.trans (congrArg _ (refreshHeard_of_none none)), fun n x slot hx => ?_⟩
      have heard := refreshHeard_of_slot slot hx
      refine ⟨run.trans (congrArg _ heard), fun notOwn notHere => ?_⟩
      have elsewhere : ¬ (dst = s.loader.station ∨ dst = 15#4) := fun h => h.elim notOwn notHere
      exact ⟨(congrArg done (receive_of_elsewhere started notAll (by decide) hl foreign elsewhere)).trans (by rw [done_of, heard]),
        (congrArg done (receive_of_elsewhere started notAll (by decide) hl foreign elsewhere)).trans (by rw [done_of, heard])⟩

end Sys2Proof.Machine
end


section
/-! What follows a change of the ports or of the peer table (R42, R90 to R94, R121, R126, R128): the stages of `settleView`, and
their sum `Follows`. -/

namespace Sys2Proof.Machine

/-! ## Operations on all slots -/

/-- The state with a function applied to every taken slot. -/
def State.mapSlots (g : PeerSlot → PeerSlot) (s : State) : State :=
  { s with peers := { s.peers with slots := s.peers.slots.map (Option.map g) } }

@[simp] theorem slot_mapSlots (g : PeerSlot → PeerSlot) (s : State) (n : SlotNo) :
    (s.mapSlots g).slot n = (s.slot n).map g := by
  simp [State.slot, State.mapSlots]

theorem slots_ext {a b : Vector (Option PeerSlot) 5} (h : ∀ n : SlotNo, a[n] = b[n]) : a = b :=
  Vector.ext fun i hi => h ⟨i, hi⟩

theorem setSlot_self {s : State} {n : SlotNo} {x : Option PeerSlot} (h : s.slot n = x) : setSlot n x s = s := by
  subst h
  have same : s.peers.slots.set n.val (s.slot n) n.isLt = s.peers.slots := Vector.set_getElem_self n.isLt
  unfold setSlot
  rw [same]

theorem slot_modifySlot (n : SlotNo) (g : PeerSlot → PeerSlot) (s : State) : (modifySlot n g s).slot n = (s.slot n).map g :=
  slot_setSlot n _ s

theorem slot_modifySlot_ne {n m : SlotNo} (h : m ≠ n) (g : PeerSlot → PeerSlot) (s : State) :
    (modifySlot n g s).slot m = s.slot m :=
  slot_setSlot_ne h _ s

theorem slot_eachState_modifySlot (g : PeerSlot → PeerSlot) {l : List SlotNo} (once : l.Nodup) (s : State) (m : SlotNo) :
    (eachState (fun n => modifySlot n g) l s).slot m = if m ∈ l then (s.slot m).map g else s.slot m := by
  induction l generalizing s with
  | nil => rfl
  | cons n l ih =>
    obtain ⟨out, once⟩ := List.nodup_cons.1 once
    rw [eachState, ih once]
    by_cases here : m = n
    · subst here
      rw [if_neg out, if_pos List.mem_cons_self, slot_modifySlot]
    · rw [slot_modifySlot_ne here]
      simp only [List.mem_cons, here, false_or]

theorem peers_eachState_modifySlot (g : PeerSlot → PeerSlot) (l : List SlotNo) (s : State) :
    eachState (fun n => modifySlot n g) l s =
      { s with peers := { s.peers with slots := (eachState (fun n => modifySlot n g) l s).peers.slots } } := by
  induction l generalizing s with
  | nil => rfl
  | cons n l ih => exact ih (modifySlot n g s)

theorem eachState_modifySlot (g : PeerSlot → PeerSlot) (s : State) :
    eachState (fun n => modifySlot n g) allSlots s = s.mapSlots g := by
  have slots : (eachState (fun n => modifySlot n g) allSlots s).peers.slots = s.peers.slots.map (Option.map g) :=
    slots_ext fun n => (slot_eachState_modifySlot g (by decide) s n).trans
      ((if_pos (mem_allSlots n)).trans (slot_mapSlots g s n).symm)
  rw [peers_eachState_modifySlot, slots]
  rfl

/-! ## What reads the slots -/

theorem slotOf_mapSlots {g : PeerSlot → PeerSlot} (keeps : ∀ x, (g x).station = x.station) (s : State) (st : Station) :
    (s.mapSlots g).slotOf st = s.slotOf st := by
  unfold State.slotOf
  refine congrArg (allSlots.find? ·) (funext fun n => ?_)
  rw [slot_mapSlots, Option.any_map]
  exact congrArg (Option.any · (s.slot n)) (funext fun x => congrArg (· == st) (keeps x))

theorem peer_mapSlots {g : PeerSlot → PeerSlot} (keeps : ∀ x, (g x).station = x.station) (s : State) (st : Station) :
    (s.mapSlots g).peer st = (s.peer st).map g := by
  unfold State.peer
  rw [slotOf_mapSlots keeps]
  cases s.slotOf st with
  | none => rfl
  | some n => exact slot_mapSlots g s n

theorem slotOf_eq_some {s : State} {st : Station} {n : SlotNo} (h : s.slotOf st = some n) :
    ∃ x, s.slot n = some x ∧ x.station = st := by
  have found := List.find?_some h
  obtain ⟨x, hx, same⟩ := (Option.any_eq_true _ _).1 found
  exact ⟨x, hx, eq_of_beq same⟩

theorem peer_eq_some {s : State} {st : Station} {x : PeerSlot} (h : s.peer st = some x) :
    ∃ n, s.slotOf st = some n ∧ s.slot n = some x :=
  Option.bind_eq_some_iff.1 h

theorem station_of_peer {s : State} {st : Station} {x : PeerSlot} (h : s.peer st = some x) : x.station = st := by
  obtain ⟨n, slot, hx⟩ := peer_eq_some h
  obtain ⟨y, hy, same⟩ := slotOf_eq_some slot
  cases hx.symm.trans hy
  exact same

theorem relayFor_mapSlots {g : PeerSlot → PeerSlot} (station : ∀ x, (g x).station = x.station)
    (state : ∀ x, (g x).state = x.state) (reach : ∀ x, (g x).reachMap = x.reachMap) (s : State) :
    (s.mapSlots g).relayFor = s.relayFor := by
  funext p
  unfold State.relayFor
  refine congrArg (allStations.find? ·) (funext fun q => ?_)
  unfold State.activePeer
  rw [peer_mapSlots station]
  cases s.peer q with
  | none => rfl
  | some x =>
    simp only [Option.map_some, Option.filter, state]
    split
    · simp only [Option.any_some, reach]
    · rfl

theorem relayOf_mapSlots {g : PeerSlot → PeerSlot} (station : ∀ x, (g x).station = x.station)
    (state : ∀ x, (g x).state = x.state) (reach : ∀ x, (g x).reachMap = x.reachMap) (s : State) :
    (s.mapSlots g).relayOf = s.relayOf := by
  funext x
  unfold State.relayOf
  rw [relayFor_mapSlots station state reach]

/-! ## Slots follow their direct X-port (R121), and relays are chosen again (R42) -/

/-- A slot after the direct X-port of its station was looked for. -/
def State.follow (s : State) (x : PeerSlot) : PeerSlot :=
  if x.state = .lost then x
  else if (s.directX x.station).isSome = true then
    { x with state := .active, joinExpiry := if x.state = .active then x.joinExpiry else none }
  else if x.state = .active then { x with state := .severed }
  else x

/-- The event of a slot that follows. -/
def State.followEvents (s : State) (x : PeerSlot) : List Event :=
  if x.state = .lost then []
  else if (s.directX x.station).isSome = true then
    if x.state = .active then [] else [⟨.peerActive, some x.station.toNat⟩]
  else if x.state = .active then [⟨.peerSevered, some x.station.toNat⟩]
  else []

/-- The events of the slots of a list. -/
def State.followed_ (s : State) (l : List SlotNo) : List Event := l.flatMap fun n => ((s.slot n).map s.followEvents).getD []

theorem followed_eq (t : State) (x : PeerSlot) : t.followed x = { t.follow x with relay := t.relayOf (t.follow x) } := rfl

theorem follow_station (s : State) (x : PeerSlot) : (s.follow x).station = x.station := by
  unfold State.follow
  split_ifs <;> rfl

theorem followSlot_none {n : SlotNo} {s : State} (h : s.slot n = none) : followSlot n s = .of s := by
  unfold followSlot
  rw [h]

theorem followSlot_some {n : SlotNo} {s : State} {x : PeerSlot} (h : s.slot n = some x) :
    followSlot n s = ⟨setSlot n (some (s.follow x)) s, s.followEvents x⟩ := by
  have still : s.follow x = x → setSlot n (some (s.follow x)) s = s := fun k => setSlot_self (h.trans (congrArg some k.symm))
  have change (f : PeerSlot → PeerSlot) (e : EventSource) :
      changeSlot n f e x.station s = ⟨setSlot n (some (f x)) s, [⟨e, some x.station.toNat⟩]⟩ := by
    unfold changeSlot raise
    rw [modifySlot_of_slot h]
  unfold followSlot
  rw [h]
  dsimp only
  cases state : x.state with
  | lost =>
    have events : s.followEvents x = [] := if_pos state
    rw [still (if_pos state), events]
    rfl
  | active =>
    have alive : x.state ≠ .lost := by rw [state]; decide
    dsimp only
    by_cases direct : (s.directX x.station).isSome = true
    · have same : s.follow x = x := by
        unfold State.follow
        rw [if_neg alive, if_pos direct, if_pos state, ← state]
      have events : s.followEvents x = [] := by
        unfold State.followEvents
        rw [if_neg alive, if_pos direct, if_pos state]
      rw [still same, events, if_pos direct]
      rfl
    · have sever : s.follow x = { x with state := .severed } := by
        unfold State.follow
        rw [if_neg alive, if_neg direct, if_pos state]
      have events : s.followEvents x = [⟨.peerSevered, some x.station.toNat⟩] := by
        unfold State.followEvents
        rw [if_neg alive, if_neg direct, if_pos state]
      rw [sever, events, if_neg direct, change]
  | joining | severed =>
    have alive : x.state ≠ .lost := by rw [state]; decide
    have idle : x.state ≠ .active := by rw [state]; decide
    dsimp only
    by_cases direct : (s.directX x.station).isSome = true
    · have rise : s.follow x = { x with state := .active, joinExpiry := none } := by
        unfold State.follow
        rw [if_neg alive, if_pos direct, if_neg idle]
      have events : s.followEvents x = [⟨.peerActive, some x.station.toNat⟩] := by
        unfold State.followEvents
        rw [if_neg alive, if_pos direct, if_neg idle]
      rw [rise, events, if_pos direct, change]
    · have same : s.follow x = x := by
        unfold State.follow
        rw [if_neg alive, if_neg direct, if_neg idle]
      have events : s.followEvents x = [] := by
        unfold State.followEvents
        rw [if_neg alive, if_neg direct, if_neg idle]
      rw [still same, events, if_neg direct]
      rfl

theorem followSlot_eq (n : SlotNo) (s : State) :
    followSlot n s = ⟨modifySlot n s.follow s, ((s.slot n).map s.followEvents).getD []⟩ := by
  cases h : s.slot n with
  | none =>
    rw [followSlot_none h]
    unfold modifySlot
    rw [setSlot_self (by rw [h]; rfl)]
    rfl
  | some x => rw [followSlot_some h, modifySlot_of_slot h]; rfl

theorem eachOut_followSlot {l : List SlotNo} (once : l.Nodup) (s : State) :
    eachOut followSlot l s = ⟨eachState (fun n => modifySlot n s.follow) l s, s.followed_ l⟩ := by
  induction l generalizing s with
  | nil => rfl
  | cons n l ih =>
    obtain ⟨out, once⟩ := List.nodup_cons.1 once
    have others : (modifySlot n s.follow s).followed_ l = s.followed_ l := by
      refine List.flatMap_congr fun m hm => ?_
      rw [slot_modifySlot_ne (fun h : m = n => out (h ▸ hm))]
      rfl
    rw [eachOut, followSlot_eq, Out.andThen_eq, ih once, others]
    rfl

end Sys2Proof.Machine
end


section
/-! The diversion and ISOLATED after a change of the ports or slots, and the sum of what follows (`Follows`). -/

namespace Sys2Proof.Machine

/-! ## The first best of a list -/

/-- A fold that keeps the earliest item of the least key. -/
theorem foldl_first_least {α K : Type} [LinearOrder K] {f : Option α → α → Option α} {key : α → K}
    (start : ∀ c, f none c = some c) (next : ∀ x c, f (some x) c = if key c < key x then some c else some x)
    {before after : List α} {c : α} (above : ∀ d ∈ before, key c < key d) (notBelow : ∀ d ∈ after, key c ≤ key d) :
    (before ++ c :: after).foldl f none = some c := by
  have left : ∀ (l : List α) (m : Option α), (∀ d ∈ l, key c < key d) → (∀ d, m = some d → key c < key d) →
      f (l.foldl f m) c = some c := by
    intro l
    induction l with
    | nil =>
      intro m _ hm
      cases m with
      | none => exact start c
      | some d => exact (next d c).trans (if_pos (hm d rfl))
    | cons a l ih =>
      intro m hl hm
      refine ih (f m a) (fun d hd => hl d (List.mem_cons_of_mem _ hd)) fun d hd => ?_
      have ha := hl a List.mem_cons_self
      cases m with
      | none =>
        rw [start] at hd
        cases hd
        exact ha
      | some b =>
        rw [next] at hd
        split_ifs at hd
        · cases hd
          exact ha
        · cases hd
          exact hm _ rfl
  have right : ∀ l : List α, (∀ d ∈ l, key c ≤ key d) → l.foldl f (some c) = some c := by
    intro l
    induction l with
    | nil => intro _; rfl
    | cons a l ih =>
      intro hl
      rw [List.foldl_cons, next, if_neg (not_lt.2 (hl a List.mem_cons_self))]
      exact ih fun d hd => hl d (List.mem_cons_of_mem _ hd)
  rw [List.foldl_append, List.foldl_cons, left before none above (fun d hd => nomatch hd)]
  exact right after notBelow

/-! ## The isolation rule (R91) -/

theorem readUplink_eq (s : State) (x : PeerSlot) : s.readUplink x = s.announced x := by
  unfold State.readUplink State.announced
  rw [freshness_eq]
  cases x.uplink with
  | none => rfl
  | some v =>
    cases fresh : s.isFresh x <;> simp

theorem peerCandidate_iff {s : State} {st : Station} {v : Nat} :
    ((s.peer st).bind fun x => if s.isoCandidate x then some (st, s.readUplink x) else none) = some (st, v) ↔
      ∃ x, s.peer st = some x ∧ x.state = .active ∧ x.isolated = false ∧ (s.directX st).isSome = true
        ∧ v = s.announced x ∧ v < 32767 := by
  constructor
  · intro h
    obtain ⟨x, hx, take⟩ := Option.bind_eq_some_iff.1 h
    split_ifs at take with candidate
    cases take
    unfold State.isoCandidate at candidate
    rw [station_of_peer hx, readUplink_eq] at candidate
    simp only [Bool.and_eq_true, beq_iff_eq, Bool.not_eq_true', decide_eq_true_eq] at candidate
    obtain ⟨⟨⟨active, joined⟩, direct⟩, fresh⟩ := candidate
    rw [readUplink_eq]
    exact ⟨x, hx, active, joined, direct, rfl, fresh⟩
  · rintro ⟨x, hx, active, joined, direct, rfl, fresh⟩
    rw [hx]
    have candidate : s.isoCandidate x = true := by
      unfold State.isoCandidate
      rw [station_of_peer hx, readUplink_eq]
      simp [active, joined, direct, fresh]
    show (if _ then _ else _) = _
    rw [if_pos candidate, readUplink_eq]

theorem mem_isoCandidates {s : State} {c : Station × Nat} :
    c ∈ (allStations.filterMap fun st =>
      (s.peer st).bind fun x => if s.isoCandidate x then some (st, s.readUplink x) else none) ↔ s.isolationIndex c.1 c.2 := by
  rw [List.mem_filterMap]
  constructor
  · rintro ⟨st, known, take⟩
    have same : c.1 = st := by
      obtain ⟨x, -, take⟩ := Option.bind_eq_some_iff.1 take
      split_ifs at take
      cases take
      rfl
    subst same
    exact ⟨mem_allStations.1 known, peerCandidate_iff.1 take⟩
  · rintro ⟨known, candidate⟩
    exact ⟨c.1, mem_allStations.2 known, peerCandidate_iff.2 candidate⟩

theorem isoPeer_eq_none {s : State} (h : ∀ st v, ¬ s.isolationIndex st v) : s.isoPeer = none := by
  have empty : (allStations.filterMap fun st =>
      (s.peer st).bind fun x => if s.isoCandidate x then some (st, s.readUplink x) else none) = [] :=
    List.eq_nil_iff_forall_not_mem.2 fun c hc => h c.1 c.2 (mem_isoCandidates.1 hc)
  unfold State.isoPeer
  rw [empty]
  rfl

theorem isoPeer_eq_some {s : State} {st : Station} {v : Nat} (h : s.isolationIndex st v)
    (least : ∀ q w, s.isolationIndex q w → v < w ∨ (v = w ∧ st.toNat ≤ q.toNat)) : s.isoPeer = some st := by
  obtain ⟨before, after, split⟩ := List.append_of_mem ((mem_isoCandidates (c := (st, v))).2 h)
  have sorted : (before ++ (st, v) :: after).Pairwise fun a b => a.1.toNat < b.1.toNat := by
    rw [← split]
    refine List.pairwise_filterMap.2 (allStations_sorted.imp fun {a b} lt x hx y hy => ?_)
    obtain ⟨_, -, hx⟩ := Option.bind_eq_some_iff.1 hx
    obtain ⟨_, -, hy⟩ := Option.bind_eq_some_iff.1 hy
    split_ifs at hx hy
    cases hx
    cases hy
    exact lt
  have candidate {d : Station × Nat} (hd : d ∈ before ++ (st, v) :: after) : s.isolationIndex d.1 d.2 :=
    mem_isoCandidates.1 (split ▸ hd)
  have least : (before ++ (st, v) :: after).foldl lowerIndex none = some (st, v) := by
    refine foldl_first_least (key := Prod.snd) (fun _ => rfl) (fun _ _ => rfl) (fun d hd => ?_) fun d hd => ?_
    · have first : d.1.toNat < st.toNat :=
        (List.pairwise_append.1 sorted).2.2 d hd (st, v) List.mem_cons_self
      rcases least d.1 d.2 (candidate (List.mem_append_left _ hd)) with lt | ⟨-, le⟩
      · exact lt
      · omega
    · rcases least d.1 d.2 (candidate (List.mem_append_right _ (List.mem_cons_of_mem _ hd))) with lt | ⟨eq, -⟩
      · exact lt.le
      · exact eq.le
  unfold State.isoPeer
  rw [split, least]
  rfl

/-- What the isolation rule reads. -/
theorem isolationIndex_congr {s t : State} (peer : t.peer = s.peer) (direct : t.directX = s.directX)
    (announced : t.announced = s.announced) : t.isolationIndex = s.isolationIndex := by
  unfold State.isolationIndex
  rw [peer, direct, announced]

/-! ## The diversion (R90, R92, R94) -/

/-- The event of a share that leaves 0 or comes to 0. -/
def shareEvents (before after : Nat) : List Event :=
  if before = 0 ∧ 0 < after then [⟨.diversionStart, none⟩]
  else if 0 < before ∧ after = 0 then [⟨.diversionEnd, none⟩] else []

theorem setDiversion_eq (peer : Option Station) (share : Nat) (s : State) : setDiversion peer share s =
    ⟨{ s with load := { s.load with divPeer := peer, share := share } }, shareEvents s.load.share share⟩ := by
  unfold setDiversion shareEvents
  dsimp only
  split_ifs <;> rfl

theorem shareEvents_self (n : Nat) : shareEvents n n = [] := by
  unfold shareEvents
  rw [if_neg (by omega), if_neg (by omega)]

theorem mem_shareEvents {b a : Nat} {e : Event} : e ∈ shareEvents b a ↔
    (e = ⟨.diversionStart, none⟩ ∧ b = 0 ∧ 0 < a) ∨ (e = ⟨.diversionEnd, none⟩ ∧ 0 < b ∧ a = 0) := by
  unfold shareEvents
  split_ifs with up down
  · simp only [List.mem_singleton]
    refine ⟨fun h => .inl ⟨h, up⟩, ?_⟩
    rintro (⟨h, -⟩ | ⟨-, -, zero⟩)
    · exact h
    · omega
  · simp only [List.mem_singleton]
    refine ⟨fun h => .inr ⟨h, down⟩, ?_⟩
    rintro (⟨-, k⟩ | ⟨h, -⟩)
    · exact absurd k up
    · exact h
  · simp [up, down]

theorem diversionStands_iff {s : State} {st : Station} : s.diversionStands st = true ↔
    ∃ x y, s.peer st = some x ∧ x.state = .active ∧ s.directX st = some y := by
  unfold State.diversionStands State.activePeer
  rw [Bool.and_eq_true, Option.isSome_iff_exists, Option.isSome_iff_exists]
  constructor
  · rintro ⟨⟨x, hx⟩, y, hy⟩
    obtain ⟨hx, active⟩ := Option.filter_eq_some_iff.1 hx
    exact ⟨x, y, hx, eq_of_beq active, hy⟩
  · rintro ⟨x, y, hx, active, hy⟩
    exact ⟨⟨x, Option.filter_eq_some_iff.2 ⟨hx, beq_iff_eq.2 active⟩⟩, y, hy⟩

theorem dropLostDiversion_of_loses {s : State} (h : s.losesDiversion s) :
    dropLostDiversion s = ⟨{ s with load := { s.load with divPeer := none, share := 0 } }, shareEvents s.load.share 0⟩ := by
  obtain ⟨st, peer, lost⟩ := h
  unfold dropLostDiversion
  rw [peer]
  exact (if_neg (mt diversionStands_iff.1 lost)).trans (setDiversion_eq none 0 s)

theorem dropLostDiversion_of_keeps {s : State} (h : ¬ s.losesDiversion s) : dropLostDiversion s = .of s := by
  unfold dropLostDiversion
  cases peer : s.load.divPeer with
  | none => rfl
  | some st => exact if_pos (diversionStands_iff.2 (not_not.1 fun k => h ⟨st, peer, k⟩))

theorem isolationRule_eq (s : State) : isolationRule s =
    ⟨{ s with load := { s.load with divPeer := s.isoPeer, share := if s.isoPeer.isSome then 1024 else 0 } },
      shareEvents s.load.share (if s.isoPeer.isSome then 1024 else 0)⟩ := by
  unfold isolationRule
  cases s.isoPeer with
  | none => exact setDiversion_eq none 0 s
  | some st => exact setDiversion_eq (some st) 1024 s

end Sys2Proof.Machine
end


section
/-! The sum of what follows a change of the ports or slots: `Follows`, and `PeersFollow` for a change of the ports. -/

namespace Sys2Proof.Machine

/-! ## ISOLATED (R128, R92) -/

/-- How ISOLATED is judged after the number of usable U-ports was `before`: the flag, the load unit and the event. -/
inductive IsolationJudged (before : Nat) (s : State) : Bool → LoadUnit → List Event → Prop
  | on (cut : s.uCount = 0) (had : before ≠ 0) (was : s.peers.isolated = false) :
      IsolationJudged before s true
        { s.load with divPeer := s.isoPeer, share := if s.isoPeer.isSome then 1024 else 0 } [⟨.isolationOn, none⟩]
  | off (joined : s.uCount ≠ 0) (was : s.peers.isolated = true) :
      IsolationJudged before s false { s.load with divPeer := none, share := 0 } [⟨.isolationOff, none⟩]
  | same (notOn : s.uCount = 0 → before ≠ 0 → s.peers.isolated = true) (notOff : s.uCount ≠ 0 → s.peers.isolated = false) :
      IsolationJudged before s s.peers.isolated s.load []

theorem judgeIsolated_cases (before : Nat) (s : State) : ∃ i l evs, IsolationJudged before s i l evs
    ∧ judgeIsolated before s =
      ⟨{ s with peers := { s.peers with isolated := i }, load := l }, evs ++ shareEvents s.load.share l.share⟩ := by
  by_cases on : s.uCount = 0 ∧ before ≠ 0 ∧ s.peers.isolated = false
  · obtain ⟨cut, had, was⟩ := on
    refine ⟨_, _, _, .on cut had was, ?_⟩
    unfold judgeIsolated
    rw [if_pos ⟨cut, had, was⟩, turnIsolated, Out.andThen_eq, isolationTurned, if_pos rfl, isolationRule_eq]
    rfl
  · by_cases off : s.uCount ≠ 0 ∧ s.peers.isolated = true
    · obtain ⟨joined, was⟩ := off
      refine ⟨_, _, _, .off joined was, ?_⟩
      unfold judgeIsolated
      rw [if_neg on, if_pos ⟨joined, was⟩, turnIsolated, Out.andThen_eq, isolationTurned, if_neg (by decide), setDiversion_eq]
      rfl
    · refine ⟨_, _, _, .same (fun cut had => ?_) (fun joined => ?_), ?_⟩
      · exact Bool.eq_true_of_not_eq_false fun was => on ⟨cut, had, was⟩
      · exact Bool.eq_false_of_not_eq_true fun was => off ⟨joined, was⟩
      · unfold judgeIsolated
        rw [if_neg on, if_neg off, shareEvents_self]
        rfl

/-! ## The stages together -/

/-- The state with its slots followed and their relays chosen again. -/
def State.rechosen (u : State) : State :=
  let v := u.mapSlots u.follow
  v.mapSlots fun x => { x with relay := v.relayOf x }

theorem relayOf_rechosen (u : State) : u.rechosen.relayOf = (u.mapSlots u.follow).relayOf :=
  relayOf_mapSlots (g := fun x => { x with relay := (u.mapSlots u.follow).relayOf x }) (fun _ => rfl) (fun _ => rfl)
    (fun _ => rfl) (u.mapSlots u.follow)

theorem slot_rechosen (u : State) (n : SlotNo) : u.rechosen.slot n = (u.slot n).map u.rechosen.followed := by
  unfold State.rechosen
  rw [slot_mapSlots, slot_mapSlots, Option.map_map]
  refine congrArg (Option.map · (u.slot n)) (funext fun x => ?_)
  rw [followed_eq]
  show ({ u.follow x with relay := _ } : PeerSlot) = { u.follow x with relay := u.rechosen.relayOf (u.follow x) }
  rw [relayOf_rechosen]

theorem followed_andRechosen (u : State) :
    (eachOut followSlot allSlots u).also recomputeRelays = ⟨u.rechosen, u.followed_ allSlots⟩ := by
  rw [eachOut_followSlot (by decide), eachState_modifySlot]
  show (⟨recomputeRelays (u.mapSlots u.follow), _⟩ : Out) = _
  unfold recomputeRelays
  rw [eachState_modifySlot]
  rfl

/-- The load unit after a lost diversion peer was dropped, and what the drop raises. -/
inductive DiversionKept (s : State) : LoadUnit → Prop
  | lost (h : s.losesDiversion s) : DiversionKept s { s.load with divPeer := none, share := 0 }
  | kept (h : ¬ s.losesDiversion s) : DiversionKept s s.load

theorem dropLostDiversion_cases (s : State) : ∃ l, DiversionKept s l
    ∧ dropLostDiversion s = ⟨{ s with load := l }, shareEvents s.load.share l.share⟩ := by
  by_cases h : s.losesDiversion s
  · exact ⟨_, .lost h, dropLostDiversion_of_loses h⟩
  · refine ⟨_, .kept h, ?_⟩
    rw [dropLostDiversion_of_keeps h, shareEvents_self]
    rfl

theorem settleView_cases (old u : State) : ∃ l i l' iso, DiversionKept u.rechosen l
    ∧ IsolationJudged old.uCount { u.rechosen with load := l } i l' iso
    ∧ settleView old u =
      ⟨reportView old { u.rechosen with peers := { u.rechosen.peers with isolated := i }, load := l' },
        (u.followed_ allSlots ++ shareEvents u.load.share l.share) ++ (iso ++ shareEvents l.share l'.share)⟩ := by
  obtain ⟨l, kept, dropped⟩ := dropLostDiversion_cases u.rechosen
  obtain ⟨i, l', iso, judged, turned⟩ := judgeIsolated_cases old.uCount { u.rechosen with load := l }
  refine ⟨l, i, l', iso, kept, judged, ?_⟩
  unfold settleView
  rw [followed_andRechosen]
  show ((⟨(dropLostDiversion u.rechosen).st, u.followed_ allSlots ++ (dropLostDiversion u.rechosen).evs⟩ : Out).andThen
    (judgeIsolated old.uCount)).also (reportView old) = _
  rw [dropped]
  show (⟨reportView old (judgeIsolated old.uCount { u.rechosen with load := l }).st,
    (u.followed_ allSlots ++ shareEvents u.load.share l.share)
      ++ (judgeIsolated old.uCount { u.rechosen with load := l }).evs⟩ : Out) = _
  rw [turned]

/-- What follows a change that led from `old` to `u`: the slots, the relays, the diversion, ISOLATED and the LINK notice. -/
structure Follows (old u : State) (o : Out) : Prop where
  frame : Frame [.peers, .load, .line] u o.st
  slots : ∀ n, o.st.slot n = (u.slot n).map o.st.followed
  peers : o.st.peers = { u.peers with slots := o.st.peers.slots, isolated := o.st.peers.isolated }
  conflict : o.st.line.conflict = u.line.conflict
  joined : u.uCount ≠ 0 → o.st.peers.isolated = false
  cut : u.uCount = 0 → old.uCount ≠ 0 → o.st.peers.isolated = true
  still : u.uCount = 0 → old.uCount = 0 → o.st.peers.isolated = u.peers.isolated
  events : ∀ e : Event, e ∈ o.evs ↔ (∃ n x, u.slot n = some x ∧ e ∈ u.followEvents x)
    ∨ (e = ⟨.isolationOn, none⟩ ∧ u.peers.isolated = false ∧ o.st.peers.isolated = true)
    ∨ (e = ⟨.isolationOff, none⟩ ∧ u.peers.isolated = true ∧ o.st.peers.isolated = false)
    ∨ (e = ⟨.diversionStart, none⟩ ∧ 0 < o.st.load.share ∧ (u.load.share = 0 ∨ u.losesDiversion o.st))
    ∨ (e = ⟨.diversionEnd, none⟩ ∧ 0 < u.load.share ∧ (o.st.load.share = 0 ∨ u.losesDiversion o.st))
  lost : o.st.peers.isolated = u.peers.isolated → u.losesDiversion o.st →
    o.st.load = { u.load with divPeer := none, share := 0 }
  kept : o.st.peers.isolated = u.peers.isolated → ¬ u.losesDiversion o.st → o.st.load = u.load
  ended : u.peers.isolated = true → o.st.peers.isolated = false → o.st.load = { u.load with divPeer := none, share := 0 }
  started : u.peers.isolated = false → o.st.peers.isolated = true →
    o.st.load = { u.load with divPeer := o.st.isoPeer, share := if o.st.isoPeer.isSome then 1024 else 0 }
  line : o.st.line = if o.st.mayNotify = true ∧ o.st.linkContent ≠ old.linkContent
    then { u.line with wLink := some o.st.linkNow } else u.line

theorem composeLink_linkNow {s : State} (h : s.mayNotify = true) :
    composeLink s = { s with line := { s.line with wLink := some s.linkNow } } := composeLink_of_mayNotify h

theorem linkContent_of_line {s : State} {l : GroupLine} (h : l.conflict = s.line.conflict) :
    ({ s with line := l } : State).linkContent = s.linkContent := by
  unfold State.linkContent State.bondUp
  simp only [portReady_of_line h]
  rfl

theorem reportView_cases (old v : State) : ∃ l : GroupLine, l.conflict = v.line.conflict
    ∧ reportView old v = { v with line := l }
    ∧ l = if v.mayNotify = true ∧ v.linkContent ≠ old.linkContent then { v.line with wLink := some v.linkNow } else v.line := by
  unfold reportView
  by_cases same : v.linkContent = old.linkContent
  · exact ⟨v.line, rfl, if_pos same, (if_neg fun h => h.2 same).symm⟩
  · cases notify : v.mayNotify with
    | true =>
      exact ⟨{ v.line with wLink := some v.linkNow }, rfl, (if_neg same).trans (composeLink_linkNow notify),
        (if_pos ⟨rfl, same⟩).symm⟩
    | false =>
      refine ⟨v.line, rfl, (if_neg same).trans (composeLink_of_not notify), (if_neg ?_).symm⟩
      rintro ⟨h, -⟩
      cases h

theorem mem_followed_ {u : State} {e : Event} :
    e ∈ u.followed_ allSlots ↔ ∃ n x, u.slot n = some x ∧ e ∈ u.followEvents x := by
  unfold State.followed_
  rw [List.mem_flatMap]
  constructor
  · rintro ⟨n, -, h⟩
    cases slot : u.slot n with
    | none =>
      rw [slot] at h
      cases h
    | some x =>
      rw [slot] at h
      exact ⟨n, x, slot, h⟩
  · rintro ⟨n, x, slot, h⟩
    exact ⟨n, mem_allSlots n, by rw [slot]; exact h⟩

theorem shares_raised {b m a : Nat} {e : Event} (lost : Prop) (keeps : (lost ∧ m = 0) ∨ (¬ lost ∧ m = b)) :
    e ∈ shareEvents b m ∨ e ∈ shareEvents m a ↔
      (e = ⟨.diversionStart, none⟩ ∧ 0 < a ∧ (b = 0 ∨ lost)) ∨ (e = ⟨.diversionEnd, none⟩ ∧ 0 < b ∧ (a = 0 ∨ lost)) := by
  rw [mem_shareEvents, mem_shareEvents]
  rcases keeps with ⟨h, rfl⟩ | ⟨h, rfl⟩
  · simp only [h, or_true, and_true, true_and]
    constructor
    · rintro ((⟨-, -, k⟩ | k) | (k | ⟨-, k, -⟩))
      · exact absurd k (lt_irrefl 0)
      · exact .inr k
      · exact .inl k
      · exact absurd k (lt_irrefl 0)
    · rintro (k | k)
      · exact .inr (.inl k)
      · exact .inl (.inr k)
  · simp only [h, or_false]
    constructor
    · rintro ((⟨-, k, k'⟩ | ⟨-, k, k'⟩) | (⟨k, k', k''⟩ | k))
      · omega
      · omega
      · exact .inl ⟨k, k'', k'⟩
      · exact .inr k
    · rintro (⟨k, k', k''⟩ | k)
      · exact .inr (.inl ⟨k, k'', k'⟩)
      · exact .inr (.inr k)

theorem losesDiversion_congr {s t t' : State} (peer : t.peer = t'.peer) (direct : t.directX = t'.directX) :
    s.losesDiversion t ↔ s.losesDiversion t' := by
  unfold State.losesDiversion
  rw [peer, direct]

/-- What `settleView` does after a change that led from `old` to `u`. -/
theorem settleView_follows (old u : State) : Follows old u (settleView old u) := by
  obtain ⟨l, i, l', iso, kept, judged, eq⟩ := settleView_cases old u
  obtain ⟨line, conflict, report, isLine⟩ :=
    reportView_cases old { u.rechosen with peers := { u.rechosen.peers with isolated := i }, load := l' }
  rw [report] at eq
  rw [eq]
  have sameConflict : line.conflict = u.line.conflict := conflict
  set t : State := { u.rechosen with peers := { u.rechosen.peers with isolated := i }, load := l', line := line } with ht
  have direct : t.directX = u.directX := by
    funext st
    unfold State.directX
    rw [show t.line.conflict = u.line.conflict from sameConflict]
    rfl
  have directs : t.directX = u.rechosen.directX := direct
  have peer : t.peer = u.rechosen.peer := rfl
  have relays : t.relayOf = u.rechosen.relayOf := rfl
  have followed : t.followed = u.rechosen.followed := by
    funext x
    unfold State.followed
    rw [directs, relays]
  have lost : u.losesDiversion t ↔ u.rechosen.losesDiversion u.rechosen := losesDiversion_congr peer directs
  have isoPeer : t.isoPeer = u.rechosen.isoPeer := by
    unfold State.isoPeer State.isoCandidate
    rw [directs]
    rfl
  have share : (u.losesDiversion t ∧ l.share = 0) ∨ (¬ u.losesDiversion t ∧ l.share = u.load.share) := by
    cases kept with
    | lost h => exact .inl ⟨lost.2 h, rfl⟩
    | kept h => exact .inr ⟨mt lost.1 h, rfl⟩
  have flags : ∀ e : Event, e ∈ iso ↔ (e = ⟨.isolationOn, none⟩ ∧ u.peers.isolated = false ∧ i = true)
      ∨ (e = ⟨.isolationOff, none⟩ ∧ u.peers.isolated = true ∧ i = false) := by
    intro e
    cases judged with
    | on cut had was => simp [show u.peers.isolated = false from was]
    | off joined was => simp [show u.peers.isolated = true from was]
    | same notOn notOff =>
      cases h : u.peers.isolated with
      | true => simp [show u.rechosen.peers.isolated = true from h]
      | false => simp [show u.rechosen.peers.isolated = false from h]
  refine {
    frame := fun b hb => ?_
    slots := fun n => ?_
    peers := rfl
    conflict := sameConflict
    joined := fun h => ?_
    cut := fun h had => ?_
    still := fun h had => ?_
    events := fun e => ?_
    lost := fun h lost' => ?_
    kept := fun h kept' => ?_
    ended := fun was now => ?_
    started := fun was now => ?_
    line := ?_ }
  · cases b with
    | peers => exact absurd List.mem_cons_self hb
    | load => exact absurd (List.mem_cons_of_mem _ List.mem_cons_self) hb
    | line => exact absurd (List.mem_cons_of_mem _ (List.mem_cons_of_mem _ List.mem_cons_self)) hb
    | _ => rfl
  · rw [followed]
    exact slot_rechosen u n
  · cases judged with
    | on cut had was => exact absurd cut h
    | off joined was => rfl
    | same notOn notOff => exact notOff h
  · cases judged with
    | on cut had was => rfl
    | off joined was => exact absurd h joined
    | same notOn notOff => exact notOn h had
  · cases judged with
    | on cut before was => exact absurd had before
    | off joined was => exact absurd h joined
    | same notOn notOff => rfl
  · have shares := shares_raised (a := l'.share) (e := e) (u.losesDiversion t) share
    show e ∈ (u.followed_ allSlots ++ shareEvents u.load.share l.share) ++ (iso ++ shareEvents l.share l'.share) ↔ _
    rw [List.mem_append, List.mem_append, List.mem_append, mem_followed_, flags]
    constructor
    · rintro ((h | h) | (h | h))
      · exact .inl h
      · exact .inr (.inr (.inr (shares.1 (.inl h))))
      · exact .inr (h.imp_right .inl)
      · exact .inr (.inr (.inr (shares.1 (.inr h))))
    · rintro (h | h | h | h)
      · exact .inl (.inl h)
      · exact .inr (.inl (.inl h))
      · exact .inr (.inl (.inr h))
      · rcases shares.2 h with h | h
        · exact .inl (.inr h)
        · exact .inr (.inr h)
  · cases judged with
    | on cut had was => exact absurd (was.symm.trans h.symm) Bool.false_ne_true
    | off joined was => exact absurd (h.trans was) Bool.false_ne_true
    | same notOn notOff =>
      cases kept with
      | lost k => rfl
      | kept k => exact absurd (lost.1 lost') k
  · cases judged with
    | on cut had was => exact absurd (was.symm.trans h.symm) Bool.false_ne_true
    | off joined was => exact absurd (h.trans was) Bool.false_ne_true
    | same notOn notOff =>
      cases kept with
      | lost k => exact absurd (lost.2 k) kept'
      | kept k => rfl
  · cases judged with
    | on cut had was' => exact Bool.noConfusion (show true = false from now)
    | off joined was' => cases kept <;> rfl
    | same notOn notOff => exact absurd (was.symm.trans now) (by decide)
  · cases judged with
    | on cut had was' =>
      rw [isoPeer]
      cases kept <;> rfl
    | off joined was' => exact Bool.noConfusion (show false = true from now)
    | same notOn notOff => exact absurd (was.symm.trans now) (by decide)
  · have content : t.linkContent =
        ({ u.rechosen with peers := { u.rechosen.peers with isolated := i }, load := l' } : State).linkContent :=
      linkContent_of_line conflict
    have now : t.linkNow = ({ u.rechosen with peers := { u.rechosen.peers with isolated := i }, load := l' } : State).linkNow :=
      linkNow_of_line conflict
    have notify : t.mayNotify = ({ u.rechosen with peers := { u.rechosen.peers with isolated := i }, load := l' } : State).mayNotify :=
      by unfold State.mayNotify; rw [show t.line.conflict = _ from conflict]; rfl
    rw [content, now, notify]
    exact isLine

end Sys2Proof.Machine
end


section
/-! The peer table after a change (R42, R90), and the LINK and LOAD notices (O33). -/

namespace Sys2Proof.Machine

/-! ## Relays and diversion after a change -/

theorem foldl_lowerIndex_mem {l : List (Station × Nat)} {m : Option (Station × Nat)} {c : Station × Nat}
    (h : l.foldl lowerIndex m = some c) : c ∈ l ∨ m = some c := by
  induction l generalizing m with
  | nil => exact .inr h
  | cons a l ih =>
    rcases ih h with k | k
    · exact .inl (List.mem_cons_of_mem _ k)
    · cases m with
      | none =>
        cases k
        exact .inl List.mem_cons_self
      | some x =>
        unfold lowerIndex at k
        dsimp only at k
        split at k
        · cases k
          exact .inl List.mem_cons_self
        · exact .inr k

theorem isoPeer_stands {s : State} {st : Station} (h : s.isoPeer = some st) :
    ∃ x y, s.peer st = some x ∧ x.state = .active ∧ s.directX st = some y := by
  obtain ⟨c, best, rfl⟩ := Option.map_eq_some_iff.1 h
  rcases foldl_lowerIndex_mem best with mem | none
  · obtain ⟨-, x, hx, active, -, direct, -⟩ := mem_isoCandidates.1 mem
    obtain ⟨y, hy⟩ := Option.isSome_iff_exists.1 direct
    exact ⟨x, y, hx, active, hy⟩
  · cases none

theorem losesDiversion_of_divPeer {s s' t : State} (h : s.load.divPeer = s'.load.divPeer) :
    s.losesDiversion t ↔ s'.losesDiversion t := by
  unfold State.losesDiversion
  rw [h]

theorem not_losesDiversion_of_none {s t : State} (h : s.load.divPeer = none) : ¬ s.losesDiversion t := by
  rintro ⟨st, k, -⟩
  rw [h] at k
  cases k

namespace Follows

variable {old u : State} {o : Out} (h : Follows old u o)
include h

/-- The relays are chosen again, and a diversion peer that stays is ACTIVE with a direct X-port. -/
theorem peersKept : o.st.peersKept := by
  refine ⟨fun n x hx => ?_, ?_⟩
  · rw [h.slots] at hx
    obtain ⟨y, -, rfl⟩ := Option.map_eq_some_iff.1 hx
    rw [followed_eq]
    rfl
  · by_cases same : o.st.peers.isolated = u.peers.isolated
    · by_cases lost : u.losesDiversion o.st
      · exact not_losesDiversion_of_none (by rw [h.lost same lost])
      · rwa [losesDiversion_of_divPeer (congrArg LoadUnit.divPeer (h.kept same lost))]
    · cases was : u.peers.isolated with
      | true =>
        have now : o.st.peers.isolated = false := Bool.eq_false_of_not_eq_true fun k => same (k.trans was.symm)
        exact not_losesDiversion_of_none (by rw [h.ended was now])
      | false =>
        have now : o.st.peers.isolated = true := Bool.eq_true_of_not_eq_false fun k => same (k.trans was.symm)
        rintro ⟨st, peer, no⟩
        refine no (isoPeer_stands (Eq.trans ?_ peer))
        rw [h.started was now]

theorem directX : o.st.directX = u.directX := by
  funext st
  unfold State.directX State.xTo State.port
  rw [h.conflict, h.frame.ports (by decide)]

theorem slot {n : SlotNo} {x : PeerSlot} (hx : u.slot n = some x) : o.st.slot n = some (o.st.followed x) := by
  rw [h.slots, hx]
  rfl

theorem slotOf (st : Station) : o.st.slotOf st = u.slotOf st := by
  unfold State.slotOf
  refine congrArg (allSlots.find? ·) (funext fun n => ?_)
  rw [h.slots, Option.any_map]
  refine congrArg (Option.any · (u.slot n)) (funext fun x => congrArg (· == st) ?_)
  exact follow_station o.st x

theorem peer (st : Station) : o.st.peer st = (u.peer st).map o.st.followed := by
  unfold State.peer
  rw [h.slotOf]
  cases u.slotOf st with
  | none => rfl
  | some n => exact h.slots n

/-- A change that leaves the ports alone does not start ISOLATED. -/
theorem notStarted (ports : u.uCount = old.uCount) (was : u.peers.isolated = false) : o.st.peers.isolated = false := by
  by_cases cut : u.uCount = 0
  · exact (h.still cut (ports ▸ cut)).trans was
  · exact h.joined cut

theorem dropped (ports : u.uCount = old.uCount) (lost : u.losesDiversion o.st) :
    o.st.load = { u.load with divPeer := none, share := 0 } := by
  by_cases same : o.st.peers.isolated = u.peers.isolated
  · exact h.lost same lost
  · cases was : u.peers.isolated with
    | true => exact h.ended was (Bool.eq_false_of_not_eq_true fun k => same (k.trans was.symm))
    | false => exact absurd ((h.notStarted ports was).trans was.symm) same

end Follows

theorem withView_eq (f : State → Out) (s : State) :
    withView f s = ⟨(settleView s (f s).st).st, (f s).evs ++ (settleView s (f s).st).evs⟩ := by
  unfold withView
  exact Out.andThen_eq _ _

theorem done_eq (o : Out) : done o = .next (conclude o) := rfl

/-! ## A slot that keeps its state -/

theorem followed_of_lost {t : State} {x : PeerSlot} (h : x.state = .lost) : t.followed x = { x with relay := none } := by
  have same : t.follow x = x := if_pos h
  have none : t.relayOf x = none := if_neg (by rw [h]; decide)
  rw [followed_eq, same, none]

theorem follow_of_settled {t : State} {x : PeerSlot} (h : t.settled x) : t.follow x = x := by
  obtain ⟨active, off⟩ := h
  unfold State.follow
  cases state : x.state with
  | lost => exact if_pos rfl
  | active =>
    rw [if_neg (by decide), if_pos (active state), if_pos rfl, ← state]
  | joining =>
    rw [if_neg (by decide), off (.inl state), if_neg (by decide), if_neg (by decide)]
  | severed =>
    rw [if_neg (by decide), off (.inr state), if_neg (by decide), if_neg (by decide)]

theorem followed_of_settled {t : State} {x : PeerSlot} (h : t.settled x) :
    t.followed x = { x with relay := t.relayOf x } := by
  rw [followed_eq, follow_of_settled h]

/-! ## LINK and LOAD notices (R84, R127, R196) -/

/-- The slot of the source takes a notice of its serial: it is live and announces it. -/
def State.takesNotice (s : State) (src : Station) (serial : Serial) : Prop :=
  ∃ n x, s.slotOf src = some n ∧ s.slot n = some x ∧ x.state ≠ .lost ∧ x.serial = serial

theorem setSlot_setSlot (n : SlotNo) (x y : Option PeerSlot) (s : State) : setSlot n x (setSlot n y s) = setSlot n x s := by
  unfold setSlot
  rw [Vector.set_set]

theorem modifySlot_setSlot (n : SlotNo) (x : PeerSlot) (f : PeerSlot → PeerSlot) (s : State) :
    modifySlot n f (setSlot n (some x) s) = setSlot n (some (f x)) s :=
  (modifySlot_of_slot (slot_setSlot n (some x) s) f).trans (setSlot_setSlot _ _ _ _)

theorem slotOf_setSlot {n : SlotNo} {x y : PeerSlot} {s : State} (hx : s.slot n = some x) (same : y.station = x.station)
    (st : Station) : (setSlot n (some y) s).slotOf st = s.slotOf st := by
  unfold State.slotOf
  refine congrArg (allSlots.find? ·) (funext fun m => ?_)
  by_cases here : m = n
  · subst here
    rw [slot_setSlot, hx]
    show (y.station == st) = (x.station == st)
    rw [same]
  · rw [slot_setSlot_ne here]

theorem takesNotice_iff {s : State} {src : Station} {serial : Serial} :
    ((s.peer src).any fun x => x.state.live && x.serial == serial) = true ↔ s.takesNotice src serial := by
  rw [Option.any_eq_true]
  constructor
  · rintro ⟨x, hx, h⟩
    obtain ⟨n, slot, hn⟩ := peer_eq_some hx
    rw [Bool.and_eq_true, live_iff, beq_iff_eq] at h
    exact ⟨n, x, slot, hn, h.1, h.2⟩
  · rintro ⟨n, x, slot, hn, live, same⟩
    refine ⟨x, ?_, ?_⟩
    · unfold State.peer
      rw [slot]
      exact hn
    · rw [Bool.and_eq_true, live_iff, beq_iff_eq]
      exact ⟨live, same⟩

theorem takeLink_ignored {s : State} {src : Station} {r : LinkRx} (h : ¬ s.takesNotice src r.serial) :
    takeLink src r s = .of { s with peers := { s.peers with linkIgnored := satInc s.peers.linkIgnored } } :=
  if_neg (mt takesNotice_iff.1 h)

/-- The slot of a peer after its LINK notice. -/
def PeerSlot.linked (r : LinkRx) (x : PeerSlot) : PeerSlot :=
  { x with reachMap := some r.reach, bondUp := r.bondUp, uCount := r.uCount, isolated := r.isolated }

theorem takeLink_taken {s : State} {src : Station} {r : LinkRx} {n : SlotNo} {x : PeerSlot} (slot : s.slotOf src = some n)
    (hx : s.slot n = some x) (live : x.state ≠ .lost) (same : x.serial = r.serial) :
    takeLink src r s = withView (fun s1 => .of (modifySlot n (PeerSlot.linked r) s1)) s := by
  unfold takeLink
  rw [if_pos (takesNotice_iff.2 ⟨n, x, slot, hx, live, same⟩), slot]
  rfl

theorem takeLoad_ignored {s : State} {src : Station} {r : LoadRx} (h : ¬ s.takesNotice src r.serial) :
    takeLoad src r s = { s with load := { s.load with loadIgnored := satInc s.load.loadIgnored } } := by
  unfold takeLoad
  cases slot : s.slotOf src with
  | none => rfl
  | some n =>
    refine if_neg fun k => h ?_
    obtain ⟨x, hx, k⟩ := (Option.any_eq_true _ _).1 k
    rw [Bool.and_eq_true, live_iff, beq_iff_eq] at k
    exact ⟨n, x, slot, hx, k.1, k.2⟩

theorem takeLoad_taken {s : State} {src : Station} {r : LoadRx} {n : SlotNo} {x : PeerSlot} (slot : s.slotOf src = some n)
    (hx : s.slot n = some x) (live : x.state ≠ .lost) (same : x.serial = r.serial) :
    takeLoad src r s = setSlot n (some { x with
      uplink := some (r.uplink, s.time.now), freshExpiry := some (later s.time.now (4 * loadUs s))
      xIdx := r.xIdx, dPeer := r.dPeer, dShare := r.dShare, rCount := r.rCount, isolated := r.isolated }) s := by
  have takes : ((s.slot n).any fun p => p.state.live && p.serial == r.serial) = true := by
    rw [hx]
    show (x.state.live && x.serial == r.serial) = true
    rw [Bool.and_eq_true, live_iff, beq_iff_eq]
    exact ⟨live, same⟩
  unfold takeLoad
  rw [slot]
  exact (if_pos takes).trans (modifySlot_of_slot hx _)

/-- The source's slot takes notices after it was heard as it did before. -/
theorem takesNotice_refreshHeard {s : State} {src : Station} {serial : Serial}
    (h : (refreshHeard src s).takesNotice src serial) : s.takesNotice src serial := by
  obtain ⟨n, y, slot, hy, live, same⟩ := h
  cases was : s.slotOf src with
  | none =>
    rw [refreshHeard_of_none was, was] at slot
    cases slot
  | some m =>
    obtain ⟨x, hx, -⟩ := slotOf_eq_some was
    rw [refreshHeard_of_slot was hx] at slot hy
    rw [slotOf_setSlot (y := s.heardSlot x) hx rfl, was] at slot
    cases slot
    rw [slot_setSlot] at hy
    cases hy
    exact ⟨_, x, was, hx, live, same⟩

/-- Settles O33: the payload's faults, the notices that no live slot takes, and those taken. -/
theorem noticesAreTakenIntoTheirSlot : Obligations.NoticesAreTakenIntoTheirSlot := by
  unfold Obligations.NoticesAreTakenIntoTheirSlot
  intro s src dst l hears length s1
  have linked : exec (.linkReceived src dst l) s = done (withPayload (readLink l) (takeLink src) s1) :=
    congrArg done (receive_of_hearsFrom hears (by decide) length _)
  have loaded : exec (.loadReceived src dst l) s = done (withPayload (readLoad l) (fun r t => .of (takeLoad src r t)) s1) :=
    congrArg done (receive_of_hearsFrom hears (by decide) length _)
  have ignored {serial : Serial}
      (none : ∀ n x, s.slotOf src = some n → s.slot n = some x → x.state = .lost ∨ x.serial ≠ serial) :
      ¬ s1.takesNotice src serial := fun takes => by
    obtain ⟨n, x, slot, hx, live, same⟩ := takesNotice_refreshHeard takes
    exact (none n x slot hx).elim live (· same)
  refine ⟨fun bad => ?_, fun bad => ?_, fun r read none => ?_, fun r read none => ?_, fun n x slot hx live =>
    ⟨fun r read same settled => ?_, fun r read same => ?_⟩⟩
  · rw [linked, bad]
    exact done_of _
  · rw [loaded, bad]
    exact done_of _
  · rw [linked, read]
    exact (congrArg done (takeLink_ignored (ignored none))).trans (done_of _)
  · rw [loaded, read]
    exact (congrArg (fun t => done (.of t)) (takeLoad_ignored (ignored none))).trans (done_of _)
  · have heard : s1 = setSlot n (some (s.heardSlot x)) s := refreshHeard_of_slot slot hx
    have slot1 : s1.slotOf src = some n := by rw [heard, slotOf_setSlot (y := s.heardSlot x) hx rfl, slot]
    have hx1 : s1.slot n = some (s.heardSlot x) := by rw [heard, slot_setSlot]
    have taken := takeLink_taken (r := r) slot1 hx1 live same
    have now : modifySlot n (PeerSlot.linked r) s1 = setSlot n (some ((s.heardSlot x).linked r)) s := by
      rw [heard, modifySlot_setSlot]
    have follows := settleView_follows s1 (modifySlot n (PeerSlot.linked r) s1)
    have here : (modifySlot n (PeerSlot.linked r) s1).slot n = some ((s.heardSlot x).linked r) := by
      rw [now, slot_setSlot]
    refine ⟨withView (fun s1 => .of (modifySlot n (PeerSlot.linked r) s1)) s1, ?_, ?_, follows.peersKept, ?_⟩
    · rw [linked, read]
      exact congrArg done taken
    · have first : Frame [.peers] s (modifySlot n (PeerSlot.linked r) s1) := by
        rw [now]
        exact setSlot_frame n _ s
      exact (first.mono (by decide)).trans (follows.frame)
    · have station : x.station = src := by
        obtain ⟨y, hy, same⟩ := slotOf_eq_some slot
        cases hx.symm.trans hy
        exact same
      refine (follows.slot here).trans (congrArg some ?_)
      have direct : (settleView s1 (modifySlot n (PeerSlot.linked r) s1)).st.directX = s.directX := by
        rw [follows.directX, now]
        rfl
      have settled' : (settleView s1 (modifySlot n (PeerSlot.linked r) s1)).st.settled ((s.heardSlot x).linked r) := by
        unfold State.settled
        rw [direct]
        exact settled
      rw [← station]
      exact followed_of_settled settled'
  · have heard : s1 = setSlot n (some (s.heardSlot x)) s := refreshHeard_of_slot slot hx
    have slot1 : s1.slotOf src = some n := by rw [heard, slotOf_setSlot (y := s.heardSlot x) hx rfl, slot]
    have hx1 : s1.slot n = some (s.heardSlot x) := by rw [heard, slot_setSlot]
    rw [loaded, read]
    refine (congrArg (fun t => done (.of t)) (takeLoad_taken (r := r) slot1 hx1 live same)).trans ((done_of _).trans ?_)
    rw [heard, setSlot_setSlot]
    rfl

end Sys2Proof.Machine
end


section
/-! The timers of a peer slot, the freshness of its announced index, and the relay choice (O30). -/

namespace Sys2Proof.Machine

/-! ## The relay choice (R41) -/

theorem reaches_iff {m : Option (List ReachEntry)} {p : Station} : reaches m p = true ↔
    ∃ l e, m = some l ∧ e ∈ l ∧ e.far = some p ∧ (e.link = .up ∨ e.link = .degraded) := by
  unfold reaches
  rw [List.any_eq_true]
  constructor
  · rintro ⟨e, mem, h⟩
    rw [Bool.and_eq_true, beq_iff_eq] at h
    obtain ⟨far, link⟩ := h
    cases m with
    | none => cases mem
    | some l => exact ⟨l, e, rfl, mem, far, by simpa [LinkState.usable] using link⟩
  · rintro ⟨l, e, rfl, mem, far, link⟩
    refine ⟨e, mem, ?_⟩
    rw [Bool.and_eq_true, beq_iff_eq]
    exact ⟨far, by simpa [LinkState.usable] using link⟩

theorem activePeer_eq_some {s : State} {st : Station} {x : PeerSlot} :
    s.activePeer st = some x ↔ s.peer st = some x ∧ x.state = .active := by
  unfold State.activePeer
  rw [Option.filter_eq_some_iff, beq_iff_eq]

theorem mayRelay_iff {s : State} {p q : Station} : ((s.activePeer q).any fun x => reaches x.reachMap p) = true ↔
    ∃ y m e, s.peer q = some y ∧ y.state = .active ∧ y.reachMap = some m ∧ e ∈ m ∧ e.far = some p
      ∧ (e.link = .up ∨ e.link = .degraded) := by
  rw [Option.any_eq_true]
  constructor
  · rintro ⟨y, hy, h⟩
    obtain ⟨hy, active⟩ := activePeer_eq_some.1 hy
    obtain ⟨m, e, map, mem, far, link⟩ := reaches_iff.1 h
    exact ⟨y, m, e, hy, active, map, mem, far, link⟩
  · rintro ⟨y, m, e, hy, active, map, mem, far, link⟩
    exact ⟨y, activePeer_eq_some.2 ⟨hy, active⟩, reaches_iff.2 ⟨m, e, map, mem, far, link⟩⟩

/-- The first station of a list in ascending number that has a property. -/
theorem find?_allStations {f : Station → Bool} {q : Station} (known : q ≠ 15#4) (holds : f q = true)
    (lowest : ∀ r, r ≠ 15#4 → f r = true → q.toNat ≤ r.toNat) : allStations.find? f = some q := by
  cases found : allStations.find? f with
  | none => exact absurd holds (List.find?_eq_none.1 found q (mem_allStations.2 known))
  | some r =>
    obtain ⟨hr, before, after, split, none⟩ := List.find?_eq_some_iff_append.1 found
    have here : q ∈ before ++ r :: after := split ▸ mem_allStations.2 known
    have sorted := split ▸ allStations_sorted
    have le := lowest r (mem_allStations.1 (List.mem_of_find?_eq_some found)) hr
    rcases List.mem_append.1 here with mem | mem
    · exact absurd holds (by simpa using none q mem)
    · rcases List.mem_cons.1 mem with rfl | mem
      · rfl
      · have lt := (List.pairwise_cons.1 (List.pairwise_append.1 sorted).2.1).1 q mem
        omega

theorem relayOf_severed {s : State} {x : PeerSlot} (h : x.state = .severed) : s.relayOf x = s.relayFor x.station := if_pos h

/-! ## Freshness (R85) -/

theorem isFresh_within {s : State} {x : PeerSlot} {at_ : Time} {period : Nat}
    (expiry : x.freshExpiry = some (at_ + BitVec.ofNat 48 period)) (short : period ≤ 400000)
    (recent : (s.time.now - at_).toNat < 2 ^ 47) : s.isFresh x = decide ((s.time.now - at_).toNat < period) := by
  unfold State.isFresh
  rw [expiry]
  show decide (2 ^ 47 ≤ (s.time.now - (at_ + BitVec.ofNat 48 period)).toNat) = _
  have now := s.time.now.isLt
  have arrived := at_.isLt
  rw [BitVec.toNat_sub] at recent
  rw [decide_eq_decide, BitVec.toNat_sub, BitVec.toNat_sub, BitVec.toNat_add, BitVec.toNat_ofNat]
  omega

/-! ## The expiries of a slot's timers (R121, R122, R124, R125) -/

theorem withView_of {f : State → Out} {s u : State} {evs : List Event} (h : f s = ⟨u, evs⟩) :
    withView f s = ⟨(settleView s u).st, evs ++ (settleView s u).evs⟩ := by
  rw [withView_eq, h]

theorem changeSlot_of_slot {n : SlotNo} {x : PeerSlot} {s : State} (h : s.slot n = some x) (f : PeerSlot → PeerSlot)
    (e : EventSource) (st : Station) : changeSlot n f e st s = ⟨setSlot n (some (f x)) s, [⟨e, some st.toNat⟩]⟩ := by
  unfold changeSlot raise
  rw [modifySlot_of_slot h]

/-- The state at a slot's expiry, with the timer gone. -/
theorem expired_eq {s : State} {n : SlotNo} {x : PeerSlot} (h : s.slot n = some x) (u : Time) (f : PeerSlot → PeerSlot) :
    modifySlot n f (reachTime u s) = setSlot n (some (f x)) { s with time := { s.time with now := s.timeAt u } } := by
  rw [reachTime_timeAt]
  exact modifySlot_of_slot (s := { s with time := { s.time with now := s.timeAt u } }) h f

theorem uCount_setSlot (n : SlotNo) (x : Option PeerSlot) (s : State) : (setSlot n x s).uCount = s.uCount := rfl

theorem frame_of_timed {s u : State} {t : TimeBase} {n : SlotNo} {x : Option PeerSlot}
    (h : u = setSlot n x { s with time := t }) : Frame [.time, .peers] s u := by
  subst h
  intro b hb
  cases b with
  | time => exact absurd List.mem_cons_self hb
  | peers => exact absurd (List.mem_cons_of_mem _ List.mem_cons_self) hb
  | _ => rfl

theorem exec_silenceExpiry_live {s : State} {n : SlotNo} {x : PeerSlot} (hx : s.slot n = some x) {u : Time}
    (due : x.silenceExpiry = some u) (live : x.state ≠ .lost) :
    let s1 := setSlot n (some { x with silenceExpiry := none }) { s with time := { s.time with now := s.timeAt u } }
    exec (.silenceExpiry n) s = done (withView (slotToLost n x) s1) := by
  intro s1
  show done (expireSilence n s) = _
  unfold expireSilence
  rw [hx]
  dsimp only
  rw [due]
  dsimp only
  rw [if_pos (live_iff.2 live), expired_eq hx]

theorem exec_joinExpiry_joining {s : State} {n : SlotNo} {x : PeerSlot} (hx : s.slot n = some x) {u : Time}
    (due : x.joinExpiry = some u) (joining : x.state = .joining) :
    let s1 := setSlot n (some { x with joinExpiry := none }) { s with time := { s.time with now := s.timeAt u } }
    exec (.joinExpiry n) s =
      done (withView (changeSlot n (fun y => { y with state := .severed }) .peerSevered x.station) s1) := by
  intro s1
  show done (expireJoin n s) = _
  unfold expireJoin
  rw [hx]
  dsimp only
  rw [due]
  dsimp only
  rw [if_pos joining, expired_eq hx]

theorem exec_joinExpiry_other {s : State} {n : SlotNo} {x : PeerSlot} (hx : s.slot n = some x) {u : Time}
    (due : x.joinExpiry = some u) (other : x.state ≠ .joining) :
    exec (.joinExpiry n) s =
      .next (setSlot n (some { x with joinExpiry := none }) { s with time := { s.time with now := s.timeAt u } }) := by
  show done (expireJoin n s) = _
  unfold expireJoin
  rw [hx]
  dsimp only
  rw [due]
  dsimp only
  rw [if_neg other, expired_eq hx, done_of]

theorem exec_lingerExpiry_lost {s : State} {n : SlotNo} {x : PeerSlot} (hx : s.slot n = some x) {u : Time}
    (due : x.lingerExpiry = some u) (lost : x.state = .lost) :
    let s1 := setSlot n (some { x with lingerExpiry := none }) { s with time := { s.time with now := s.timeAt u } }
    exec (.lingerExpiry n) s = done (withView (fun t => .of (setSlot n none t)) s1) := by
  intro s1
  show done (expireLinger n s) = _
  unfold expireLinger
  rw [hx]
  dsimp only
  rw [due]
  dsimp only
  rw [if_pos lost, expired_eq hx]

theorem exec_freshnessExpiry_due {s : State} {n : SlotNo} {x : PeerSlot} (hx : s.slot n = some x) {u : Time}
    (due : x.freshExpiry = some u) : exec (.loadFreshnessExpiry n) s =
      .next (setSlot n (some { x with freshExpiry := none }) { s with time := { s.time with now := s.timeAt u } }) := by
  show done (.of (expireFreshness n s)) = _
  have some_ : (s.slot n).bind (·.freshExpiry) = some u := by
    rw [hx]
    exact due
  unfold expireFreshness
  rw [some_, done_of]
  dsimp only
  rw [expired_eq hx]

/-- What a change of one slot at a timer's expiry leads to. -/
theorem timedSlot_view {s s1 u : State} {n : SlotNo} {x : Option PeerSlot} {time : TimeBase} {f : State → Out}
    {evs : List Event} (hf : f s1 = ⟨u, evs⟩) (now : u = setSlot n x { s with time := time }) :
    Follows s1 u (settleView s1 u) ∧ (withView f s1).st = (settleView s1 u).st
      ∧ (∀ e ∈ evs, e ∈ (withView f s1).evs) ∧ Frame [.time, .peers, .load, .line] s (withView f s1).st
      ∧ (withView f s1).st.time = time ∧ (withView f s1).st.peersKept ∧ u.slot n = x := by
  have follows := settleView_follows s1 u
  have eq := withView_of hf
  have st : (withView f s1).st = (settleView s1 u).st := by rw [eq]
  have raised : ∀ e ∈ evs, e ∈ (withView f s1).evs := fun e he => by
    rw [eq]
    exact List.mem_append_left _ he
  have slot : u.slot n = x := by rw [now, slot_setSlot]
  have timed : u.time = time := by rw [now]; rfl
  refine ⟨follows, st, raised, ?_, ?_, ?_, slot⟩
  · rw [st]
    exact ((frame_of_timed now).mono (by decide)).trans (follows.frame.mono (by decide))
  · rw [st, follows.frame.time (by decide), timed]
  · rw [st]
    exact follows.peersKept

/-- A diversion peer whose slot is not ACTIVE any more is dropped. -/
theorem losesDiversion_of_lost {old u : State} {o : Out} (h : Follows old u o) {n : SlotNo} {x : PeerSlot} {st : Station}
    (slot : u.slotOf st = some n) (hx : u.slot n = some x) (lost : x.state = .lost) (peer : u.load.divPeer = some st) :
    u.losesDiversion o.st := by
  refine ⟨st, peer, ?_⟩
  rintro ⟨y, -, hy, active, -⟩
  have here : u.peer st = some x := by
    unfold State.peer
    rw [slot]
    exact hx
  rw [h.peer, here, Option.map_some] at hy
  cases hy
  rw [followed_of_lost lost] at active
  exact absurd (lost.symm.trans active) (by decide)

theorem slotTimers {s : State} {n : SlotNo} {x : PeerSlot} (hx : s.slot n = some x) :
    (∀ u, x.silenceExpiry = some u → x.state ≠ .lost →
        ∃ o, exec (.silenceExpiry n) s = .next (conclude o)
          ∧ (⟨.peerLost, some x.station.toNat⟩ : Event) ∈ o.evs
          ∧ Frame [.time, .peers, .load, .line] s o.st ∧ o.st.time = { s.time with now := s.timeAt u }
          ∧ o.st.peersKept
          ∧ o.st.slot n = some { x with
              state := .lost, joinExpiry := none, silenceExpiry := none, relay := none
              lingerExpiry := some (s.timeAt u + BitVec.ofNat 48 (3 * (s.params.refreshPeriod * 1000000))) }
          ∧ (s.slotOf x.station = some n → s.load.divPeer = some x.station →
              o.st.load.divPeer = none ∧ o.st.load.share = 0))
      ∧ (∀ u, x.joinExpiry = some u → x.state = .joining → s.directX x.station = none →
          ∃ o, exec (.joinExpiry n) s = .next (conclude o)
            ∧ (⟨.peerSevered, some x.station.toNat⟩ : Event) ∈ o.evs
            ∧ Frame [.time, .peers, .load, .line] s o.st ∧ o.st.time = { s.time with now := s.timeAt u }
            ∧ o.st.peersKept
            ∧ o.st.slot n = some { x with
                state := .severed, joinExpiry := none, relay := o.st.relayFor x.station })
      ∧ ∀ u, x.lingerExpiry = some u → x.state = .lost →
          ∃ o, exec (.lingerExpiry n) s = .next (conclude o) ∧ o.st.slot n = none ∧ o.st.peersKept
            ∧ Frame [.time, .peers, .load, .line] s o.st ∧ o.st.time = { s.time with now := s.timeAt u } := by
  refine ⟨fun u due live => ?_, fun u due joining off => ?_, fun u due lost => ?_⟩
  · let time : TimeBase := { s.time with now := s.timeAt u }
    let s1 := setSlot n (some { x with silenceExpiry := none }) { s with time := time }
    let y : PeerSlot := { x with
      state := .lost, joinExpiry := none, silenceExpiry := none
      lingerExpiry := some (s.timeAt u + BitVec.ofNat 48 (3 * (s.params.refreshPeriod * 1000000))) }
    have change : slotToLost n x s1 = ⟨setSlot n (some y) { s with time := time }, [⟨.peerLost, some x.station.toNat⟩]⟩ :=
      (changeSlot_of_slot (slot_setSlot n _ _) _ _ _).trans (by rw [setSlot_setSlot]; rfl)
    obtain ⟨follows, st, raised, frame, now, kept, slot⟩ := timedSlot_view change rfl
    refine ⟨_, exec_silenceExpiry_live hx due live, raised _ List.mem_cons_self, frame, now, kept, ?_, fun own peer => ?_⟩
    · rw [st]
      exact (follows.slot slot).trans (congrArg some (followed_of_lost rfl))
    · have here : (setSlot n (some y) { s with time := time }).slotOf x.station = some n :=
        (slotOf_setSlot (s := { s with time := time }) (y := y) hx rfl x.station).trans own
      have dropped := follows.dropped rfl (losesDiversion_of_lost follows here slot rfl peer)
      rw [st, dropped]
      exact ⟨rfl, rfl⟩
  · let time : TimeBase := { s.time with now := s.timeAt u }
    let s1 := setSlot n (some { x with joinExpiry := none }) { s with time := time }
    let y : PeerSlot := { x with state := .severed, joinExpiry := none }
    have change : changeSlot n (fun y => { y with state := .severed }) .peerSevered x.station s1 =
        ⟨setSlot n (some y) { s with time := time }, [⟨.peerSevered, some x.station.toNat⟩]⟩ :=
      (changeSlot_of_slot (slot_setSlot n _ _) _ _ _).trans (by rw [setSlot_setSlot])
    obtain ⟨follows, st, raised, frame, now, kept, slot⟩ := timedSlot_view change rfl
    refine ⟨_, exec_joinExpiry_joining hx due joining, raised _ List.mem_cons_self, frame, now, kept, ?_⟩
    rw [st]
    have settled : (settleView s1 (setSlot n (some y) { s with time := time })).st.settled y := by
      refine ⟨fun h => SlotState.noConfusion h, fun _ => ?_⟩
      rw [follows.directX]
      exact off
    exact (follows.slot slot).trans (congrArg some ((followed_of_settled settled).trans (by rw [relayOf_severed rfl])))
  · let time : TimeBase := { s.time with now := s.timeAt u }
    let s1 := setSlot n (some { x with lingerExpiry := none }) { s with time := time }
    have change : Out.of (setSlot n none s1) = ⟨setSlot n none { s with time := time }, []⟩ :=
      congrArg Out.of (setSlot_setSlot n none (some { x with lingerExpiry := none }) { s with time := time })
    obtain ⟨follows, st, -, frame, now, kept, slot⟩ := timedSlot_view (f := fun t => .of (setSlot n none t)) change rfl
    refine ⟨_, exec_lingerExpiry_lost hx due lost, ?_, kept, frame, now⟩
    rw [st, follows.slots, slot]
    rfl

end Sys2Proof.Machine
end


section
/-! Every step keeps the freshness expiries of the announced indices (the law of R85 and R183 in O30). Beside the operations on
slots, an operation leaves the slots, the parameters and, but for the resets, the start state LOADING alone (`KeepsView`). -/

namespace Sys2Proof.Machine

/-- The law holds after if it held before. -/
def KeepsView (s t : State) : Prop := s.viewLaw → t.viewLaw

theorem slot_of_reset {t : State} (h : t.peers = {}) (n : SlotNo) : t.slot n = none := by
  rw [State.slot, h]
  exact Vector.getElem_replicate n.isLt

namespace KeepsView

theorem refl (s : State) : KeepsView s s := id

theorem trans {s t u : State} (h : KeepsView s t) (k : KeepsView t u) : KeepsView s u := k ∘ h

theorem andThen {s : State} {o : Out} {f : State → Out} (h : KeepsView s o.st) (k : ∀ t, KeepsView t (f t).st) :
    KeepsView s (o.andThen f).st := h.trans (k o.st)

theorem also {s : State} {o : Out} {f : State → State} (h : KeepsView s o.st) (k : ∀ t, KeepsView t (f t)) :
    KeepsView s (o.also f).st := h.trans (k o.st)

theorem eachOut {α : Type} {f : α → State → Out} (k : ∀ a t, KeepsView t (f a t).st) (as : List α) (s : State) :
    KeepsView s (eachOut f as s).st := by
  induction as generalizing s with
  | nil => exact refl s
  | cons a as ih => exact (k a s).trans (ih _)

theorem eachState {α : Type} {f : α → State → State} (k : ∀ a t, KeepsView t (f a t)) (as : List α) (s : State) :
    KeepsView s (eachState f as s) := by
  induction as generalizing s with
  | nil => exact refl s
  | cons a as ih => exact (k a s).trans (ih _)

/-- A change of the slots, each of which is freed, is cleared, or keeps its announced index with the expiry. -/
theorem of_slots {s t : State} (params : t.params = s.params) (phase : t.loader.phase = .loading → s.loader.phase = .loading)
    (slots : ∀ n y, t.slot n = some y → (y.freshExpiry = none ∧ s.loader.phase ≠ .loading)
      ∨ ∃ x, s.slot n = some x ∧ (y.freshExpiry = none ∨ (y.freshExpiry = x.freshExpiry ∧ y.uplink = x.uplink))) :
    KeepsView s t := by
  rintro ⟨fresh, empty⟩
  refine ⟨fun n y e hy he => ?_, fun loading n => ?_⟩
  · rcases slots n y hy with ⟨none, -⟩ | ⟨x, hx, none | ⟨same, index⟩⟩
    · rw [none] at he
      cases he
    · rw [none] at he
      cases he
    · rw [index, params]
      exact fresh n x e hx (same.symm.trans he)
  · cases hy : t.slot n with
    | none => rfl
    | some y =>
      rcases slots n y hy with ⟨-, loaded⟩ | ⟨x, hx, -⟩
      · exact absurd (phase loading) loaded
      · exact absurd (hx.symm.trans (empty (phase loading) n)) (by simp)

theorem of_empty {s t : State} (h : ∀ n, t.slot n = none) : KeepsView s t := fun _ =>
  ⟨fun n x _ hx _ => absurd ((h n).symm.trans hx) (by simp), fun _ => h⟩

theorem of_same {s t : State} (slots : t.peers.slots = s.peers.slots) (params : t.params = s.params)
    (phase : t.loader.phase = .loading → s.loader.phase = .loading) : KeepsView s t :=
  of_slots params phase fun n y hy => .inr ⟨y, by rw [State.slot, ← slots]; exact hy, .inr ⟨rfl, rfl⟩⟩

theorem of_refetchOnly {l : List Block} {s t : State} (h : Frame l s t) (r : RefetchOnly s t)
    (k : ∀ b ∈ [Block.peers, .params], b ∉ l) : KeepsView s t :=
  of_same (congrArg Peers.slots (h.peers (k _ (by decide)))) (h.params (k _ (by decide))) fun hp => r.phase ▸ hp

theorem of_frame {l : List Block} {s t : State} (h : Frame l s t) (k : ∀ b ∈ [Block.loader, .peers, .params], b ∉ l) :
    KeepsView s t :=
  of_refetchOnly h (.of_frame h (k _ (by decide))) fun b hb => k b (List.mem_cons_of_mem _ hb)

theorem modifySlot {n : SlotNo} {f : PeerSlot → PeerSlot}
    (h : ∀ x, (f x).freshExpiry = none ∨ ((f x).freshExpiry = x.freshExpiry ∧ (f x).uplink = x.uplink)) (s : State) :
    KeepsView s (modifySlot n f s) :=
  of_slots rfl id fun m y hy => by
    by_cases here : m = n
    · subst here
      rw [slot_modifySlot] at hy
      obtain ⟨x, hx, rfl⟩ := Option.map_eq_some_iff.1 hy
      exact .inr ⟨x, hx, h x⟩
    · rw [slot_modifySlot_ne here] at hy
      exact .inr ⟨y, hy, .inr ⟨rfl, rfl⟩⟩

theorem settleView (old u : State) : KeepsView u (settleView old u).st := by
  have h := settleView_follows old u
  refine of_slots (h.frame.params (by decide)) (by rw [h.frame.loader (by decide)]; exact id) fun n y hy => ?_
  rw [h.slots] at hy
  obtain ⟨x, hx, rfl⟩ := Option.map_eq_some_iff.1 hy
  refine .inr ⟨x, hx, .inr ?_⟩
  rw [followed_eq]
  unfold State.follow
  split_ifs <;> exact ⟨rfl, rfl⟩

theorem withView {f : State → Out} {s : State} (h : KeepsView s (f s).st) : KeepsView s (withView f s).st := by
  unfold Machine.withView
  exact h.andThen fun t => settleView s t

theorem line (l : GroupLine) (s : State) : KeepsView s { s with line := l } := of_same rfl rfl id

theorem loader (l : Loader) {s : State} (h : l.phase = s.loader.phase) : KeepsView s { s with loader := l } :=
  of_same rfl rfl fun k => h.symm.trans k

theorem timed (t : Time) (s : State) : KeepsView s (reachTime t s) := of_frame (reachTime_frame t s) (by decide)

theorem port (p : Port) (f : PortUnit → PortUnit) (s : State) : KeepsView s (setPort p f s) :=
  of_frame (setPort_frame p f s) (by decide)

theorem generator (t : Time) (next : TimeBase) (s : State) : KeepsView s { reachTime t s with time := next } :=
  (timed t s).trans (of_same rfl rfl fun h => h)

/-! ## Ports and slots -/

theorem takeCarrierUp (p : Port) (s : State) : KeepsView s (takeCarrierUp p s).st := by
  have carrier := port p (fun u => { u with carrier := true }) s
  unfold Machine.takeCarrierUp
  dsimp only
  split
  · exact carrier.trans (withView (of_frame (portToUp_frame p _) (by decide)))
  · exact carrier

theorem takeCarrierDown (p : Port) (s : State) : KeepsView s (takeCarrierDown p s).st := by
  have carrier := port p (fun u => { u with carrier := false }) s
  have held (t : State) : KeepsView t (Machine.withView (portToHeld p) t).st :=
    withView (of_frame (portToHeld_frame p t) (by decide))
  unfold Machine.takeCarrierDown
  generalize setPort p (fun u => { u with carrier := false }) s = t at carrier ⊢
  dsimp only
  split
  · split
    · exact carrier.trans (held t)
    · exact carrier.trans (held t)
    · exact carrier.trans (of_frame (startHold_frame p t) (by decide))
    · exact carrier
  · exact carrier

theorem expireHold (p : Port) (s : State) : KeepsView s (expireHold p s).st := by
  unfold Machine.expireHold
  split
  · exact refl s
  · exact ((timed _ s).trans (port p _ _)).trans (withView (of_frame (endHold_frame p _) (by decide)))

theorem portSecond (p : Port) (s : State) : KeepsView s (portSecond p s).st := by
  unfold Machine.portSecond
  refine also ?_ fun t => port p _ t
  split
  · exact withView (of_frame (comparePort_frame p s) (by decide))
  · exact refl s

theorem takePortHello (x : XIndex) (l : List Byte) (s : State) : KeepsView s (takePortHello x l s).st := by
  unfold Machine.takePortHello
  split
  · exact withView (port _ _ s)
  · exact refl s

theorem expireLapse (x : XIndex) (s : State) : KeepsView s (expireLapse x s).st := by
  unfold Machine.expireLapse
  split
  · exact refl s
  · exact (timed _ s).trans (withView (port _ _ _))

theorem slotToLost (n : SlotNo) (x : PeerSlot) (s : State) : KeepsView s (slotToLost n x s).st :=
  modifySlot (by exact fun _ => .inr ⟨rfl, rfl⟩) s

theorem slotReturns (n : SlotNo) (r : Bool) (s : State) : KeepsView s (slotReturns n r s).st :=
  (of_same rfl rfl id : KeepsView s (nextGen s)).trans (modifySlot (by exact fun _ => .inl rfl) _)

theorem helloNew (st : Station) (h : HelloRx) {s : State} (loaded : s.loader.phase ≠ .loading) :
    KeepsView s (helloNew st h s).st := by
  unfold Machine.helloNew
  split
  · split
    · exact of_same rfl rfl id
    · next n _ =>
      refine withView (of_slots rfl id fun m y hy => ?_)
      by_cases here : m = n
      · subst here
        cases (slot_setSlot m _ (nextGen s)).symm.trans hy
        exact .inl ⟨rfl, loaded⟩
      · exact .inr ⟨y, (slot_setSlot_ne here _ (nextGen s)).symm.trans hy, .inr ⟨rfl, rfl⟩⟩
  · exact refl s

theorem helloKnown (n : SlotNo) (x : PeerSlot) (h : HelloRx) (s : State) : KeepsView s (helloKnown n x h s).st := by
  unfold Machine.helloKnown
  split
  · exact refl s
  · split
    · split
      · exact withView (slotReturns n _ s)
      · exact refl s
    · split
      · exact withView (trans (modifySlot (by exact fun _ => .inr ⟨rfl, rfl⟩) s) (slotToLost n x _))
      · split
        · exact withView (slotToLost n x s)
        · split
          · exact (withView (slotToLost n x s)).andThen fun t => withView (slotReturns n false t)
          · exact modifySlot (by exact fun _ => .inr ⟨rfl, rfl⟩) s

theorem takeHello (st : Station) (h : HelloRx) (s : State) : KeepsView s (takeHello st h s).st := by
  unfold Machine.takeHello
  split
  · next notify =>
    split
    · exact helloNew st h (phase_ne_loading_of_mayNotify notify)
    · split
      · exact refl s
      · exact helloKnown _ _ h s
  · exact refl s

theorem takeLink (st : Station) (r : LinkRx) (s : State) : KeepsView s (takeLink st r s).st := by
  unfold Machine.takeLink
  split
  · split
    · exact refl s
    · exact withView (modifySlot (by exact fun _ => .inr ⟨rfl, rfl⟩) s)
  · exact of_same rfl rfl id

/-- A LOAD notice sets the index of a slot together with its expiry (R84, R85). -/
theorem takeLoad (st : Station) (r : LoadRx) (s : State) : KeepsView s (takeLoad st r s) := by
  unfold Machine.takeLoad
  split
  · next n _ =>
    split
    · rintro ⟨fresh, empty⟩
      refine ⟨fun m y e hy he => ?_, fun loading m => ?_⟩
      · by_cases here : m = n
        · subst here
          rw [slot_modifySlot] at hy
          obtain ⟨x, -, rfl⟩ := Option.map_eq_some_iff.1 hy
          cases he
          exact ⟨r.uplink, s.time.now, rfl, rfl⟩
        · rw [slot_modifySlot_ne here] at hy
          exact fresh m y e hy he
      · by_cases here : m = n
        · subst here
          rw [slot_modifySlot, empty loading m]
          rfl
        · rw [slot_modifySlot_ne here]
          exact empty loading m
    · exact of_same rfl rfl id
  · exact of_same rfl rfl id

theorem refreshHeard (st : Station) (s : State) : KeepsView s (refreshHeard st s) := by
  unfold Machine.refreshHeard
  split
  · exact refl s
  · exact modifySlot (by exact fun _ => .inr ⟨rfl, rfl⟩) s

theorem slotTimer (t : Time) {n : SlotNo} {f : PeerSlot → PeerSlot}
    (h : ∀ x, (f x).freshExpiry = none ∨ ((f x).freshExpiry = x.freshExpiry ∧ (f x).uplink = x.uplink)) (s : State) :
    KeepsView s (Machine.modifySlot n f (reachTime t s)) := (timed t s).trans (modifySlot h _)

theorem expireSilence (n : SlotNo) (s : State) : KeepsView s (expireSilence n s).st := by
  unfold Machine.expireSilence
  split
  · exact refl s
  · split
    · exact refl s
    · dsimp only
      split
      · exact (slotTimer _ (by exact fun _ => .inr ⟨rfl, rfl⟩) s).trans (withView (slotToLost n _ _))
      · exact slotTimer _ (by exact fun _ => .inr ⟨rfl, rfl⟩) s

theorem expireJoin (n : SlotNo) (s : State) : KeepsView s (expireJoin n s).st := by
  unfold Machine.expireJoin
  split
  · exact refl s
  · split
    · exact refl s
    · dsimp only
      split
      · exact (slotTimer _ (by exact fun _ => .inr ⟨rfl, rfl⟩) s).trans (withView (modifySlot (by exact fun _ => .inr ⟨rfl, rfl⟩) _))
      · exact slotTimer _ (by exact fun _ => .inr ⟨rfl, rfl⟩) s

/-- A freed slot. -/
theorem freeSlot (n : SlotNo) (s : State) : KeepsView s (setSlot n none s) :=
  of_slots rfl id fun m y hy => by
    by_cases here : m = n
    · subst here
      rw [slot_setSlot] at hy
      cases hy
    · rw [slot_setSlot_ne here] at hy
      exact .inr ⟨y, hy, .inr ⟨rfl, rfl⟩⟩

theorem expireLinger (n : SlotNo) (s : State) : KeepsView s (expireLinger n s).st := by
  unfold Machine.expireLinger
  split
  · exact refl s
  · split
    · exact refl s
    · dsimp only
      split
      · exact (slotTimer _ (by exact fun _ => .inr ⟨rfl, rfl⟩) s).trans (withView (freeSlot n _))
      · exact slotTimer _ (by exact fun _ => .inr ⟨rfl, rfl⟩) s

theorem expireFreshness (n : SlotNo) (s : State) : KeepsView s (expireFreshness n s) := by
  unfold Machine.expireFreshness
  split
  · exact refl s
  · exact slotTimer _ (by exact fun _ => .inl rfl) s

theorem freeSlotNow (n : SlotNo) (s : State) : KeepsView s (freeSlotNow n s).st := by
  unfold Machine.freeSlotNow
  split
  · exact refl s
  · dsimp only
    split <;> exact freeSlot n s

/-! ## Frames and the time base -/

theorem takeFrame (p : Port) (l : List Byte) (s : State) : KeepsView s (takeFrame p l s).st := by
  unfold Machine.takeFrame
  split
  · exact refl s
  · split
    · exact of_frame (dropIngress_frame _ _ s) (by decide)
    · split
      · split
        · exact takePortHello _ l s
        · exact of_refetchOnly (crossFrame_frame p l s) (crossFrame_refetchOnly p l s) (by decide)
      · exact of_refetchOnly (edgeFrame_frame p l s) (edgeFrame_refetchOnly p l s) (by decide)

theorem takeSample (s : State) : KeepsView s (takeSample s).st := by
  have raised : KeepsView s (raiseSample s) := generator _ _ s
  unfold Machine.takeSample
  generalize raiseSample s = t at raised ⊢
  dsimp only
  split
  · refine raised.trans (andThen (andThen (of_frame (sampleLoad_frame t) (by decide)) fun u => ?_) fun u => ?_)
    · exact of_frame (sampleRestraint_frame u) (by decide)
    · exact of_refetchOnly (lowerHoldOffs_frame u) (lowerHoldOffs_refetchOnly u) (by decide)
  · exact raised

theorem takeLoadDue (s : State) : KeepsView s (takeLoadDue s) := by
  unfold Machine.takeLoadDue
  split
  · exact refl s
  · exact (generator _ _ s).trans (of_frame (composeLoad_frame _) (by decide))

theorem actHello (s : State) : KeepsView s (actHello s) := by
  refine of_same (congrArg Peers.slots ((actHello_frame s).peers (by decide))) ((actHello_frame s).params (by decide)) ?_
  intro loading
  unfold Machine.actHello at loading
  split at loading
  · next acting =>
    have still := ((periodicLink_frame _).loader (by decide)).trans
      ((Frame.eachState makePortHello_frame allX (countHello s)).loader (by decide))
    rw [still] at loading
    exact absurd loading (phase_ne_loading_of_acting (countHello_acting acting))
  · exact loading

theorem takeHelloDue (s : State) : KeepsView s (takeHelloDue s) := by
  unfold Machine.takeHelloDue
  split
  · exact refl s
  · exact (generator _ _ s).trans ((actHello _).trans (of_frame (composeHello_frame _) (by decide)))

theorem takeRefreshEnd (s : State) : KeepsView s (takeRefreshEnd s) := by
  unfold Machine.takeRefreshEnd
  split
  · exact refl s
  · exact (generator _ _ s).trans (of_frame (endRefresh_frame _) (by decide))

theorem boundary (s : State) : KeepsView s (boundary s).st :=
  of_refetchOnly (boundary_frame s) (boundary_refetchOnly s) (by decide)

theorem takeIntervalEnd (s : State) : KeepsView s (takeIntervalEnd s).st := by
  unfold Machine.takeIntervalEnd
  split
  · exact refl s
  · exact (generator _ _ s).trans (boundary _)

theorem takeSecond (s : State) : KeepsView s (takeSecond s).st := by
  have raised : KeepsView s (raiseSecond s) := generator _ _ s
  unfold Machine.takeSecond
  generalize raiseSecond s = t at raised ⊢
  dsimp only
  split
  · exact raised
  · exact raised.trans ((eachOut portSecond allPorts t).also fun _ => of_same rfl rfl id)

theorem takeShareWindow (s : State) : KeepsView s (takeShareWindow s) :=
  (generator _ _ s).trans (of_frame (((Frame.eachState (fun c t => setChan_frame c _ t) bothChans _).mono (by decide)).trans
    (fillRecord_frame _)) (by decide))

/-! ## The loader -/

theorem eachState_slots {α : Type} {f : α → State → State} (k : ∀ a t, (f a t).peers.slots = t.peers.slots) (as : List α)
    (t : State) : (Machine.eachState f as t).peers.slots = t.peers.slots := by
  induction as generalizing t with
  | nil => rfl
  | cons a as ih => exact (ih (f a t)).trans (k a t)

theorem fillCollector_slots (e : List Byte) (t : State) : (fillCollector e t).peers.slots = t.peers.slots := by
  unfold fillCollector
  dsimp only
  split
  · rfl
  · split <;> rfl

/-- The filling of the tables leaves the slots alone. -/
theorem fillTables_slots (img : List Byte) (s : State) : (fillTables img s).peers.slots = s.peers.slots := by
  have fixed (n : Nat) (es : List (List Byte)) (t : State) : (fillFixedAll n es t).peers.slots = t.peers.slots := by
    induction es generalizing n t with
    | nil => rfl
    | cons e es ih => exact (ih _ _).trans (congrArg Peers.slots ((fillFixed_frame n e t).peers (by decide)))
  have port (e : List Byte) (t : State) : (fillPort e t).peers.slots = t.peers.slots := by
    unfold fillPort
    split <;> rfl
  have link (e : List Byte) (t : State) : (fillLink e t).peers.slots = t.peers.slots := by
    unfold fillLink
    split <;> rfl
  have announced (x : Nat × FixedCfg) (t : State) : (announceFixed x.2 t).peers.slots = t.peers.slots :=
    congrArg Peers.slots ((announceFixed_frame x.2 t).peers (by decide))
  unfold fillTables announceAllFixed
  dsimp only
  rw [eachState_slots announced, fixed, eachState_slots fillCollector_slots, eachState_slots link,
    eachState_slots (f := fillTariff) (fun _ _ => rfl), eachState_slots (f := fillTenant) (fun _ _ => rfl),
    eachState_slots (f := fillRule) (fun _ _ => rfl), eachState_slots port]
  rfl

theorem enterJoining_slots (s : State) : (enterJoining s).st.peers.slots = s.peers.slots := by
  unfold enterJoining
  generalize hu : openJoining (restartGenerators (enterPhase .joining s)) = u
  have opened : u.peers.slots = s.peers.slots := by rw [← hu]; rfl
  have started : (Machine.eachOut startPort allPorts u).st.peers = u.peers :=
    (Frame.eachOut startPort_frame allPorts u).peers (by decide)
  have isolated (t : State) : (if t.uCount = 0 then turnIsolated true t else .of t).st.peers.slots = t.peers.slots := by
    split
    · unfold turnIsolated
      rw [Out.andThen_st, (isolationTurned_frame true _).peers (by decide)]
      rfl
    · rfl
  have composed (t : State) : (composeReach (composeLink (composeHello t))).peers = t.peers :=
    ((composeReach_frame _).peers (by decide)).trans (((composeLink_frame _).peers (by decide)).trans
      ((composeHello_frame t).peers (by decide)))
  rw [Out.also_st, composed, Out.andThen_st, isolated, started, opened]

theorem enterFailsafe_slots (reason : Nat) (img : List Byte) (s : State) :
    (enterFailsafe reason img s).peers.slots = s.peers.slots := by
  have collectors (t : State) : (salvageCollectors img t).peers.slots = t.peers.slots := by
    unfold salvageCollectors
    split
    · rfl
    · exact eachState_slots fillCollector_slots _ t
  unfold enterFailsafe
  rw [(composeHello_frame _).peers (by decide)]
  exact collectors _

/-- The end of LOADING, in which there is no peer. -/
theorem completeLoad (img : List Byte) (s : State) : KeepsView s (completeLoad img s).st := by
  unfold Machine.completeLoad
  split
  · next loading =>
    rintro ⟨-, empty⟩
    have slots : (endLoading img s).st.peers.slots = s.peers.slots := by
      unfold endLoading
      split
      · exact enterFailsafe_slots _ img s
      · exact (enterJoining_slots _).trans (fillTables_slots img s)
    refine of_empty (s := s) (fun n => ?_) ⟨fun n x _ hx _ => ?_, empty⟩
    · rw [State.slot, slots]
      exact empty loading n
    · rw [empty loading n] at hx
      cases hx
  · exact refl s

theorem setInteg (i : CfgItem) (v : Integrity) (s : State) : KeepsView s (setInteg i v s) :=
  of_frame (setInteg_frame i v s) (by decide)

theorem leaveRefetch (s : State) : KeepsView s (leaveRefetch s) := by
  unfold Machine.leaveRefetch
  dsimp only
  split
  · exact of_same rfl rfl id
  · next i _ =>
    exact (loader { s.loader with failures := 0, refetch := s.loader.refetch.drop 1 ++ [i] } rfl).trans (setInteg i .queued _)

theorem restoreEntry (i : CfgItem) (e : List Byte) (s : State) : KeepsView s (restoreEntry i e s) := by
  unfold Machine.restoreEntry
  split <;> exact of_same rfl rfl id

theorem reinsertRestored (i : CfgItem) (e : List Byte) (s : State) : KeepsView s (reinsertRestored i e s).st := by
  unfold Machine.reinsertRestored
  split
  · exact also (of_refetchOnly (testBucket_frame _ s) (testBucket_refetchOnly _ s) (by decide)) fun t =>
      of_frame (reinsertFixed_frame _ _ t) (by decide)
  · exact refl s

theorem completeRead (e : List Byte) (s : State) : KeepsView s (completeRead e s).st := by
  unfold Machine.completeRead
  split
  · exact refl s
  · split
    · unfold endRead
      split
      · exact ((restoreEntry _ e s).trans (leaveRefetch _)).trans (reinsertRestored _ e _)
      · split
        · exact of_same rfl rfl id
        · exact (loader { s.loader with refetchFailed := satInc s.loader.refetchFailed } rfl).trans
            ((setInteg _ .failed _).trans (leaveRefetch _))
    · exact refl s

/-! ## The group line -/

theorem offerMessage (s : State) : KeepsView s (offerMessage s) := by
  unfold Machine.offerMessage
  split
  · split
    · exact line _ s
    · exact refl s
  · exact refl s

theorem returnMessage (m : TxMsg) (s : State) : KeepsView s (returnMessage m s) := by
  unfold Machine.returnMessage
  split
  · exact refl s
  · exact line _ s

theorem channelFreed (c : Fin 2) (f : Channel → Channel) (s : State) :
    KeepsView s (channelFreed c (setChan c f s)).st :=
  trans (of_frame (setChan_frame c f s) (by decide))
    (of_refetchOnly (channelFreed_frame c _) (channelFreed_refetchOnly c _) (by decide))

theorem slotFreed (m : TxMsg) (s : State) : KeepsView s (slotFreed m s) := by
  unfold Machine.slotFreed
  split
  · split
    · exact of_empty (slot_of_reset rfl)
    · exact refl s
  · exact of_frame (composeReach_frame s) (by decide)
  · exact of_frame (endGone_frame _ s) (by decide)
  · exact refl s

theorem outcomes (m : TxMsg) (s : State) : KeepsView s (withdrawnOutcome m s).st ∧ KeepsView s (completedOutcome m s).st
    ∧ KeepsView s (discardedOutcome m s).st := by
  refine ⟨?_, ?_, ?_⟩
  · unfold withdrawnOutcome
    split
    · exact channelFreed _ _ s
    · exact refl s
  · unfold completedOutcome
    split
    · exact channelFreed _ _ s
    · exact slotFreed m s
  · unfold discardedOutcome
    split
    · exact channelFreed _ _ s
    · exact slotFreed m s

theorem loseArbitration (s : State) : KeepsView s (loseArbitration s).st := by
  unfold Machine.loseArbitration
  split
  · exact refl s
  · split
    · exact (line _ s).trans (outcomes _ _).1
    · exact (line _ s).trans (returnMessage _ _)

theorem completeMessage (s : State) : KeepsView s (completeMessage s).st := by
  unfold Machine.completeMessage
  split
  · exact refl s
  · exact (line _ s).trans (outcomes _ _).2.1

theorem countDiscard (s : State) : KeepsView s (countDiscard s) := by
  unfold Machine.countDiscard enterQuiet
  split <;> exact of_same rfl rfl id

theorem transmitErrorAt (s : State) : KeepsView s (transmitErrorAt s).st := by
  unfold Machine.transmitErrorAt
  split
  · exact refl s
  · next m _ =>
    have counted : KeepsView s (clearLine { s with line := { s.line with txError := satInc s.line.txError } }) := line _ s
    dsimp only
    split
    · exact counted.trans (outcomes m _).1
    · split
      · exact counted
      · split
        · exact counted.trans (returnMessage _ _)
        · exact (counted.trans (countDiscard _)).trans (outcomes m _).2.2

theorem endQuiet (s : State) : KeepsView s (endQuiet s) := by
  unfold Machine.endQuiet
  split
  · exact refl s
  · exact (timed _ s).trans (line _ _)

theorem conflictChannels (s : State) : KeepsView s (Machine.conflictChannels s) :=
  (of_frame (Frame.eachState conflictChannel_frame bothChans s) (by decide)).trans (of_same rfl rfl id)

theorem ownHello (s : State) : KeepsView s (ownHello s).st := by
  unfold Machine.ownHello
  split
  · exact refl s
  · unfold enterConflict
    have silenced : KeepsView s (composeHello (Machine.conflictChannels { s with line := s.line.silence })) :=
      ((line s.line.silence s).trans (conflictChannels { s with line := s.line.silence })).trans
        (of_frame (composeHello_frame (Machine.conflictChannels { s with line := s.line.silence })) (by decide))
    have retired (x : XIndex) (t : State) : KeepsView t (retireX x t) :=
      trans (of_frame (flushPort_frame (xPort x) t) (by decide)) (port (xPort x) clearFar _)
    generalize composeHello (Machine.conflictChannels { s with line := s.line.silence }) = t at silenced ⊢
    exact ((silenced.trans (eachOut freeSlotNow allSlots t)).also fun u => eachState retired allX u).andThen fun u =>
      of_frame (dropLostDiversion_frame u) (by decide)

/-! ## Orders -/

theorem produce (b : Bool) (c : Fin 2) (f : Channel → Channel) (s : State) :
    KeepsView s (produce b c (setChan c f s)).st :=
  trans (of_frame (setChan_frame c f s) (by decide))
    (of_refetchOnly (produce_frame b c _) (produce_refetchOnly b c _) (by decide))

theorem orderStart (ps : List Byte) (s : State) : KeepsView s (orderStart ps s).2.st := by
  unfold Machine.orderStart
  split
  · unfold startOn
    split
    · exact refl s
    · split
      · exact refl s
      · split
        · exact refl s
        · exact produce _ _ _ s
  · exact refl s

theorem orderHalt (ps : List Byte) (s : State) : KeepsView s (orderHalt ps s).2.st := by
  unfold Machine.orderHalt
  split
  · exact refl s
  · next c _ =>
    split
    · exact refl s
    · split
      · exact refl s
      · exact of_frame (haltChannel_frame c s) (by decide)

theorem orderHold (ps : List Byte) (s : State) : KeepsView s (orderHold ps s).2.st := by
  unfold Machine.orderHold
  split
  · exact refl s
  · next c _ =>
    split
    · exact of_frame (holdChannel_frame c s) (by decide)
    · exact refl s

theorem orderResume (ps : List Byte) (s : State) : KeepsView s (orderResume ps s).2.st := by
  unfold Machine.orderResume
  split
  · exact refl s
  · split
    · exact refl s
    · split
      · exact refl s
      · exact produce _ _ _ s

theorem orderDiscard (ps : List Byte) (s : State) : KeepsView s (orderDiscard ps s).2.st := by
  unfold Machine.orderDiscard
  split
  · exact refl s
  · unfold discardOf
    split
    · exact refl s
    · exact of_refetchOnly (removeInterval_frame _ s) (removeInterval_refetchOnly _ s) (by decide)

theorem orderStatus (ps : List Byte) (s : State) : KeepsView s (orderStatus ps s).2.st := by
  unfold Machine.orderStatus
  split
  · exact refl s
  · dsimp only
    split
    · unfold statusStation; split <;> exact refl s
    · unfold statusPort
      split
      · split <;> exact refl s
      · exact refl s
    · unfold statusPeers; split <;> exact refl s
    · unfold statusTenant
      split
      · exact refl s
      · exact of_refetchOnly (Frame.eachOut testAcc_frame _ s) (.eachOut testAcc_refetchOnly _ s) (by decide)
      · exact refl s
    · unfold statusIntervals; split <;> exact refl s
    · exact refl s

theorem orderRule (kind : Byte) (ps : List Byte) (s : State) : KeepsView s (orderRule kind ps s).2.st := by
  unfold Machine.orderRule
  generalize kind.toNat = k
  split
  · exact orderStart ps s
  · exact orderHalt ps s
  · exact orderHold ps s
  · exact orderResume ps s
  · exact orderDiscard ps s
  · exact boundary s
  · exact orderStatus ps s
  · exact of_same rfl rfl id
  · exact refl s

theorem takeOrder (src dst : Station) (kind : Byte) (tag : BitVec 16) {f : State → Verdict × Out} {s : State}
    (h : KeepsView s (f s).2.st) : KeepsView s (takeOrder src dst kind tag f s).st := by
  have judged : KeepsView s (judgeOrder kind f s).2.st := by
    unfold judgeOrder
    split
    · exact refl s
    · split
      · exact refl s
      · exact h
  unfold Machine.takeOrder
  split
  · exact of_same rfl rfl id
  · split
    · exact refl s
    · split
      · exact of_same rfl rfl id
      · exact judged.also fun t => line _ t

theorem takeOrderPayload (src dst : Station) (l : List Byte) (s : State) :
    KeepsView s (takeOrderPayload src dst l s).st := by
  refine takeOrder _ _ _ _ ?_
  split
  · exact refl s
  · exact orderRule _ _ s

/-! ## Reception -/

theorem withPayload {α : Type} (r : Option α) {f : α → State → Out} (h : ∀ x t, KeepsView t (f x t).st) (s : State) :
    KeepsView s (withPayload r f s).st := by
  unfold Machine.withPayload
  split
  · exact line _ s
  · exact h _ s

theorem receive (cls : Nat) (src dst : Station) (payload : List Byte) {f : State → Out} (h : ∀ t, KeepsView t (f t).st)
    (s : State) : KeepsView s (receive cls src dst payload f s).st := by
  have heard := refreshHeard src s
  unfold Machine.receive
  split
  · exact refl s
  · split
    · exact line _ s
    · split
      · unfold ownNumber
        split
        · exact ownHello s
        · exact line _ s
      · split
        · exact heard.trans (h _)
        · exact heard

theorem takeReach (src : Station) (r : ReachRx) (s : State) : KeepsView s (takeReach src r s).st :=
  of_refetchOnly (takeReach_frame src r s) (takeReach_refetchOnly src r s) (by decide)

theorem dispatch (cls : Nat) (src dst : Station) (payload : List Byte) (s : State) :
    KeepsView s (dispatch cls src dst payload s).st := by
  unfold Machine.dispatch
  split
  · exact withPayload _ (takeLink src) s
  · exact withPayload _ (takeHello src) s
  · exact takeOrderPayload src dst payload s
  · exact withPayload _ (fun r t => takeLoad src r t) s
  · exact withPayload _ (takeReach src) s
  · exact refl s

theorem receiveOctets (m : List Byte) (ranOn own : Bool) (s : State) : KeepsView s (receiveOctets m ranOn own s).st := by
  unfold Machine.receiveOctets
  split
  · exact refl s
  · split
    · exact line _ s
    · split
      · exact refl s
      · exact receive _ _ _ _ (dispatch _ _ _ _) s

theorem receiveOrder (kind : Byte) (src dst : Station) (tag : BitVec 16) (ps : List Byte) (s : State) :
    KeepsView s (receiveOrder kind src dst tag ps s).st :=
  receive _ _ _ _ (fun t => takeOrder _ _ _ _ (orderRule kind ps t)) s

/-! ## Commands and steps -/

theorem done {s t : State} {o : Out} (e : done o = .next t) (h : KeepsView s o.st) : KeepsView s t := by
  cases e
  exact h.trans (of_refetchOnly (conclude_frame o) (conclude_refetchOnly o) (by decide))

theorem exec {i : Instr} {s t : State} (h : exec i s = .next t) : KeepsView s t := by
  cases i with
  | frameReceived p o => exact done h (takeFrame p o s)
  | transmissionEnd p => exact done h (of_frame (endTransmission_frame p s) (by decide))
  | carrierUp p => exact done h (takeCarrierUp p s)
  | carrierDown p => exact done h (takeCarrierDown p s)
  | holdExpiry p => exact done h (expireHold p s)
  | decayExpiry p => exact done h (of_frame (expireDecay_frame p s) (by decide))
  | oneSecondEvent => exact done h (takeSecond s)
  | agingVisit => exact done h (of_refetchOnly (visitAging_frame s) (visitAging_refetchOnly s) (by decide))
  | sample => exact done h (takeSample s)
  | loadDue => exact done h (takeLoadDue s)
  | helloDue => exact done h (takeHelloDue s)
  | refreshEnd => exact done h (takeRefreshEnd s)
  | sweepVisit => exact done h (of_refetchOnly (visitSweep_frame s) (visitSweep_refetchOnly s) (by decide))
  | intervalEnd => exact done h (takeIntervalEnd s)
  | shareWindow => exact done h (takeShareWindow s)
  | lapseExpiry x => exact done h (expireLapse x s)
  | silenceExpiry n => exact done h (expireSilence n s)
  | joinExpiry n => exact done h (expireJoin n s)
  | lingerExpiry n => exact done h (expireLinger n s)
  | loadFreshnessExpiry n => exact done h (expireFreshness n s)
  | lineQuietEnd => exact done h (endQuiet s)
  | messageOffered => exact done h (offerMessage s)
  | arbitrationLost => exact done h (loseArbitration s)
  | transmitError => exact done h (transmitErrorAt s)
  | messageCompleted => exact done h (completeMessage s)
  | messageDiscardedRx m r o => exact done h (receiveOctets m r o s)
  | helloReceived a b p => exact done h (receive _ _ _ _ (withPayload _ (takeHello a)) s)
  | linkReceived a b p => exact done h (receive _ _ _ _ (withPayload _ (takeLink a)) s)
  | loadReceived a b p => exact done h (receive _ _ _ _ (withPayload _ fun r t => takeLoad a r t) s)
  | reachReceived a b p => exact done h (receive _ _ _ _ (withPayload _ (takeReach a)) s)
  | startExport a b g p => exact done h (receiveOrder 1 a b g p s)
  | haltExport a b g p => exact done h (receiveOrder 2 a b g p s)
  | holdExport a b g p => exact done h (receiveOrder 3 a b g p s)
  | resumeExport a b g p => exact done h (receiveOrder 4 a b g p s)
  | discardInterval a b g p => exact done h (receiveOrder 5 a b g p s)
  | closeInterval a b g p => exact done h (receiveOrder 6 a b g p s)
  | status a b g p => exact done h (receiveOrder 7 a b g p s)
  | restart a b g p => exact done h (receiveOrder 8 a b g p s)
  | unknownOrder a b p => exact done h (receive _ _ _ _ (takeOrderPayload a b p) s)
  | refetchReadComplete o => exact done h (completeRead o s)
  | fullReset v =>
    cases h
    exact of_empty (slot_of_reset rfl)
  | imageLoadComplete img => exact done h (completeLoad img s)
  | messageNotHandedOn c a b => exact done h (receive _ _ _ _ refl s)

theorem step {s t : State} (h : step s = .next t) : KeepsView s t := by
  cases hp : s.pending with
  | nil =>
    rw [step_of_empty hp] at h
    unfold idle at h
    split at h
    · exact exec h
    · cases h
      exact of_same rfl rfl id
  | cons c rest =>
    rw [step_of_pending hp] at h
    exact trans (of_same rfl rfl id : KeepsView s { s with pending := rest }) (exec h)

end KeepsView

/-! ## The statement -/

theorem slotTimers_off (s : State) (n : SlotNo) :
    (s.slot n = none → exec (.silenceExpiry n) s = .next s ∧ exec (.joinExpiry n) s = .next s
        ∧ exec (.lingerExpiry n) s = .next s ∧ exec (.loadFreshnessExpiry n) s = .next s)
      ∧ ∀ x, s.slot n = some x →
        (x.silenceExpiry = none → exec (.silenceExpiry n) s = .next s)
        ∧ (x.joinExpiry = none → exec (.joinExpiry n) s = .next s)
        ∧ (x.lingerExpiry = none → exec (.lingerExpiry n) s = .next s)
        ∧ (x.freshExpiry = none → exec (.loadFreshnessExpiry n) s = .next s) := by
  have silence (h : expireSilence n s = .of s) : exec (.silenceExpiry n) s = .next s := (congrArg done h).trans (done_of s)
  have join (h : expireJoin n s = .of s) : exec (.joinExpiry n) s = .next s := (congrArg done h).trans (done_of s)
  have linger (h : expireLinger n s = .of s) : exec (.lingerExpiry n) s = .next s := (congrArg done h).trans (done_of s)
  have fresh (h : (s.slot n).bind (·.freshExpiry) = none) : exec (.loadFreshnessExpiry n) s = .next s := by
    have still : expireFreshness n s = s := by unfold expireFreshness; rw [h]
    exact (congrArg (fun t => done (.of t)) still).trans (done_of s)
  refine ⟨fun none => ⟨silence ?_, join ?_, linger ?_, fresh ?_⟩, fun x hx => ⟨fun off => silence ?_, fun off => join ?_,
    fun off => linger ?_, fun off => fresh ?_⟩⟩
  · unfold expireSilence; rw [none]
  · unfold expireJoin; rw [none]
  · unfold expireLinger; rw [none]
  · rw [none]; rfl
  · unfold expireSilence; rw [hx]; dsimp only; rw [off]
  · unfold expireJoin; rw [hx]; dsimp only; rw [off]
  · unfold expireLinger; rw [hx]; dsimp only; rw [off]
  · rw [hx]; exact off

/-- Settles O30: the expiries of a slot's timers, the freshness of its index, its law over every step, and the relay choice. -/
theorem slotTimersAndRelays : Obligations.SlotTimersAndRelays := by
  unfold Obligations.SlotTimersAndRelays
  refine ⟨fun s n => ⟨(slotTimers_off s n).1, fun x hx => ?_⟩, fun s x => ⟨fun absent => ?_, fun v at_ index => ?_⟩,
    fun s t law stepped => KeepsView.step stepped law, fun s x => ?_⟩
  · obtain ⟨silence, join, linger, fresh⟩ := (slotTimers_off s n).2 x hx
    obtain ⟨lost, severed, freed⟩ := slotTimers hx
    exact ⟨silence, join, linger, fresh, lost, severed, fun u due other => exec_joinExpiry_other hx due other, freed,
      fun u due => exec_freshnessExpiry_due hx due⟩
  · rw [freshness_eq, if_pos absent]
  · have present : x.uplink ≠ none := by rw [index]; exact Option.some_ne_none _
    refine ⟨fun expired => ?_, fun expiry short recent => ?_⟩
    · have stale : s.isFresh x = false := by unfold State.isFresh; rw [expired]; rfl
      rw [freshness_eq, if_neg present, stale]
      rfl
    · rw [freshness_eq, if_neg present, isFresh_within expiry (by omega) recent]
      simp only [decide_eq_true_eq]
  · intro reaching
    refine ⟨fun other => if_neg other, fun severed => ⟨fun none => ?_, fun q reach lowest => ?_⟩⟩
    · rw [relayOf_severed severed]
      refine List.find?_eq_none.2 fun q hq relays => ?_
      exact none q ⟨mem_allStations.1 hq, mayRelay_iff.1 relays⟩
    · obtain ⟨known, reach⟩ := reach
      rw [relayOf_severed severed]
      exact find?_allStations known (mayRelay_iff.2 reach) fun r hr relays => lowest r ⟨hr, mayRelay_iff.1 relays⟩

end Sys2Proof.Machine
end


section
/-! A HELLO of another station at the peer table (O31). -/

namespace Sys2Proof.Machine

theorem readHello_length {l : List Byte} {h : HelloRx} (read : readHello l = some h) : l.length ≤ 120 := by
  unfold readHello at read
  split at read
  · next form => omega
  · cases read

/-- A change of one slot with what follows from it. -/
structure SlotChanged (s u : State) (n : SlotNo) (y : PeerSlot) (o : Out) : Prop where
  kept : o.st.peersKept
  slot : o.st.slot n = some (o.st.followed y)
  gen : o.st.peers.genCounter = u.peers.genCounter
  directX : o.st.directX = s.directX
  time : o.st.time = u.time
  params : o.st.params = u.params

theorem withView_slotChanged {f : State → Out} {s u : State} {evs : List Event} {n : SlotNo} {y : PeerSlot}
    (hf : f s = ⟨u, evs⟩) (slot : u.slot n = some y) (direct : u.directX = s.directX) :
    SlotChanged s u n y (withView f s) ∧ ∀ e ∈ evs, e ∈ (withView f s).evs := by
  have follows := settleView_follows s u
  have st : (withView f s).st = (settleView s u).st := by rw [withView_of hf]
  refine ⟨⟨?_, ?_, ?_, ?_, ?_, ?_⟩, fun e he => ?_⟩
  · rw [st]
    exact follows.peersKept
  · rw [st]
    exact follows.slot slot
  · rw [st, follows.peers]
  · rw [st, follows.directX, direct]
  · rw [st, follows.frame.time (by decide)]
  · rw [st, follows.frame.params (by decide)]
  · rw [withView_of hf]
    exact List.mem_append_left _ he

theorem directX_setSlot (n : SlotNo) (x : Option PeerSlot) (s : State) : (setSlot n x s).directX = s.directX := rfl

theorem directX_nextGen (s : State) : (nextGen s).directX = s.directX := rfl

/-- A LOST slot with what follows. -/
theorem withView_slotToLost {s : State} {n : SlotNo} {x : PeerSlot} (hx : s.slot n = some x) {o : Out}
    (ho : o = withView (slotToLost n x) s) :
    o.st.peersKept ∧ o.st.peers.genCounter = s.peers.genCounter ∧ o.st.directX = s.directX ∧ o.st.time = s.time
      ∧ o.st.params = s.params ∧ (⟨.peerLost, some x.station.toNat⟩ : Event) ∈ o.evs
      ∧ o.st.slot n = some { x with
          state := .lost, joinExpiry := none, silenceExpiry := none, relay := none
          lingerExpiry := some (s.after (3 * (s.params.refreshPeriod * 1000000))) } := by
  subst ho
  let y : PeerSlot := { x with
    state := .lost, joinExpiry := none, silenceExpiry := none
    lingerExpiry := some (s.after (3 * (s.params.refreshPeriod * 1000000))) }
  have lost : slotToLost n x s = ⟨setSlot n (some y) s, [⟨.peerLost, some x.station.toNat⟩]⟩ := changeSlot_of_slot hx _ _ _
  obtain ⟨changed, raised⟩ := withView_slotChanged lost (slot_setSlot n _ s) (directX_setSlot n _ s)
  exact ⟨changed.kept, changed.gen, changed.directX, changed.time, changed.params, raised _ List.mem_cons_self,
    changed.slot.trans (congrArg some (followed_of_lost rfl))⟩

theorem followed_of_joining_direct {t : State} {x : PeerSlot} (h : x.state = .joining)
    (direct : (t.directX x.station).isSome = true) :
    t.followed x = { x with state := .active, joinExpiry := none, relay := none } := by
  have follow : t.follow x = { x with state := .active, joinExpiry := none } := by
    unfold State.follow
    rw [h, if_neg (by decide), if_pos direct, if_neg (by decide)]
  rw [followed_eq, follow]
  rfl

theorem followed_of_joining_off {t : State} {x : PeerSlot} (h : x.state = .joining)
    (off : ¬ (t.directX x.station).isSome = true) : t.followed x = { x with relay := none } := by
  have follow : t.follow x = x := by
    unfold State.follow
    rw [h, if_neg (by decide), if_neg off, if_neg (by decide)]
  have none : t.relayOf x = none := if_neg (by rw [h]; decide)
  rw [followed_eq, follow, none]

/-- A slot that enters JOINING follows its direct X-port at once. -/
theorem followed_joinSlot {s t : State} {x : PeerSlot} {running : Bool} (fresh : x.collision = false)
    (heard : x.lastHeard = s.time.now) (direct : t.directX = s.directX) :
    t.followed (joinSlot (nextGen s) (nextGen s).peers.genCounter running x) = s.slotAnew x.station x.serial running := by
  have same : { s.slotAnew x.station x.serial running with collision := x.collision, lastHeard := x.lastHeard } =
      s.slotAnew x.station x.serial running := by
    rw [fresh, heard]
    rfl
  rw [← same]
  unfold State.slotAnew
  by_cases on : (s.directX x.station).isSome = true
  · rw [followed_of_joining_direct rfl (by rw [direct]; exact on), if_pos on, if_pos on]
    rfl
  · rw [followed_of_joining_off rfl (by rw [direct]; exact on), if_neg on, if_neg on]
    rfl

theorem withView_slotReturns {s : State} {n : SlotNo} {x : PeerSlot} (hx : s.slot n = some x) {running : Bool}
    (fresh : x.collision = false) (heard : x.lastHeard = s.time.now) {o : Out}
    (ho : o = withView (slotReturns n running) s) :
    o.st.peersKept ∧ o.st.peers.genCounter = s.peers.genCounter + 1
      ∧ o.st.slot n = some (s.slotAnew x.station x.serial running) := by
  subst ho
  let y : PeerSlot := joinSlot (nextGen s) (nextGen s).peers.genCounter running x
  have back : slotReturns n running s = ⟨setSlot n (some y) (nextGen s), []⟩ :=
    congrArg Out.of (modifySlot_of_slot (s := nextGen s) hx _)
  obtain ⟨changed, -⟩ := withView_slotChanged back (slot_setSlot n _ _)
    ((directX_setSlot n _ _).trans (directX_nextGen s))
  exact ⟨changed.kept, changed.gen, changed.slot.trans (congrArg some (followed_joinSlot fresh heard changed.directX))⟩

/-! ## A station without a slot -/

theorem freePeerSlot_none {s : State} (full : ∀ n, (s.slot n).isSome = true) : s.freePeerSlot = none :=
  List.find?_eq_none.2 fun n _ free => by
    rw [Option.isNone_iff_eq_none] at free
    have := full n
    rw [free] at this
    cases this

theorem freePeerSlot_lowest {s : State} {n : SlotNo} (free : s.slot n = none) (lowest : ∀ m, m < n → (s.slot m).isSome = true) :
    s.freePeerSlot = some n := by
  cases found : s.freePeerSlot with
  | none => exact absurd (Option.isNone_iff_eq_none.2 free) (List.find?_eq_none.1 found n (mem_allSlots n))
  | some m =>
    obtain ⟨empty, before, after, split, taken⟩ := List.find?_eq_some_iff_append.1 found
    rcases lt_trichotomy m n with lt | rfl | lt
    · have := lowest m lt
      rw [Option.isNone_iff_eq_none.1 empty] at this
      cases this
    · rfl
    · have here : n ∈ before ++ m :: after := split ▸ mem_allSlots n
      have sorted : (before ++ m :: after).Pairwise (· < ·) := split ▸ (by decide : allSlots.Pairwise (· < ·))
      rcases List.mem_append.1 here with mem | mem
      · have := taken n mem
        rw [free] at this
        exact absurd this (by decide)
      · rcases List.mem_cons.1 mem with rfl | mem
        · rfl
        · have := (List.pairwise_cons.1 (List.pairwise_append.1 sorted).2.1).1 n mem
          exact absurd (lt.trans this) (lt_irrefl _)

theorem helloNew_not {src : Station} {h : HelloRx} (passes : h.switch = false ∨ h.withdrawing = true) (s : State) :
    helloNew src h s = .of s := by
  refine if_neg fun k => ?_
  rw [Bool.and_eq_true, Bool.not_eq_true'] at k
  rcases passes with p | p
  · rw [p] at k
    cases k.1
  · rw [p] at k
    cases k.2

theorem helloNew_full {src : Station} {h : HelloRx} {s : State} (switch : h.switch = true) (stays : h.withdrawing = false)
    (full : s.freePeerSlot = none) :
    helloNew src h s = .of { s with peers := { s.peers with tableFull := satInc s.peers.tableFull } } := by
  unfold helloNew
  rw [switch, stays, if_pos (by decide), full]

theorem helloNew_free {src : Station} {h : HelloRx} {s : State} {n : SlotNo} (switch : h.switch = true)
    (stays : h.withdrawing = false) (free : s.freePeerSlot = some n) :
    helloNew src h s =
      withView (fun s1 => .of (setSlot n (some (newSlot src h (nextGen s1))) (nextGen s1))) s := by
  unfold helloNew
  rw [switch, stays, if_pos (by decide), free]

/-! ## A station with a slot -/

section

variable {n : SlotNo} {x : PeerSlot} {h : HelloRx} {s : State}

theorem helloKnown_passed (passes : x.collision = true ∨ (x.state = .lost ∧ (h.serial ≠ x.serial ∨ h.withdrawing = true))) :
    helloKnown n x h s = .of s := by
  unfold helloKnown
  by_cases clash : x.collision = true
  · exact if_pos clash
  · obtain ⟨lost, other⟩ := passes.resolve_left clash
    rw [if_neg clash, if_pos lost]
    refine if_neg ?_
    rintro ⟨same, stays⟩
    rcases other with other | other
    · exact other same
    · rw [stays] at other
      cases other

theorem helloKnown_held (fresh : x.collision = false) (live : x.state ≠ .lost) (same : h.serial = x.serial)
    (stays : h.withdrawing = false) (on : h.phase ≠ .joining ∨ x.seenRunning = false) :
    helloKnown n x h s = .of (helloHeld n (h.phase == .running) s) := by
  have notRestarted : ¬ (h.phase = .joining ∧ x.seenRunning = true) := by
    rintro ⟨joining, seen⟩
    rcases on with on | on
    · exact on joining
    · rw [seen] at on
      cases on
  unfold helloKnown
  rw [if_neg (by rw [fresh]; decide), if_neg live, if_neg (not_not.2 same), if_neg (by rw [stays]; decide), if_neg notRestarted]

theorem helloKnown_other (fresh : x.collision = false) (live : x.state ≠ .lost) (other : h.serial ≠ x.serial) :
    helloKnown n x h s =
      withView (fun s1 => slotToLost n x (modifySlot n (fun y => { y with collision := true }) s1)) s := by
  unfold helloKnown
  rw [if_neg (by rw [fresh]; decide), if_neg live, if_pos other]

theorem helloKnown_withdrawing (fresh : x.collision = false) (live : x.state ≠ .lost) (same : h.serial = x.serial)
    (leaves : h.withdrawing = true) : helloKnown n x h s = withView (slotToLost n x) s := by
  unfold helloKnown
  rw [if_neg (by rw [fresh]; decide), if_neg live, if_neg (not_not.2 same), if_pos leaves]

theorem helloKnown_back (fresh : x.collision = false) (lost : x.state = .lost) (same : h.serial = x.serial)
    (stays : h.withdrawing = false) : helloKnown n x h s = withView (slotReturns n (h.phase == .running)) s := by
  unfold helloKnown
  rw [if_neg (by rw [fresh]; decide), if_pos lost, if_pos ⟨same, stays⟩]

theorem helloKnown_restarted (fresh : x.collision = false) (live : x.state ≠ .lost) (same : h.serial = x.serial)
    (stays : h.withdrawing = false) (joining : h.phase = .joining) (seen : x.seenRunning = true) :
    helloKnown n x h s = (withView (slotToLost n x) s).andThen (withView (slotReturns n false)) := by
  unfold helloKnown
  rw [if_neg (by rw [fresh]; decide), if_neg live, if_neg (not_not.2 same), if_neg (by rw [stays]; decide), if_pos ⟨joining, seen⟩]

end

theorem mayNotify_refreshHeard (src : Station) (s : State) : (refreshHeard src s).mayNotify = s.mayNotify := by
  unfold State.mayNotify State.acting
  rw [(refreshHeard_frame src s).loader (by decide), (refreshHeard_frame src s).line (by decide)]

theorem takeHello_known {src : Station} {h : HelloRx} {s : State} {n : SlotNo} {x : PeerSlot} (notify : s.mayNotify = true)
    (slot : s.slotOf src = some n) (hx : s.slot n = some x) : takeHello src h s = helloKnown n x h s := by
  unfold takeHello
  rw [if_pos notify, slot]
  dsimp only
  rw [hx]

theorem takeHello_new {src : Station} {h : HelloRx} {s : State} (notify : s.mayNotify = true) (slot : s.slotOf src = none) :
    takeHello src h s = helloNew src h s := by
  unfold takeHello
  rw [if_pos notify, slot]

/-! ## The statement -/

theorem slotAnew_setSlot (n : SlotNo) (y : Option PeerSlot) (s : State) (src : Station) (serial : Serial) (running : Bool) :
    (setSlot n y s).slotAnew src serial running = s.slotAnew src serial running := rfl

theorem slotAnew_congr {s t : State} (direct : t.directX = s.directX) (gen : t.peers.genCounter = s.peers.genCounter)
    (time : t.time = s.time) (params : t.params = s.params) (src : Station) (serial : Serial) (running : Bool) :
    t.slotAnew src serial running = s.slotAnew src serial running := by
  unfold State.slotAnew State.after State.hello
  rw [direct, gen, time, params]

/-- A known station's HELLO that changes its slot, from the state in which the source was heard. -/
theorem helloKnown_changes {s : State} {n : SlotNo} {y : PeerSlot} {h : HelloRx} (hy : s.slot n = some y)
    (heard : y.lastHeard = s.time.now) (fresh : y.collision = false) :
    (y.state ≠ .lost → (h.serial ≠ y.serial ∨ h.withdrawing = true) →
        let o := helloKnown n y h s
        o.st.peersKept ∧ (⟨.peerLost, some y.station.toNat⟩ : Event) ∈ o.evs
          ∧ o.st.peers.genCounter = s.peers.genCounter
          ∧ o.st.slot n = some { y with
              state := .lost, collision := decide (h.serial ≠ y.serial)
              joinExpiry := none, silenceExpiry := none, relay := none
              lingerExpiry := some (s.after (3 * (s.params.refreshPeriod * 1000000))) })
      ∧ (h.serial = y.serial → h.withdrawing = false → (y.state = .lost ∨ (h.phase = .joining ∧ y.seenRunning = true)) →
        let o := helloKnown n y h s
        o.st.peersKept ∧ (y.state ≠ .lost → (⟨.peerLost, some y.station.toNat⟩ : Event) ∈ o.evs)
          ∧ o.st.peers.genCounter = s.peers.genCounter + 1
          ∧ o.st.slot n = some (s.slotAnew y.station y.serial (h.phase == .running))) := by
  refine ⟨fun live leaves => ?_, fun same stays back => ?_⟩
  · by_cases other : h.serial = y.serial
    · rw [helloKnown_withdrawing fresh live other (leaves.resolve_left (not_not.2 other)),
        show decide (h.serial ≠ y.serial) = y.collision by rw [fresh]; exact decide_eq_false (not_not.2 other)]
      obtain ⟨kept, gen, -, -, -, raised, slot⟩ := withView_slotToLost hy rfl
      exact ⟨kept, raised, gen, slot⟩
    · rw [helloKnown_other fresh live other,
        show decide (h.serial ≠ y.serial) = true from decide_eq_true other]
      let z : PeerSlot := { y with
        state := .lost, collision := true, joinExpiry := none, silenceExpiry := none
        lingerExpiry := some (s.after (3 * (s.params.refreshPeriod * 1000000))) }
      have lost : slotToLost n y (modifySlot n (fun y => { y with collision := true }) s) =
          ⟨setSlot n (some z) s, [⟨.peerLost, some y.station.toNat⟩]⟩ := by
        rw [modifySlot_of_slot hy]
        exact (changeSlot_of_slot (slot_setSlot n _ s) _ _ _).trans (by rw [setSlot_setSlot]; rfl)
      obtain ⟨changed, raised⟩ := withView_slotChanged
        (f := fun s1 => slotToLost n y (modifySlot n (fun y => { y with collision := true }) s1)) lost
        (slot_setSlot n _ s) (directX_setSlot n _ s)
      exact ⟨changed.kept, raised _ List.mem_cons_self, changed.gen, changed.slot.trans (congrArg some (followed_of_lost rfl))⟩
  · by_cases lost : y.state = .lost
    · rw [helloKnown_back fresh lost same stays]
      obtain ⟨kept, gen, slot⟩ := withView_slotReturns hy fresh heard rfl
      exact ⟨kept, fun live => absurd lost live, gen, slot⟩
    · obtain ⟨joining, seen⟩ := back.resolve_left lost
      rw [helloKnown_restarted fresh lost same stays joining seen, joining]
      generalize first : withView (slotToLost n y) s = o
      obtain ⟨-, gen1, direct, time, params, raised, slot1⟩ := withView_slotToLost hy first.symm
      rw [Out.andThen_eq]
      generalize second : withView (slotReturns n false) o.st = o2
      obtain ⟨kept, gen, slot⟩ := withView_slotReturns (running := false) slot1 fresh (heard.trans (by rw [time])) second.symm
      refine ⟨kept, fun _ => List.mem_append_left _ raised, gen.trans (by rw [gen1]), slot.trans (congrArg some ?_)⟩
      exact slotAnew_congr direct gen1 time params _ _ _

/-- Settles O31: a HELLO that changes no slot state, one of a station without a slot, and one of a known station. -/
theorem helloMovesThePeerTable : Obligations.HelloMovesThePeerTable := by
  unfold Obligations.HelloMovesThePeerTable
  refine ⟨fun s src dst l hears length => ?_, fun s src dst l h hears notify read => ⟨fun none => ?_, fun n x slot hx => ?_⟩⟩
  · intro heard
    have isHeard : heard (refreshHeard src s) :=
      ⟨refreshHeard_frame src s, fun none => by rw [refreshHeard_of_none none], fun n x slot hx => refreshHeard_of_slot slot hx⟩
    have run : exec (.helloReceived src dst l) s = done (withPayload (readHello l) (takeHello src) (refreshHeard src s)) :=
      congrArg done (receive_of_hearsFrom hears (by decide) length _)
    refine ⟨fun bad => ⟨_, isHeard, ?_⟩, fun h read silent => ⟨_, isHeard, ?_⟩⟩
    · rw [run, bad]
      exact done_of _
    · have mute : (refreshHeard src s).mayNotify = false := by
        rw [mayNotify_refreshHeard]
        refine mayNotify_eq_false_iff.2 (silent.imp_left fun failsafe => ?_)
        unfold State.acting
        rw [failsafe]
        rfl
      have passed : takeHello src h (refreshHeard src s) = .of (refreshHeard src s) :=
        if_neg (by rw [mute]; exact Bool.false_ne_true)
      rw [run, read]
      exact (congrArg done passed).trans (done_of _)
  · have run : exec (.helloReceived src dst l) s = done (helloNew src h s) := by
      refine (congrArg done (receive_of_hearsFrom hears (by decide) (readHello_length read) _)).trans ?_
      rw [refreshHeard_of_none none, read]
      exact congrArg done (takeHello_new notify none)
    refine ⟨fun passes => ?_, fun switch stays => ⟨fun full => ?_, fun n free lowest => ?_⟩⟩
    · rw [run, helloNew_not passes, done_of]
    · rw [run, helloNew_full switch stays (freePeerSlot_none full), done_of]
    · let u := setSlot n (some (newSlot src h (nextGen s))) (nextGen s)
      have follows := settleView_follows s u
      obtain ⟨changed, -⟩ := withView_slotChanged (s := s) (u := u) (evs := [])
        (f := fun s1 => .of (setSlot n (some (newSlot src h (nextGen s1))) (nextGen s1))) rfl (slot_setSlot n _ _)
        ((directX_setSlot n _ _).trans (directX_nextGen s))
      have view := withView_of (s := s) (u := u) (evs := [])
        (f := fun s1 => .of (setSlot n (some (newSlot src h (nextGen s1))) (nextGen s1))) rfl
      have eq := helloNew_free (src := src) switch stays (freePeerSlot_lowest free lowest)
      refine ⟨helloNew src h s, run.trans (done_eq _), helloNew_frame src h s, ?_, ?_, ?_, fun direct => ?_⟩
      · rw [eq]
        exact changed.kept
      · rw [eq]
        exact changed.slot.trans (congrArg some (followed_joinSlot rfl rfl changed.directX))
      · rw [eq]
        exact changed.gen
      · rw [eq, view]
        refine List.mem_append_right _ ((follows.events _).2 (.inl ⟨n, _, slot_setSlot n _ _, ?_⟩))
        unfold State.followEvents
        rw [if_neg (show (newSlot src h (nextGen s)).state ≠ .lost from SlotState.noConfusion),
          if_pos (show (u.directX (newSlot src h (nextGen s)).station).isSome = true from direct),
          if_neg (show (newSlot src h (nextGen s)).state ≠ .active from SlotState.noConfusion)]
        exact List.mem_singleton.2 rfl
  · let s1 := setSlot n (some (s.heardSlot x)) s
    have heard : refreshHeard src s = s1 := refreshHeard_of_slot slot hx
    have slot1 : s1.slotOf src = some n := (slotOf_setSlot (y := s.heardSlot x) hx rfl src).trans slot
    have hx1 : s1.slot n = some (s.heardSlot x) := slot_setSlot n _ s
    have station : x.station = src := by
      obtain ⟨y, hy, same⟩ := slotOf_eq_some slot
      cases hx.symm.trans hy
      exact same
    have known : takeHello src h s1 = helloKnown n (s.heardSlot x) h s1 :=
      takeHello_known (by rw [← heard, mayNotify_refreshHeard]; exact notify) slot1 hx1
    have run : exec (.helloReceived src dst l) s = done (helloKnown n (s.heardSlot x) h s1) := by
      refine (congrArg done (receive_of_hearsFrom hears (by decide) (readHello_length read) _)).trans ?_
      rw [heard, read]
      exact congrArg done known
    have frame : Frame [.peers, .load, .line] s (helloKnown n (s.heardSlot x) h s1).st :=
      ((setSlot_frame n _ s).mono (by decide)).trans (helloKnown_frame n _ h s1)
    refine ⟨fun passes => ?_, fun fresh live same stays on => ?_, fun fresh live leaves => ?_, fun fresh same stays back => ?_⟩
    · rw [run, helloKnown_passed (x := s.heardSlot x) passes, done_of]
    · rw [run, helloKnown_held (x := s.heardSlot x) fresh live same stays on, done_of]
      refine congrArg _ ((modifySlot_setSlot n _ _ s).trans (congrArg (fun y => setSlot n (some y) s) ?_))
      have silence : (s.heardSlot x).silenceExpiry = some (s.after (3 * s.hello)) := if_neg live
      show ({ s.heardSlot x with silenceExpiry := some (s.after (3 * s.hello)), seenRunning := _ } : PeerSlot) = _
      rw [← silence]
      rfl
    · obtain ⟨kept, raised, gen, slot⟩ := (helloKnown_changes hx1 rfl fresh).1 live leaves
      refine ⟨_, run.trans (done_eq _), frame, kept, station ▸ raised, gen, slot⟩
    · obtain ⟨kept, raised, gen, slot⟩ := (helloKnown_changes hx1 rfl fresh).2 same stays back
      refine ⟨_, run.trans (done_eq _), frame, kept, station ▸ raised, gen, slot.trans ?_⟩
      rw [slotAnew_setSlot, ← station]
      rfl

end Sys2Proof.Machine
end


section
/-! The entry to CONFLICT (O32). -/

namespace Sys2Proof.Machine

theorem Out.mk_andThen {f : State → Out} {s t : State} {evs' : List Event} (evs : List Event) (h : f s = ⟨t, evs'⟩) :
    (⟨s, evs⟩ : Out).andThen f = ⟨t, evs ++ evs'⟩ := by
  rw [Out.andThen_eq, h]

/-! ## A flushed port unit (R70) -/

theorem port_countDrop (p : Port) (r : DropReason) (s : State) :
    (countDrop p r s).port p = { s.port p with drops := (s.port p).drops.bump r } := port_setPort p _ s

theorem port_countDrop_ne {p q : Port} (h : q ≠ p) (r : DropReason) (s : State) : (countDrop p r s).port q = s.port q :=
  port_setPort_ne h _ s

theorem port_flushCopies (p : Port) (xs : List Copy) (s : State) :
    (eachState (flushCopy p) xs s).port p = { s.port p with
        drops := { (s.port p).drops with flushed := satInc^[xs.length] (s.port p).drops.flushed } }
      ∧ ∀ q, q ≠ p → (eachState (flushCopy p) xs s).port q = s.port q := by
  induction xs generalizing s with
  | nil => exact ⟨rfl, fun _ _ => rfl⟩
  | cons x xs ih =>
    obtain ⟨here, others⟩ := ih (flushCopy p x s)
    have dropped : (flushCopy p x s).port p = { s.port p with drops := (s.port p).drops.bump .flushed } :=
      port_countDrop p .flushed s
    refine ⟨?_, fun q hq => (others q hq).trans (port_countDrop_ne hq .flushed s)⟩
    rw [eachState, here, dropped]
    rfl

theorem port_flushPort (p : Port) (s : State) :
    (flushPort p s).port p = { s.port p with
        drops := { (s.port p).drops with
          flushed := satInc^[(s.buffer.ports[p]).allCopies.length] (s.port p).drops.flushed } }
      ∧ ∀ q, q ≠ p → (flushPort p s).port q = s.port q := port_flushCopies p _ s

/-! ## The X-ports leave service (R147 case 5) -/

/-- A port unit out of service, `n` copies flushed. -/
def PortUnit.retired (n : Nat) (u : PortUnit) : PortUnit :=
  { u with
    far := none, looped := false, lapseExpiry := none
    drops := { u.drops with flushed := satInc^[n] u.drops.flushed } }

/-- The X-ports of a list left service. -/
structure XRetired (xs : List XIndex) (s t : State) : Prop where
  queues : ∀ x ∈ xs, (t.buffer.ports[xPort x]).sending = none
    ∧ ∀ c : Cls, ((t.buffer.ports[xPort x]).classes[c]) = { copies := [], occ := 0, num := 0 }
  port : ∀ x ∈ xs, t.port (xPort x) = (s.port (xPort x)).retired (s.buffer.ports[xPort x]).allCopies.length
  others : ∀ p, (∀ x ∈ xs, p ≠ xPort x) → t.port p = s.port p ∧ t.buffer.ports[p] = s.buffer.ports[p]
  free : t.buffer.free = s.buffer.free + (xs.map fun x => cellsOf (s.buffer.ports[xPort x]).allCopies).sum

theorem retireX_turn (x : XIndex) (s : State) : XRetired [x] s (retireX x s) := by
  obtain ⟨free, queues, sending, -, -, only, -⟩ := flushPort_flushed (xPort x) s
  obtain ⟨here, others⟩ := port_flushPort (xPort x) s
  have one {y : XIndex} (h : y ∈ [x]) : y = x := List.mem_singleton.1 h
  refine ⟨fun y hy => ?_, fun y hy => ?_, fun p hp => ⟨?_, ?_⟩, ?_⟩
  · rw [one hy]
    exact ⟨sending, queues⟩
  · rw [one hy]
    refine (port_setPort (xPort x) clearFar _).trans ?_
    rw [here]
    rfl
  · have other := hp x List.mem_cons_self
    exact (port_setPort_ne other clearFar _).trans (others p other)
  · exact only p (hp x List.mem_cons_self)
  · exact free.trans (by simp)

theorem XRetired.cons {x : XIndex} {xs : List XIndex} {s t u : State} (out : x ∉ xs) (h : XRetired [x] s t)
    (k : XRetired xs t u) : XRetired (x :: xs) s u := by
  have apart {y : XIndex} (hy : y ∈ xs) : xPort y ≠ xPort x := xPort_ne fun e => out (e ▸ hy)
  have keeps {y : XIndex} (hy : y ∈ xs) : t.port (xPort y) = s.port (xPort y)
      ∧ t.buffer.ports[xPort y] = s.buffer.ports[xPort y] :=
    h.others _ fun z hz => by rw [List.mem_singleton.1 hz]; exact apart hy
  have stays : u.port (xPort x) = t.port (xPort x) ∧ u.buffer.ports[xPort x] = t.buffer.ports[xPort x] :=
    k.others _ fun y hy => (apart hy).symm
  refine ⟨fun y hy => ?_, fun y hy => ?_, fun p hp => ?_, ?_⟩
  · rcases List.mem_cons.1 hy with rfl | hy
    · rw [stays.2]
      exact h.queues y List.mem_cons_self
    · exact k.queues y hy
  · rcases List.mem_cons.1 hy with rfl | hy
    · rw [stays.1]
      exact h.port y List.mem_cons_self
    · rw [k.port y hy, (keeps hy).1, (keeps hy).2]
  · obtain ⟨port, queue⟩ := k.others p fun y hy => hp y (List.mem_cons_of_mem _ hy)
    obtain ⟨port', queue'⟩ := h.others p fun y hy => hp y (List.mem_singleton.1 hy ▸ List.mem_cons_self)
    exact ⟨port.trans port', queue.trans queue'⟩
  · have same : (xs.map fun y => cellsOf (t.buffer.ports[xPort y]).allCopies) =
        xs.map fun y => cellsOf (s.buffer.ports[xPort y]).allCopies :=
      List.map_congr_left fun y hy => by rw [(keeps hy).2]
    rw [k.free, h.free, same]
    simp [Nat.add_assoc]

theorem retireX_all {xs : List XIndex} (once : xs.Nodup) (s : State) : XRetired xs s (eachState retireX xs s) := by
  induction xs generalizing s with
  | nil => exact ⟨fun _ h => (nomatch h), fun _ h => (nomatch h), fun _ _ => ⟨rfl, rfl⟩, rfl⟩
  | cons x xs ih =>
    obtain ⟨out, once⟩ := List.nodup_cons.1 once
    exact .cons out (retireX_turn x s) (ih once _)

/-! ## The slots are freed (R125) -/

theorem freeSlotNow_eq (n : SlotNo) (s : State) : (freeSlotNow n s).st = setSlot n none s
    ∧ ∀ x, s.slot n = some x → x.state ≠ .lost → (⟨.peerLost, some x.station.toNat⟩ : Event) ∈ (freeSlotNow n s).evs := by
  unfold freeSlotNow
  cases slot : s.slot n with
  | none => exact ⟨(setSlot_self slot).symm, fun _ h => (nomatch h)⟩
  | some x =>
    dsimp only
    refine ⟨by split <;> rfl, fun y hy live => ?_⟩
    cases hy
    rw [if_pos (live_iff.2 live)]
    exact List.mem_cons_self

theorem freeSlots {l : List SlotNo} (once : l.Nodup) (s : State) :
    let o := eachOut freeSlotNow l s
    o.st = { s with peers := { s.peers with slots := o.st.peers.slots } }
      ∧ (∀ n ∈ l, o.st.slot n = none) ∧ (∀ n, n ∉ l → o.st.slot n = s.slot n)
      ∧ ∀ n ∈ l, ∀ x, s.slot n = some x → x.state ≠ .lost → (⟨.peerLost, some x.station.toNat⟩ : Event) ∈ o.evs := by
  induction l generalizing s with
  | nil => exact ⟨rfl, fun _ h => (nomatch h), fun _ _ => rfl, fun _ h => (nomatch h)⟩
  | cons m l ih =>
    obtain ⟨out, once⟩ := List.nodup_cons.1 once
    obtain ⟨st, raised⟩ := freeSlotNow_eq m s
    obtain ⟨same, freed, others, events⟩ := ih once (freeSlotNow m s).st
    have here : (eachOut freeSlotNow l (freeSlotNow m s).st).st.slot m = none := by
      rw [others m out, st, slot_setSlot]
    refine ⟨?_, fun n hn => ?_, fun n hn => ?_, fun n hn x hx live => ?_⟩
    · show (eachOut freeSlotNow l (freeSlotNow m s).st).st = { s with
        peers := { s.peers with slots := (eachOut freeSlotNow l (freeSlotNow m s).st).st.peers.slots } }
      rw [st] at same ⊢
      exact same
    · rcases List.mem_cons.1 hn with rfl | hn
      · exact here
      · exact freed n hn
    · obtain ⟨other, hn⟩ := not_or.1 (mt List.mem_cons.2 hn)
      exact (others n hn).trans (by rw [st, slot_setSlot_ne other])
    · rcases List.mem_cons.1 hn with rfl | hn
      · exact List.mem_append_left _ (raised x hx live)
      · refine List.mem_append_right _ (events n hn x ?_ live)
        rw [st, slot_setSlot_ne fun e : n = m => out (e ▸ hn)]
        exact hx

/-! ## The channels (R178) -/

theorem chan_conflictChannels (s : State) (c : Fin 2) : ((conflictChannels s).chan c).pendingEnd = none
    ∧ ((conflictChannels s).chan c).state = if (s.chan c).state = .running then .held else (s.chan c).state := by
  have first (d : Fin 2) (t : State) : ((conflictChannel d t).chan d).pendingEnd = none
      ∧ ((conflictChannel d t).chan d).state = if (t.chan d).state = .running then .held else (t.chan d).state := by
    unfold conflictChannel
    rw [chan_setChan]
    refine ⟨rfl, ?_⟩
    dsimp only
    split_ifs <;> rfl
  have skip {d e : Fin 2} (h : e ≠ d) (t : State) : (conflictChannel d t).chan e = t.chan e := chan_setChan_ne h _ t
  show ((conflictChannel 1 (conflictChannel 0 s)).chan c).pendingEnd = none
    ∧ ((conflictChannel 1 (conflictChannel 0 s)).chan c).state = _
  rcases (by omega : c = 0 ∨ c = 1) with rfl | rfl
  · rw [skip (by decide)]
    exact first 0 s
  · have := first 1 (conflictChannel 0 s)
    rwa [skip (d := 0) (e := 1) (by decide)] at this

/-! ## The statement -/

/-- No slot is taken, so no diversion peer stands. -/
theorem losesDiversion_of_empty {s t : State} (empty : ∀ n, t.slot n = none) : s.losesDiversion t ↔ s.load.divPeer.isSome = true := by
  rw [Option.isSome_iff_exists]
  constructor
  · rintro ⟨st, peer, -⟩
    exact ⟨st, peer⟩
  · rintro ⟨st, peer⟩
    refine ⟨st, peer, ?_⟩
    rintro ⟨x, -, hx, -⟩
    obtain ⟨n, -, hn⟩ := peer_eq_some hx
    rw [empty n] at hn
    cases hn

/-- Settles O32: the entry to CONFLICT, stage by stage: line and channels, slots, X-ports, diversion. -/
theorem ownNumberHelloEntersConflict : Obligations.OwnNumberHelloEntersConflict := by
  unfold Obligations.OwnNumberHelloEntersConflict
  intro s dst l loaded numbered length
  have started : s.lineStarted = true := lineStarted_iff.2 ⟨loaded, numbered⟩
  have run : exec (.helloReceived s.loader.station dst l) s = done (ownHello s) :=
    congrArg done (receive_of_ownNumber started numbered (by decide) length)
  refine ⟨fun stands => ?_, fun clear => ?_⟩
  · have still : ownHello s = .of s := if_pos stands
    rw [run, still, done_of]
  · let s0 : State := { s with line := s.line.silence }
    let s1 := conflictChannels s0
    have channels : Frame [.chans] s0 s1 := (Frame.eachState conflictChannel_frame bothChans s0).trans fun b hb => by
      cases b with
      | chans => exact absurd List.mem_cons_self hb
      | _ => rfl
    have started1 : s1.lineStarted = true := by
      unfold State.lineStarted
      rw [channels.loader (by decide)]
      exact started
    let s2 := composeHello s1
    have hello : s2 = { s1 with line := { s1.line with wHello := some s1.helloNow } } := composeHello_of_started started1
    obtain ⟨same3, freed, -, lost⟩ := freeSlots (l := allSlots) (by decide) s2
    generalize h3 : eachOut freeSlotNow allSlots s2 = o3 at same3 freed lost
    have retired : XRetired allX o3.st (eachState retireX allX o3.st) := retireX_all (by decide) _
    have frame4 : Frame [.ports, .buffer] o3.st (eachState retireX allX o3.st) := Frame.eachState (fun x t =>
      (flushPort_frame (xPort x) t).trans ((setPort_frame _ _ _).mono (by decide))) allX _
    generalize h4 : eachState retireX allX o3.st = s4 at retired frame4
    obtain ⟨load, kept, dropped⟩ := dropLostDiversion_cases s4
    have entry : ownHello s = ⟨{ s4 with load := load }, o3.evs ++ shareEvents s4.load.share load.share⟩ := by
      unfold ownHello enterConflict
      rw [if_neg (by rw [clear]; decide)]
      show ((eachOut freeSlotNow allSlots s2).also (eachState retireX allX)).andThen dropLostDiversion = _
      rw [h3]
      show (⟨eachState retireX allX o3.st, o3.evs⟩ : Out).andThen dropLostDiversion = _
      rw [h4]
      exact Out.mk_andThen (s := s4) o3.evs dropped
    have ports3 : o3.st.ports = s.ports := by rw [same3, hello]; exact channels.ports (by decide)
    have buffer3 : o3.st.buffer = s.buffer := by rw [same3, hello]; exact channels.buffer (by decide)
    have port3 (p : Port) : o3.st.port p = s.port p := by unfold State.port; rw [ports3]
    have load4 : s4.load = s.load := by
      rw [frame4.load (by decide), same3, hello]
      exact channels.load (by decide)
    have empty : ∀ n, s4.slot n = none := fun n => by
      rw [State.slot, frame4.peers (by decide)]
      exact freed n (mem_allSlots n)
    have before : Frame [.line, .chans] s s2 := by
      have silenced : Frame [.line] s s0 := fun b hb => by
        cases b with
        | line => exact absurd List.mem_cons_self hb
        | _ => rfl
      exact ((silenced.mono (by decide)).trans (channels.mono (by decide))).trans ((composeHello_frame s1).mono (by decide))
    have slots : Frame [.peers] s2 o3.st := h3 ▸ Frame.eachOut freeSlotNow_frame allSlots s2
    rw [entry] at run
    refine ⟨_, run.trans (done_eq _), ?_, ?_, empty, fun n x hx live => ?_, fun x => ⟨?_, ?_, ?_⟩, fun p hp => ?_, ?_,
      fun peer => ?_, fun peer share => ?_, fun c => ?_⟩
    · have unloaded : Frame [.load] s4 { s4 with load := load } := fun b hb => by
        cases b with
        | load => exact absurd List.mem_cons_self hb
        | _ => rfl
      exact (((before.mono (by decide)).trans (slots.mono (by decide))).trans (frame4.mono (by decide))).trans
        (unloaded.mono (by decide))
    · show s4.line = { s.line.silence with wHello := some ({ s4 with load := load } : State).helloNow }
      have now : ({ s4 with load := load } : State).helloNow = s1.helloNow := by
        show ({ dst := 15, body := .hello s4.params.serial s4.loader.phase s4.peers.isolated s4.line.conflict } : TxMsg) = _
        rw [frame4.params (by decide), frame4.loader (by decide), frame4.peers (by decide), frame4.line (by decide), same3, hello]
        rfl
      rw [now, frame4.line (by decide), same3, hello]
      show ({ s1.line with wHello := _ } : GroupLine) = _
      rw [channels.line (by decide)]
    · have here : s2.slot n = some x := by
        rw [State.slot, before.peers (by decide)]
        exact hx
      exact List.mem_append_left _ (lost n (mem_allSlots n) x here live)
    · exact (retired.queues x (mem_allX x)).1
    · exact (retired.queues x (mem_allX x)).2
    · refine (retired.port x (mem_allX x)).trans ?_
      rw [port3, buffer3]
      rfl
    · obtain ⟨port, queue⟩ := retired.others p fun x _ h => by
        have := congrArg Fin.val h
        have := xPort_ge x
        omega
      exact ⟨port.trans (port3 p), queue.trans (by rw [buffer3])⟩
    · refine retired.free.trans ?_
      rw [buffer3]
    · cases kept with
      | lost h => exact ⟨rfl, rfl⟩
      | kept h => exact absurd ((losesDiversion_of_empty empty).2 (load4 ▸ peer)) h
    · refine List.mem_append_right _ (mem_shareEvents.2 (.inr ⟨rfl, load4 ▸ share, ?_⟩))
      cases kept with
      | lost h => rfl
      | kept h => exact absurd ((losesDiversion_of_empty empty).2 (load4 ▸ peer)) h
    · have chans : s4.chans = s1.chans := by
        rw [frame4.chans (by decide), same3, hello]
      show (State.chan { s4 with load := load } c).pendingEnd = none ∧ (State.chan { s4 with load := load } c).state = _
      have chan : State.chan { s4 with load := load } c = s1.chan c := by
        show s4.chans.ctx[c] = s1.chans.ctx[c]
        rw [chans]
      rw [chan]
      exact chan_conflictChannels s0 c

end Sys2Proof.Machine
end


section
/-! What a LINK notice reports, and `PeersFollow` after a change of the ports. -/

namespace Sys2Proof.Machine

/-! ## What a LINK notice reports -/

theorem usable_eq_true_iff {s : State} {p : Port} : s.usable p = true ↔ s.isUsable p := by
  simp [State.usable, LinkState.usable, State.isUsable]

theorem uCount_eq (s : State) : s.uCount = (s.usable (uPort 0)).toNat + (s.usable (uPort 1)).toNat
    + (s.usable (uPort 2)).toNat + (s.usable (uPort 3)).toNat := by
  have one (b : Bool) : (if b = true then 1 else 0) = b.toNat := by cases b <;> rfl
  unfold State.uCount allU
  rw [← List.countP_eq_length_filter]
  simp only [List.countP_cons, List.countP_nil, one]
  omega

theorem uCount_eq_zero_iff {s : State} : s.uCount = 0 ↔ s.noUplink := by
  unfold State.noUplink
  rw [State.uCount, List.length_eq_zero_iff, List.filter_eq_nil_iff]
  refine ⟨fun h u => mt usable_eq_true_iff.2 (h u ?_), fun h u _ => mt usable_eq_true_iff.1 (h u)⟩
  unfold allU
  fin_cases u <;> simp

/-- The part of a port unit that a LINK notice reports. -/
structure PortUnit.SameReport (u v : PortUnit) : Prop where
  link : v.link = u.link
  looped : v.looped = u.looped
  far : v.far = u.far
  bond : v.bond = u.bond

theorem uCount_congr {s t : State} (h : ∀ u : Fin 4, (t.port (uPort u)).link.usable = (s.port (uPort u)).link.usable) :
    t.uCount = s.uCount := by
  unfold State.uCount
  refine congrArg List.length (List.filter_congr fun u _ => h u)

theorem linkContent_congr {s t : State} (ports : ∀ p, (s.port p).SameReport (t.port p)) (phase : t.loader.phase = s.loader.phase)
    (conflict : t.line.conflict = s.line.conflict) (isolated : t.peers.isolated = s.peers.isolated) :
    t.linkContent = s.linkContent := by
  have reach : t.reachMap = s.reachMap := by
    unfold State.reachMap
    refine List.map_congr_left fun x _ => ?_
    obtain ⟨link, looped, far, -⟩ := ports (xPort x)
    dsimp only
    rw [link, looped, far]
  have count : t.uCount = s.uCount := uCount_congr fun u => by rw [(ports (uPort u)).link]
  have bonds : t.bondUp = s.bondUp := by
    unfold State.bondUp
    refine congrArg (fun f => allS.foldl f 0) (funext fun acc => funext fun p => ?_)
    have ready : t.portReady (sPort p) = s.portReady (sPort p) := by
      unfold State.portReady State.inService State.usable State.acting
      rw [phase, conflict, (ports (sPort p)).link]
    rw [ready, (ports (sPort p)).bond]
  unfold State.linkContent
  rw [reach, count, bonds, isolated]

theorem linkNow_eq {s : State} : s.linkNow =
    { dst := 15, body := .link s.params.serial s.linkContent.1 s.linkContent.2.1 s.linkContent.2.2.1 s.linkContent.2.2.2 } := rfl

theorem bool_of_toNat {a b : Bool} (h : a.toNat = b.toNat) : a = b := by
  cases a with
  | true =>
    cases b with
    | true => rfl
    | false => cases h
  | false =>
    cases b with
    | true => cases h
    | false => rfl

/-- A U-port or X-port that becomes usable, or is not any more, changes what a LINK notice reports. -/
theorem linkContent_ne {s t : State} {p : Port} (edge : 24 ≤ p.val) (turned : t.usable p ≠ s.usable p)
    (others : ∀ q, q ≠ p → t.usable q = s.usable q) : t.linkContent ≠ s.linkContent := fun same => by
  by_cases x : 28 ≤ p.val
  · obtain ⟨i, rfl⟩ : ∃ i : XIndex, p = xPort i := ⟨⟨p.val - 28, by omega⟩, Fin.ext (by simp [xPort]; omega)⟩
    have reach : t.reachMap = s.reachMap := congrArg Prod.fst same
    have entry := List.map_inj_left.1 reach i (mem_allX i)
    exact turned (congrArg (fun e : ReachEntry => e.link.usable) entry)
  · obtain ⟨u, rfl⟩ : ∃ u : Fin 4, p = uPort u := ⟨⟨p.val - 24, by omega⟩, Fin.ext (by simp [uPort]; omega)⟩
    have count : t.uCount = s.uCount := congrArg (fun c => c.2.1) same
    have other (v : Fin 4) (h : v ≠ u) : t.usable (uPort v) = s.usable (uPort v) :=
      others _ fun e => h (uPort_injective e)
    have here : (t.usable (uPort u)).toNat ≠ (s.usable (uPort u)).toNat := fun e => turned (bool_of_toNat e)
    rw [uCount_eq, uCount_eq] at count
    fin_cases u
    · rw [other 1 (by decide), other 2 (by decide), other 3 (by decide)] at count
      exact here (by simpa using count)
    · rw [other 0 (by decide), other 2 (by decide), other 3 (by decide)] at count
      exact here (by simpa using count)
    · rw [other 0 (by decide), other 1 (by decide), other 3 (by decide)] at count
      exact here (by simpa using count)
    · rw [other 0 (by decide), other 1 (by decide), other 2 (by decide)] at count
      exact here (by simpa using count)

/-! ## The event links and the LINK notice -/

/-- What a LINK notice reports stays, and so does the waiting one, unless one is composed. -/
structure LinkSteady (s t : State) : Prop where
  now : t.linkNow = s.linkNow
  waits : t.line.wLink = s.line.wLink ∨ t.line.wLink = some t.linkNow

theorem LinkSteady.refl (s : State) : LinkSteady s s := ⟨rfl, .inl rfl⟩

theorem LinkSteady.trans {s t u : State} (h : LinkSteady s t) (k : LinkSteady t u) : LinkSteady s u := by
  refine ⟨k.now.trans h.now, ?_⟩
  rcases k.waits with waits | waits
  · rw [waits]
    exact h.waits.imp id fun w => w.trans (by rw [k.now])
  · exact .inr waits

theorem linkNow_congr {l : List Block} {s t : State} (h : Frame l s t) (k : ∀ b ∈ [Block.ports, .peers, .params], b ∉ l)
    (phase : t.loader.phase = s.loader.phase) (conflict : t.line.conflict = s.line.conflict) : t.linkNow = s.linkNow := by
  have ports : t.ports = s.ports := h.ports (k _ (by decide))
  have content : t.linkContent = s.linkContent := by
    refine linkContent_congr (fun p => ?_) phase conflict (congrArg Peers.isolated (h.peers (k _ (by decide))))
    have same : t.port p = s.port p := by unfold State.port; rw [ports]
    rw [same]
    exact ⟨rfl, rfl, rfl, rfl⟩
  rw [linkNow_eq, linkNow_eq, content, h.params (k _ (by decide))]

theorem LinkSteady.of_frame {l : List Block} {s t : State} (h : Frame l s t) (k : ∀ b ∈ [Block.ports, .peers, .params], b ∉ l)
    (r : RefetchOnly s t) (conflict : t.line.conflict = s.line.conflict) (waits : t.line.wLink = s.line.wLink) :
    LinkSteady s t := ⟨linkNow_congr h k r.phase conflict, .inl waits⟩

theorem linkSteady_keptByLinks : KeptByLinks LinkSteady where
  refl := .refl
  trans := .trans
  act a s := by
    cases a with
    | sendLoad =>
      have kept : (composeLoad s).line.conflict = s.line.conflict ∧ (composeLoad s).line.wLink = s.line.wLink := by
        unfold composeLoad
        split <;> exact ⟨rfl, rfl⟩
      exact .of_frame (composeLoad_frame s) (by decide) (.of_frame (composeLoad_frame s) (by decide)) kept.1 kept.2
    | sendLink =>
      show LinkSteady s (composeLink s)
      cases notify : s.mayNotify with
      | true =>
        rw [composeLink_linkNow notify]
        have now := linkNow_of_line (s := s) (l := { s.line with wLink := some s.linkNow }) rfl
        exact ⟨now, .inr (congrArg some now.symm)⟩
      | false =>
        rw [composeLink_of_not notify]
        exact .refl s
    | closeInterval =>
      have line := (boundary_frame s).line (by decide)
      exact .of_frame (boundary_frame s) (by decide) (boundary_refetchOnly s) (by rw [← line]; rfl) (by rw [← line]; rfl)
    | exportEvent c =>
      have kept : (exportEvent c s).line.conflict = s.line.conflict ∧ (exportEvent c s).line.wLink = s.line.wLink := by
        unfold exportEvent
        dsimp only
        split
        · rw [served_line]
          exact ⟨rfl, rfl⟩
        · exact ⟨rfl, rfl⟩
      exact .of_frame (exportEvent_frame c s) (by decide) (.of_frame (exportEvent_frame c s) (by decide)) kept.1 kept.2
    | markInterval code =>
      exact .of_frame (markInterval_frame code s) (by decide) (.of_frame (markInterval_frame code s) (by decide)) rfl rfl
  setLink n f s := .of_frame (setLink_frame n f s) (by decide) (.of_frame (setLink_frame n f s) (by decide)) rfl rfl

/-- A LINK notice composed before the events are taken stays up to date. -/
theorem conclude_wLink {o : Out} (h : o.st.line.wLink = some o.st.linkNow) :
    (conclude o).line.wLink = some (conclude o).linkNow := by
  have steady := linkSteady_keptByLinks.conclude o
  rcases steady.waits with waits | waits
  · rw [waits, h, steady.now]
  · exact waits

end Sys2Proof.Machine
end


section
/-! `PeersFollow` for a change of the ports (O18 to O20). -/

namespace Sys2Proof.Machine

theorem mem_followEvents {s : State} {x : PeerSlot} {e : Event} : e ∈ s.followEvents x ↔
    (e = ⟨.peerActive, some x.station.toNat⟩ ∧ (x.state = .joining ∨ x.state = .severed)
        ∧ (s.directX x.station).isSome = true)
      ∨ (e = ⟨.peerSevered, some x.station.toNat⟩ ∧ x.state = .active ∧ s.directX x.station = none) := by
  unfold State.followEvents
  cases direct : s.directX x.station <;> cases state : x.state <;> simp

/-- The events of a port that changes. -/
def PortEvents (evs : List Event) : Prop :=
  ∀ e ∈ evs, e.source = .portUp ∨ e.source = .portDown ∨ e.source = .portDegraded

theorem not_mem_portEvents {evs : List Event} (h : PortEvents evs) {e : Event} (up : e.source ≠ .portUp)
    (down : e.source ≠ .portDown) (degraded : e.source ≠ .portDegraded) : e ∉ evs := fun mem => by
  rcases h e mem with k | k | k
  · exact up k
  · exact down k
  · exact degraded k

theorem event_ne {a b : EventSource} {q r : Option Nat} (h : a ≠ b) : (⟨a, q⟩ : Event) ≠ ⟨b, r⟩ :=
  fun same => h (congrArg Event.source same)

theorem noUplink_iff_of_uCount {s t : State} (h : t.uCount = s.uCount) : t.noUplink ↔ s.noUplink := by
  rw [← uCount_eq_zero_iff, ← uCount_eq_zero_iff, h]

theorem station_toNat_inj {a b : Station} (h : (some a.toNat : Option Nat) = some b.toNat) : a = b :=
  BitVec.eq_of_toNat_eq (Option.some.inj h)

/-- A change of the ports with what follows from it, and the events `pre` of the ports themselves. -/
theorem peersFollow_of_follows {s old u : State} {o : Out} {pre : List Event} (follows : Follows old u o)
    (peers : u.peers = s.peers) (load : u.load = s.load) (line : u.line = s.line) (before : old.uCount = s.uCount)
    (content : old.linkContent = s.linkContent) (ports : PortEvents pre) : PeersFollow s ⟨o.st, pre ++ o.evs⟩ := by
  have slot (n : SlotNo) : u.slot n = s.slot n := by rw [State.slot, peers, State.slot]
  have count : o.st.uCount = u.uCount := uCount_of_ports (follows.frame.ports (by decide))
  have noUp : o.st.noUplink ↔ u.uCount = 0 := by rw [← uCount_eq_zero_iff, count]
  have noUpBefore : s.noUplink ↔ old.uCount = 0 := by rw [← uCount_eq_zero_iff, before]
  have lost : u.losesDiversion o.st ↔ s.losesDiversion o.st := losesDiversion_of_divPeer (congrArg LoadUnit.divPeer load)
  have raised {a : EventSource} {q : Option Nat} (up : a ≠ .portUp) (down : a ≠ .portDown) (degraded : a ≠ .portDegraded) :
      ⟨a, q⟩ ∈ pre ++ o.evs ↔ ⟨a, q⟩ ∈ o.evs := by
    rw [List.mem_append]
    exact ⟨fun h => h.resolve_left (not_mem_portEvents ports up down degraded), .inr⟩
  have unheard {a : EventSource} {q : Option Nat} (act : a ≠ .peerActive) (sev : a ≠ .peerSevered) :
      ¬ ∃ n x, u.slot n = some x ∧ ⟨a, q⟩ ∈ u.followEvents x := by
    rintro ⟨n, x, -, mem⟩
    rcases mem_followEvents.1 mem with ⟨same, -⟩ | ⟨same, -⟩
    · exact event_ne act same
    · exact event_ne sev same
  refine ⟨fun n => ?_, ?_, fun st => ⟨?_, ?_⟩, fun h => ?_, fun h k => ?_, fun h k => ?_, ?_, ?_, fun h => ⟨fun k => ?_, fun k => ?_⟩,
    fun h k => ?_, fun h k => ⟨fun none => ?_, fun st v candidate least => ?_⟩, ?_, ?_, fun notify changed => ?_, fun h => ?_, ?_⟩
  · rw [follows.slots, slot]
  · refine follows.peers.trans ?_
    rw [peers]
  · rw [raised (by decide) (by decide) (by decide), follows.events]
    constructor
    · rintro (⟨n, x, hx, mem⟩ | h | h | h | h)
      · rcases mem_followEvents.1 mem with ⟨same, state, direct⟩ | ⟨same, -⟩
        · have st' := station_toNat_inj (congrArg Event.qual same)
          refine ⟨n, x, (slot n).symm.trans hx, st'.symm, state, ?_⟩
          rw [follows.directX, st']
          exact direct
        · exact absurd same (event_ne (by decide))
      · exact absurd h.1 (event_ne (by decide))
      · exact absurd h.1 (event_ne (by decide))
      · exact absurd h.1 (event_ne (by decide))
      · exact absurd h.1 (event_ne (by decide))
    · rintro ⟨n, x, hx, rfl, state, direct⟩
      rw [follows.directX] at direct
      exact .inl ⟨n, x, (slot n).trans hx, mem_followEvents.2 (.inl ⟨rfl, state, direct⟩)⟩
  · rw [raised (by decide) (by decide) (by decide), follows.events]
    constructor
    · rintro (⟨n, x, hx, mem⟩ | h | h | h | h)
      · rcases mem_followEvents.1 mem with ⟨same, -⟩ | ⟨same, state, direct⟩
        · exact absurd same (event_ne (by decide))
        · have st' := station_toNat_inj (congrArg Event.qual same)
          refine ⟨n, x, (slot n).symm.trans hx, st'.symm, state, ?_⟩
          rw [follows.directX, st']
          exact direct
      · exact absurd h.1 (event_ne (by decide))
      · exact absurd h.1 (event_ne (by decide))
      · exact absurd h.1 (event_ne (by decide))
      · exact absurd h.1 (event_ne (by decide))
    · rintro ⟨n, x, hx, rfl, state, direct⟩
      rw [follows.directX] at direct
      exact .inl ⟨n, x, (slot n).trans hx, mem_followEvents.2 (.inr ⟨rfl, state, direct⟩)⟩
  · exact follows.joined (mt noUp.2 h)
  · exact follows.cut (noUp.1 h) (mt noUpBefore.2 k)
  · exact (follows.still (noUp.1 h) (noUpBefore.1 k)).trans (by rw [peers])
  · rw [raised (by decide) (by decide) (by decide), follows.events, ← peers]
    simp [unheard]
  · rw [raised (by decide) (by decide) (by decide), follows.events, ← peers]
    simp [unheard]
  · rw [← load]
    exact follows.lost (h.trans (by rw [peers])) (lost.2 k)
  · rw [← load]
    exact follows.kept (h.trans (by rw [peers])) (mt lost.1 k)
  · rw [← load]
    exact follows.ended (by rw [peers]; exact h) k
  · rw [← load, follows.started (by rw [peers]; exact h) k, isoPeer_eq_none none]
    rfl
  · rw [← load, follows.started (by rw [peers]; exact h) k, isoPeer_eq_some candidate least]
    rfl
  · rw [raised (by decide) (by decide) (by decide), follows.events, lost, load]
    simp [unheard]
  · rw [raised (by decide) (by decide) (by decide), follows.events, lost, load]
    simp [unheard]
  · rw [← line]
    exact follows.line.trans (if_pos ⟨notify, by rw [content]; exact changed⟩)
  · rw [← line]
    refine follows.line.trans (if_neg ?_)
    rintro ⟨notify, changed⟩
    rcases h with h | h
    · exact Bool.false_ne_true (h.symm.trans notify)
    · exact changed (h.trans content.symm)
  · exact (conclude_frame _).mono (by decide)

end Sys2Proof.Machine
end


section
/-! A change of the ports up to the next state, and the carrier commands (O18). -/

namespace Sys2Proof.Machine

/-! ## A change of the ports up to the next state -/

/-- What the change of `old` into `u` with the ports' events `pre` leads to from `s`: the command's outcome `o`, and the
next state `t`. -/
structure ViewChanged (s old u : State) (pre : List Event) (o : Out) (t : State) : Prop where
  next : t = conclude o
  follow : PeersFollow s o
  isolated : t.peers.isolated = o.st.peers.isolated
  load : t.load = o.st.load
  noUplink : o.st.noUplink ↔ u.noUplink
  raised : ∀ e : Event, (e.source = .portUp ∨ e.source = .portDown ∨ e.source = .portDegraded) → (e ∈ o.evs ↔ e ∈ pre)
  started : s.peers.isolated = false → o.st.peers.isolated = true →
    o.st.load = { s.load with divPeer := o.st.isoPeer, share := if o.st.isoPeer.isSome then 1024 else 0 }
  port : ∀ q, t.port q = u.port q
  frame : Frame [.peers, .load, .line, .links, .meter, .chans, .loader] u t
  link : u.acting = true → u.line.conflict = false → ∀ p : Port, 24 ≤ p.val → u.usable p ≠ old.usable p →
    (∀ q, q ≠ p → u.usable q = old.usable q) → t.line.wLink = some t.linkNow

theorem port_of_ports {s t : State} (h : t.ports = s.ports) (p : Port) : t.port p = s.port p := by
  unfold State.port
  rw [h]

theorem not_mem_settled {old u : State} {o : Out} (follows : Follows old u o) {e : Event}
    (h : e.source = .portUp ∨ e.source = .portDown ∨ e.source = .portDegraded) : e ∉ o.evs := fun mem => by
  have other {a : EventSource} {q : Option Nat} (up : a ≠ .portUp) (down : a ≠ .portDown) (degraded : a ≠ .portDegraded)
      (same : e = ⟨a, q⟩) : False := by
    rw [same] at h
    rcases h with h | h | h
    · exact up h
    · exact down h
    · exact degraded h
  rcases (follows.events e).1 mem with ⟨n, x, -, mem⟩ | h | h | h | h
  · rcases mem_followEvents.1 mem with ⟨same, -⟩ | ⟨same, -⟩
    · exact other (by decide) (by decide) (by decide) same
    · exact other (by decide) (by decide) (by decide) same
  · exact other (by decide) (by decide) (by decide) h.1
  · exact other (by decide) (by decide) (by decide) h.1
  · exact other (by decide) (by decide) (by decide) h.1
  · exact other (by decide) (by decide) (by decide) h.1

theorem viewChanged {s old u : State} {pre : List Event} {f : State → Out} (change : f old = ⟨u, pre⟩)
    (blocks : Frame [.ports, .buffer, .time] s u) (before : old.uCount = s.uCount) (content : old.linkContent = s.linkContent)
    (ports : PortEvents pre) :
    ViewChanged s old u pre (withView f old) (conclude (withView f old)) := by
  have same : withView f old = ⟨(settleView old u).st, pre ++ (settleView old u).evs⟩ := by
    rw [withView_eq, change]
  have follows := settleView_follows old u
  rw [same]
  generalize settleView old u = o at follows
  have wrap := conclude_frame ⟨o.st, pre ++ o.evs⟩
  refine ⟨rfl, peersFollow_of_follows follows (blocks.peers (by decide)) (blocks.load (by decide)) (blocks.line (by decide))
    before content ports, congrArg Peers.isolated (wrap.peers (by decide)), wrap.load (by decide), ?_, fun e h => ?_, fun off on => ?_,
    fun q => (port_of_ports (wrap.ports (by decide)) q).trans (port_of_ports (follows.frame.ports (by decide)) q),
    (follows.frame.mono (by decide)).trans (wrap.mono (by decide)), fun acts free p edge turned others => conclude_wLink ?_⟩
  · exact noUplink_iff_of_uCount (uCount_of_ports (follows.frame.ports (by decide)))
  · rw [List.mem_append]
    exact ⟨fun mem => mem.resolve_right (not_mem_settled follows h), .inl⟩
  · rw [← blocks.load (by decide)]
    exact follows.started (by rw [blocks.peers (by decide)]; exact off) on
  · have loader := follows.frame.loader (by decide)
    have acting : o.st.acting = true := by rw [State.acting, loader]; exact acts
    have now : o.st.mayNotify = true := mayNotify_iff.2 ⟨acting, follows.conflict.trans free⟩
    have usable (q : Port) : o.st.usable q = u.usable q := by
      rw [State.usable, port_of_ports (follows.frame.ports (by decide)), State.usable]
    have changed : o.st.linkContent ≠ old.linkContent :=
      linkContent_ne edge (by rw [usable]; exact turned) fun q hq => (usable q).trans (others q hq)
    rw [follows.line, if_pos ⟨now, changed⟩]

/-! ## The carrier commands -/

theorem usable_eq {s : State} {p : Port} : s.usable p = (s.port p).link.usable := rfl

/-- A change of one port unit that a LINK notice does not report. -/
theorem report_setPort {p : Port} {f : PortUnit → PortUnit} (h : ∀ u : PortUnit, u.SameReport (f u)) (s : State) :
    (setPort p f s).uCount = s.uCount ∧ (setPort p f s).linkContent = s.linkContent := by
  have same (q : Port) : (s.port q).SameReport ((setPort p f s).port q) := by
    by_cases e : q = p
    · rw [e, port_setPort]
      exact h _
    · rw [port_setPort_ne e]
      exact ⟨rfl, rfl, rfl, rfl⟩
  exact ⟨uCount_congr fun u => by rw [(same (uPort u)).link], linkContent_congr same rfl rfl rfl⟩

theorem setPort_setPort (p : Port) (f g : PortUnit → PortUnit) (s : State) :
    setPort p f (setPort p g s) = setPort p (fun u => f (g u)) s := by
  simp [setPort, Vector.set_set]

theorem usable_setPort_ne {p q : Port} (h : q ≠ p) (f : PortUnit → PortUnit) (s : State) :
    (setPort p f s).usable q = s.usable q := by
  rw [usable_eq, port_setPort_ne h, usable_eq]

theorem portEvents_one {a : EventSource} {q : Option Nat} (h : a = .portUp ∨ a = .portDown ∨ a = .portDegraded) :
    PortEvents [⟨a, q⟩] := fun e mem => by
  rw [List.mem_singleton.1 mem]
  exact h

theorem portEvents_nil : PortEvents [] := fun _ mem => absurd mem List.not_mem_nil

theorem takeCarrierUp_rests {s : State} {p : Port} (h : s.acting = false ∨ (s.port p).link ≠ .down) :
    exec (.carrierUp p) s = .next (setPort p (fun u => { u with carrier := true }) s) := by
  refine congrArg done (?_ : takeCarrierUp p s = .of _)
  refine if_neg ?_
  rw [port_setPort]
  rintro ⟨acts, down⟩
  rcases h with h | h
  · exact Bool.false_ne_true (h.symm.trans acts)
  · exact h down

theorem takeCarrierUp_acts {s : State} {p : Port} (acts : s.acting = true) (down : (s.port p).link = .down) :
    takeCarrierUp p s = withView (portToUp p) (setPort p (fun u => { u with carrier := true }) s) := by
  refine if_pos ⟨acts, ?_⟩
  rw [port_setPort]
  exact down

/-- A U-port that is usable after the change ends ISOLATED. -/
theorem ViewChanged.ends_isolation {s old u : State} {pre : List Event} {o : Out} {t : State} (h : ViewChanged s old u pre o t)
    {p : Port} (low : 24 ≤ p.val) (high : p.val < 28) (usable : u.usable p = true) : t.peers.isolated = false := by
  obtain ⟨v, rfl⟩ : ∃ v : Fin 4, p = uPort v := ⟨⟨p.val - 24, by omega⟩, Fin.ext (by simp [uPort]; omega)⟩
  obtain ⟨-, -, -, joined, -⟩ := h.follow
  exact h.isolated.trans (joined fun none => h.noUplink.1 none v (usable_eq_true_iff.1 usable))

/-- The isolation of the station starts with the loss of its last usable U-port (R128, R92). -/
theorem ViewChanged.starts_isolation {s old u : State} {pre : List Event} {o : Out} {t : State} (h : ViewChanged s old u pre o t)
    (lost : u.noUplink) (held : ¬ s.noUplink) : t.peers.isolated = true ∧ (s.peers.isolated = false →
      (t.load.share = 1024 ∧ t.load.divPeer.isSome = true) ∨ (t.load.share = 0 ∧ t.load.divPeer = none)) := by
  obtain ⟨-, -, -, -, cut, -⟩ := h.follow
  have on := cut (h.noUplink.2 lost) held
  refine ⟨h.isolated.trans on, fun off => ?_⟩
  rw [h.load, h.started off on]
  cases o.st.isoPeer with
  | none => exact .inr ⟨rfl, rfl⟩
  | some st => exact .inl ⟨rfl, rfl⟩

theorem carrierUp_moves (s : State) (p : Port) (acts : s.acting = true) (down : (s.port p).link = .down) :
    ∃ o t, exec (.carrierUp p) s = .next t ∧ t = conclude o ∧ (⟨.portUp, some p.val⟩ : Event) ∈ o.evs
      ∧ PeersFollow s o ∧ OnlyPort p s t
      ∧ Frame [.ports, .peers, .load, .line, .links, .meter, .chans, .loader] s t
      ∧ t.port p = { s.port p with
          carrier := true, link := .up, badFrames := 0, holdExpiry := none
          decayExpiry := some (s.time.now + BitVec.ofNat 48 (s.params.decay * 1000000)) }
      ∧ (24 ≤ p.val → p.val < 28 → t.peers.isolated = false)
      ∧ (24 ≤ p.val → s.line.conflict = false → t.line.wLink = some t.linkNow) := by
  let old := setPort p (fun u => { u with carrier := true }) s
  let up : PortUnit → PortUnit := fun u => { u with
      link := .up, badFrames := 0, holdExpiry := none, decayExpiry := some (later old.time.now (decayUs old)) }
  obtain ⟨before, content⟩ := report_setPort (p := p) (f := fun u => { u with carrier := true }) (fun _ => ⟨rfl, rfl, rfl, rfl⟩) s
  have ports : Frame [.ports] s (setPort p up old) := (setPort_frame p _ s).trans (setPort_frame p up old)
  have changed := viewChanged (f := portToUp p) (u := setPort p up old) (pre := [⟨.portUp, some p.val⟩]) rfl (ports.mono (by decide))
    before content (portEvents_one (.inl rfl))
  have other (q : Port) (hq : q ≠ p) : (setPort p up old).port q = s.port q :=
    (port_setPort_ne hq up old).trans (port_setPort_ne hq _ s)
  have here : (setPort p up old).port p = up { s.port p with carrier := true } := by rw [port_setPort, port_setPort]
  have runs : exec (.carrierUp p) s = .next (conclude (withView (portToUp p) old)) :=
    (congrArg done (takeCarrierUp_acts acts down)).trans (done_eq _)
  generalize withView (portToUp p) old = o at runs changed
  refine ⟨o, conclude o, runs, rfl, (changed.raised _ (.inl rfl)).2 (List.mem_singleton_self _),
    changed.follow, fun q hq => (changed.port q).trans (other q hq), (ports.mono (by decide)).trans (changed.frame.mono (by decide)),
    (changed.port p).trans here, fun low high => changed.ends_isolation low high ?_, fun edge free =>
      changed.link acts free p edge ?_ fun q hq => usable_setPort_ne hq up old⟩
  · rw [usable_eq, here]
    rfl
  · rw [usable_eq, here, usable_eq, port_setPort]
    show true ≠ (s.port p).link.usable
    rw [down]
    decide

theorem raisedPenalty_eq (n : Nat) : raisedPenalty n = if n + 1 ≤ 6 then n + 1 else 6 := by
  unfold raisedPenalty
  split <;> omega

theorem holdTime_eq (base n : Nat) : holdTime base n = holdSeconds base n * 1000000 := by
  unfold holdTime holdSeconds second
  split <;> omega

theorem takeCarrierDown_rests {s : State} {p : Port} (h : s.acting = false ∨ (s.port p).link = .down) :
    exec (.carrierDown p) s = .next (setPort p (fun u => { u with carrier := false }) s) := by
  refine congrArg done (?_ : takeCarrierDown p s = .of (setPort p (fun u => { u with carrier := false }) s))
  have link : ((setPort p (fun u => { u with carrier := false }) s).port p).link = (s.port p).link := by rw [port_setPort]
  unfold takeCarrierDown
  dsimp only
  cases acts : s.acting with
  | false => exact if_neg fun on => Bool.false_ne_true (acts.symm.trans on)
  | true =>
    refine (if_pos acts).trans ?_
    rw [link, h.resolve_left (by rw [acts]; decide)]

theorem takeCarrierDown_restarts {s : State} {p : Port} (acts : s.acting = true) (held : (s.port p).link = .held) :
    takeCarrierDown p s = .of (startHold p (setPort p (fun u => { u with carrier := false }) s)) := by
  have link : ((setPort p (fun u => { u with carrier := false }) s).port p).link = (s.port p).link := by rw [port_setPort]
  unfold takeCarrierDown
  dsimp only
  refine (if_pos acts).trans ?_
  rw [link, held]

theorem takeCarrierDown_acts {s : State} {p : Port} (acts : s.acting = true) (usable : s.isUsable p) :
    takeCarrierDown p s = withView (portToHeld p) (setPort p (fun u => { u with carrier := false }) s) := by
  have link : ((setPort p (fun u => { u with carrier := false }) s).port p).link = (s.port p).link := by rw [port_setPort]
  unfold takeCarrierDown
  dsimp only
  refine (if_pos acts).trans ?_
  rw [link]
  rcases usable with h | h
  · rw [h]
  · rw [h]

/-- A flush speaks of the buffer alone. -/
theorem Flushed.congr {p : Port} {s t u v : State} (h : Flushed p s t) (before : u.buffer = s.buffer) (after : v.buffer = t.buffer) :
    Flushed p u v := by
  unfold Flushed OnlyQueues State.tenantCells
  rw [before, after]
  exact h

/-- The port unit with its hold started (R111). -/
def heldUnit (s : State) (u : PortUnit) : PortUnit :=
  { u with
    penalty := if u.penalty + 1 ≤ 6 then u.penalty + 1 else 6
    holdExpiry := some (s.time.now + BitVec.ofNat 48
      (holdSeconds s.params.holdBase (if u.penalty + 1 ≤ 6 then u.penalty + 1 else 6) * 1000000)) }

theorem startHold_eq (p : Port) (s : State) : startHold p s = setPort p (heldUnit s) s := by
  refine congrArg (fun f => setPort p f s) (funext fun u => ?_)
  rw [raisedPenalty_eq, holdTime_eq]
  rfl

/-- The port unit that carrier down leaves, the flushed copies apart (R110, R111, R115). -/
def lostCarrier (s : State) (u : PortUnit) : PortUnit :=
  clearFar { heldUnit s { u with carrier := false } with link := .held, badFrames := 0, decayExpiry := none }

theorem carrierDown_holds (s : State) (p : Port) (acts : s.acting = true) (usable : s.isUsable p) :
    ∃ o t, exec (.carrierDown p) s = .next t
      ∧ ViewChanged s (setPort p (fun u => { u with carrier := false }) s)
        (flushPort p (setPort p (lostCarrier s) s)) [⟨.portDown, some p.val⟩] o t := by
  let old := setPort p (fun u => { u with carrier := false }) s
  obtain ⟨before, content⟩ := report_setPort (p := p) (f := fun u => { u with carrier := false }) (fun _ => ⟨rfl, rfl, rfl, rfl⟩) s
  have held : portToHeld p old = ⟨flushPort p (setPort p (lostCarrier s) s), [⟨.portDown, some p.val⟩]⟩ := by
    have start : setPort p (fun u => clearFar { u with link := .held, badFrames := 0, decayExpiry := none }) (startHold p old)
        = setPort p (lostCarrier s) s := by
      rw [startHold_eq, setPort_setPort, setPort_setPort]
      rfl
    rw [← start]
    rfl
  have changed := viewChanged held (((setPort_frame p _ s).mono (by decide)).trans ((flushPort_frame p _).mono (by decide)))
    before content (portEvents_one (.inr (.inl rfl)))
  have runs : exec (.carrierDown p) s = .next (conclude (withView (portToHeld p) old)) :=
    (congrArg done (takeCarrierDown_acts acts usable)).trans (done_eq _)
  exact ⟨_, _, runs, changed⟩

/-- Settles O18. A change of the ports is followed by its consequences (`viewChanged`): PORT_UP and PORT_DOWN change one port
unit, whose usability the LINK notice reports. -/
theorem carrierMovesThePort : Obligations.CarrierMovesThePort := by
  unfold Obligations.CarrierMovesThePort
  refine ⟨fun s p => ⟨takeCarrierUp_rests, carrierUp_moves s p⟩, fun s p => ⟨takeCarrierDown_rests, fun acts held => ?_,
    fun acts usable => ?_⟩, fun s u acts usable alone => ?_⟩
  · refine (congrArg done (takeCarrierDown_restarts acts held)).trans ?_
    rw [done_of, startHold_eq, setPort_setPort]
    rfl
  · obtain ⟨o, t, runs, changed⟩ := carrierDown_holds s p acts usable
    obtain ⟨here, others⟩ := port_flushPort p (setPort p (lostCarrier s) s)
    rw [port_setPort] at here
    refine ⟨o, t, runs, changed.next, (changed.raised _ (.inr (.inl rfl))).2 (List.mem_singleton_self _), changed.follow,
      fun q hq => (changed.port q).trans ((others q hq).trans (port_setPort_ne hq _ s)),
      (((setPort_frame p _ s).mono (by decide)).trans ((flushPort_frame p _).mono (by decide))).trans
        (changed.frame.mono (by decide)), (changed.port p).trans here,
      (flushPort_flushed p (setPort p (lostCarrier s) s)).congr rfl (changed.frame.buffer (by decide)), fun edge free => ?_⟩
    have acting : (flushPort p (setPort p (lostCarrier s) s)).acting = true := by
      rw [State.acting, (flushPort_frame p _).loader (by decide)]
      exact acts
    have line := (flushPort_frame p (setPort p (lostCarrier s) s)).line (by decide)
    refine changed.link acting (by rw [line]; exact free) p edge ?_ fun q hq => ?_
    · have up : (s.port p).link.usable = true := usable_eq_true_iff.2 usable
      rw [usable_eq, here, usable_eq, port_setPort]
      show false ≠ (s.port p).link.usable
      rw [up]
      decide
    · rw [usable_eq, others q hq, port_setPort_ne hq, usable_eq, port_setPort_ne hq]
  · obtain ⟨o, t, runs, changed⟩ := carrierDown_holds s (uPort u) acts usable
    obtain ⟨here, others⟩ := port_flushPort (uPort u) (setPort (uPort u) (lostCarrier s) s)
    rw [port_setPort] at here
    refine ⟨t, runs, changed.starts_isolation (fun v up => ?_) fun none => none u usable⟩
    by_cases same : v = u
    · rw [same, ← usable_eq_true_iff, usable_eq, here] at up
      cases up
    · have edge : uPort v ≠ uPort u := fun e => same (uPort_injective e)
      refine alone v same (usable_eq_true_iff.1 ?_)
      rw [← usable_eq_true_iff, usable_eq, others _ edge, port_setPort_ne edge] at up
      exact up

end Sys2Proof.Machine
end


section
/-! Port hellos and their lapse (O20), and the hold and decay timers of a port (O19). -/

namespace Sys2Proof.Machine

/-! ## Port hellos (R118) -/

theorem asX_xPort (x : XIndex) : asX (xPort x) = some x := by
  have high : 28 ≤ (xPort x).val := xPort_ge x
  simp only [asX, high]
  exact congrArg some (Fin.ext (by simp [xPort]))

theorem takeFrame_of_hello {x : XIndex} {l : List Byte} {s : State} (takes : s.takesFrames (xPort x))
    (passes : passesChecks (xPort x) l) (hello : frameDst l = Config.helloAddr) :
    takeFrame (xPort x) l s = takePortHello x l s := by
  simp [takeFrame, portReady_iff.2 takes, ingressFault_of_passes passes, asX_xPort, hello]

/-- The X-port after a port hello, its lapse timer included (R118). -/
def State.heardHello (s : State) (l : List Byte) (u : PortUnit) : PortUnit :=
  { heard s.loader.station (helloNumber l) (helloSerial l) u with lapseExpiry := some (later s.time.now (3 * helloUs s)) }

theorem heardHello_eq (s : State) (l : List Byte) (u : PortUnit) : s.heardHello l u =
    if helloNumber l = s.loader.station.toNat then
      { u with far := none, looped := true, lapseExpiry := some (later s.time.now (3 * helloUs s)) }
    else if u.far = some (BitVec.ofNat 4 (helloNumber l)) then
      { u with lapseExpiry := some (later s.time.now (3 * helloUs s)) }
    else { u with
      far := some (BitVec.ofNat 4 (helloNumber l)), farSerial := helloSerial l, looped := false
      lapseExpiry := some (later s.time.now (3 * helloUs s)) } := by
  unfold State.heardHello heard
  split
  · rfl
  · split <;> rfl

theorem takePortHello_of_ge {x : XIndex} {l : List Byte} (h : 15 ≤ helloNumber l) (s : State) :
    takePortHello x l s = .of s := if_neg (by omega)

theorem takePortHello_of_lt {x : XIndex} {l : List Byte} (h : helloNumber l < 15) (s : State) :
    takePortHello x l s = withView (fun s1 => .of (setPort (xPort x) (s1.heardHello l) s1)) s := if_pos h

/-- One port unit changes, with what follows from it. -/
theorem portChanged {s old : State} {f : State → Out} {p : Port} {g : PortUnit → PortUnit} {pre : List Event}
    (change : f old = ⟨setPort p g old, pre⟩) (blocks : Frame [.ports, .buffer, .time] s old) (before : old.uCount = s.uCount)
    (content : old.linkContent = s.linkContent) (ports : PortEvents pre) :
    ViewChanged s old (setPort p g old) pre (withView f old) (conclude (withView f old)) :=
  viewChanged change (blocks.trans ((setPort_frame p g old).mono (by decide))) before content ports

theorem ViewChanged.port_here {s old : State} {p : Port} {g : PortUnit → PortUnit} {pre : List Event} {o : Out} {t : State}
    (h : ViewChanged s old (setPort p g old) pre o t) : t.port p = g (old.port p) := (h.port p).trans (port_setPort p g old)

theorem ViewChanged.port_others {s old : State} {p : Port} {g : PortUnit → PortUnit} {pre : List Event} {o : Out} {t : State}
    (h : ViewChanged s old (setPort p g old) pre o t) {q : Port} (hq : q ≠ p) : t.port q = old.port q :=
  (h.port q).trans (port_setPort_ne hq g old)

/-! ## The lapse (R119 case 1) -/

theorem expireLapse_of_none {s : State} {x : XIndex} (h : (s.port (xPort x)).lapseExpiry = none) : expireLapse x s = .of s := by
  unfold expireLapse
  rw [h]

theorem expireLapse_of_some {s : State} {x : XIndex} {u : Time} (h : (s.port (xPort x)).lapseExpiry = some u) :
    expireLapse x s = withView (fun s1 => .of (setPort (xPort x) (fun u => { u with far := none, lapseExpiry := none }) s1))
      (reachTime u s) := by
  unfold expireLapse
  rw [h]

theorem reachTime_view (u : Time) (s : State) : Frame [.ports, .buffer, .time] s (reachTime u s)
    ∧ (reachTime u s).uCount = s.uCount ∧ (reachTime u s).linkContent = s.linkContent := by
  rw [reachTime_timeAt]
  exact ⟨(frame_time _ s).mono (by decide), rfl, rfl⟩

theorem hello_runs {s : State} {x : XIndex} {l : List Byte} (takes : s.takesFrames (xPort x))
    (passes : passesChecks (xPort x) l) (hello : frameDst l = Config.helloAddr) (low : helloNumber l < 15) :
    ∃ o t, exec (.frameReceived (xPort x) l) s = .next t
      ∧ ViewChanged s s (setPort (xPort x) (s.heardHello l) s) [] o t := by
  have changed := portChanged (s := s) (f := fun s1 => .of (setPort (xPort x) (s1.heardHello l) s1)) (pre := []) rfl
    (.refl _ _) rfl rfl portEvents_nil
  refine ⟨_, _, ?_, changed⟩
  rw [exec_frameReceived, takeFrame_of_hello takes passes hello, takePortHello_of_lt low, done_eq]

theorem lapse_runs {s : State} {x : XIndex} {u : Time} (h : (s.port (xPort x)).lapseExpiry = some u) :
    ∃ o t, exec (.lapseExpiry x) s = .next t ∧ ViewChanged s (reachTime u s)
      (setPort (xPort x) (fun u => { u with far := none, lapseExpiry := none }) (reachTime u s)) [] o t := by
  obtain ⟨frame, before, content⟩ := reachTime_view u s
  exact ⟨_, _, (congrArg done (expireLapse_of_some h)).trans (done_eq _),
    portChanged (f := fun s1 => .of (setPort (xPort x) (fun u => { u with far := none, lapseExpiry := none }) s1)) (pre := []) rfl
      frame before content portEvents_nil⟩

/-- Settles O20: one X-port's far station changes, and its consequences follow (`portChanged`). -/
theorem portHellosAndTheirLapse : Obligations.PortHellosAndTheirLapse := by
  unfold Obligations.PortHellosAndTheirLapse
  refine ⟨fun s x l takes passes hello => ?_, fun s x => ⟨fun idle => ?_, fun u running => ?_⟩⟩
  · intro n lapse
    refine ⟨fun high => ?_, fun low => ?_⟩
    · rw [exec_frameReceived, takeFrame_of_hello takes passes hello, takePortHello_of_ge high, done_of]
    · obtain ⟨o, t, runs, changed⟩ := hello_runs takes passes hello low
      refine ⟨o, t, runs, changed.next, changed.follow, fun q hq => changed.port_others hq,
        ((setPort_frame _ _ s).mono (by decide)).trans (changed.frame.mono (by decide)), ?_⟩
      rw [changed.port_here, heardHello_eq]
      rfl
  · exact (congrArg done (expireLapse_of_none idle)).trans (done_of s)
  · obtain ⟨o, t, runs, changed⟩ := lapse_runs running
    obtain ⟨frame, -, -⟩ := reachTime_view u s
    have ports : (reachTime u s).ports = s.ports := by rw [reachTime_timeAt]
    refine ⟨o, t, runs, changed.next, changed.follow, fun q hq => (changed.port_others hq).trans (port_of_ports ports q), ?_, ?_, ?_⟩
    · rw [reachTime_timeAt] at changed
      exact ((frame_time _ s).mono (by decide)).trans (((setPort_frame _ _ _).mono (by decide)).trans (changed.frame.mono (by decide)))
    · rw [changed.frame.time (by decide), (setPort_frame _ _ _).time (by decide), reachTime_timeAt]
    · rw [changed.port_here, port_of_ports ports]

/-! ## The hold expiry (R110, R111) -/

theorem setPort_congr {p : Port} {f g : PortUnit → PortUnit} {s : State} (h : f (s.port p) = g (s.port p)) :
    setPort p f s = setPort p g s := congrArg (fun u => { s with ports := s.ports.set p.val u p.isLt }) h

theorem setPort_self {p : Port} {f : PortUnit → PortUnit} {s : State} (h : f (s.port p) = s.port p) : setPort p f s = s := by
  have same : s.ports.set p.val (s.port p) p.isLt = s.ports := Vector.set_getElem_self p.isLt
  refine (congrArg (fun u => ({ s with ports := s.ports.set p.val u p.isLt } : State)) h).trans ?_
  rw [same]

/-- The port unit after the end of its hold (R110). -/
def State.holdEnded (s : State) (u : PortUnit) : PortUnit :=
  if u.link = .held then
    if u.carrier then
      { u with link := .up, badFrames := 0, holdExpiry := none, decayExpiry := some (later s.time.now (decayUs s)) }
    else { u with link := .down, badFrames := 0 }
  else u

/-- The event of the end of a hold. -/
def holdEvents (p : Port) (u : PortUnit) : List Event :=
  if u.link = .held ∧ u.carrier = true then [⟨.portUp, some p.val⟩] else []

theorem endHold_eq (p : Port) (s : State) : endHold p s = ⟨setPort p s.holdEnded s, holdEvents p (s.port p)⟩ := by
  unfold endHold holdEvents
  by_cases held : (s.port p).link = .held
  · cases carrier : (s.port p).carrier with
    | true =>
      have same : setPort p s.holdEnded s = setPort p (fun u => { u with
          link := .up, badFrames := 0, holdExpiry := none, decayExpiry := some (later s.time.now (decayUs s)) }) s := by
        refine setPort_congr ?_
        rw [State.holdEnded, if_pos held, if_pos carrier]
      rw [if_pos held, if_pos rfl, if_pos ⟨held, rfl⟩, same]
      rfl
    | false =>
      have same : setPort p s.holdEnded s = setPort p (fun u => { u with link := .down, badFrames := 0 }) s := by
        refine setPort_congr ?_
        rw [State.holdEnded, if_pos held, if_neg (by rw [carrier]; decide)]
      rw [if_pos held, if_neg (by decide), if_neg (by simp), same]
      rfl
  · have same : setPort p s.holdEnded s = s := setPort_self (if_neg held)
    rw [if_neg held, if_neg (fun h => held h.1), same]
    rfl

theorem portEvents_hold (p : Port) (u : PortUnit) : PortEvents (holdEvents p u) := by
  unfold holdEvents
  split
  · exact portEvents_one (.inl rfl)
  · exact portEvents_nil

theorem expireHold_of_none {s : State} {p : Port} (h : (s.port p).holdExpiry = none) : expireHold p s = .of s := by
  unfold expireHold
  rw [h]

theorem expireHold_of_some {s : State} {p : Port} {u : Time} (h : (s.port p).holdExpiry = some u) :
    expireHold p s = withView (endHold p) (setPort p (fun u => { u with holdExpiry := none }) (reachTime u s)) := by
  unfold expireHold
  rw [h]

theorem hold_runs {s : State} {p : Port} {u : Time} (h : (s.port p).holdExpiry = some u) :
    ∃ o t, exec (.holdExpiry p) s = .next t ∧
      let old := setPort p (fun u => { u with holdExpiry := none }) (reachTime u s)
      ViewChanged s old (setPort p old.holdEnded old) (holdEvents p (old.port p)) o t := by
  obtain ⟨frame, before, content⟩ := reachTime_view u s
  obtain ⟨before', content'⟩ := report_setPort (p := p) (f := fun u => { u with holdExpiry := none })
    (fun _ => ⟨rfl, rfl, rfl, rfl⟩) (reachTime u s)
  exact ⟨_, _, (congrArg done (expireHold_of_some h)).trans (done_eq _),
    portChanged (endHold_eq p _) (frame.trans ((setPort_frame p _ _).mono (by decide))) (before'.trans before)
      (content'.trans content) (portEvents_hold p _)⟩

theorem holdExpiry_ends {s : State} {p : Port} {u : Time} (h : (s.port p).holdExpiry = some u) :
    ∃ o t, exec (.holdExpiry p) s = .next t ∧ t = conclude o ∧ PeersFollow s o ∧ OnlyPort p s t
      ∧ ((⟨.portUp, some p.val⟩ : Event) ∈ o.evs ↔ (s.port p).link = .held ∧ (s.port p).carrier = true)
      ∧ ((s.port p).link = .held → (s.port p).carrier = true → 24 ≤ p.val → p.val < 28 → t.peers.isolated = false)
      ∧ Frame [.ports, .time, .peers, .load, .line, .links, .meter, .chans, .loader] s t
      ∧ t.time = { s.time with now := s.timeAt u }
      ∧ t.port p =
          if (s.port p).link = .held then
            if (s.port p).carrier then
              { s.port p with
                holdExpiry := none, link := .up, badFrames := 0
                decayExpiry := some (s.timeAt u + BitVec.ofNat 48 (s.params.decay * 1000000)) }
            else { s.port p with holdExpiry := none, link := .down, badFrames := 0 }
          else { s.port p with holdExpiry := none } := by
  obtain ⟨o, t, runs, changed⟩ := hold_runs h
  rw [reachTime_timeAt] at changed
  have here : t.port p = (setPort p (fun u => { u with holdExpiry := none })
      ({ s with time := { s.time with now := s.timeAt u } } : State)).holdEnded { s.port p with holdExpiry := none } := by
    rw [changed.port_here, port_setPort]
    rfl
  refine ⟨o, t, runs, changed.next, changed.follow,
    fun q hq => (changed.port_others hq).trans (port_setPort_ne hq _ _), ?_, fun held carrier low high =>
      changed.ends_isolation low high ?_, ?_, changed.frame.time (by decide), ?_⟩
  · rw [changed.raised _ (.inl rfl), port_setPort]
    unfold holdEvents
    by_cases up : (s.port p).link = .held ∧ (s.port p).carrier = true
    · simp [up, show ({ s with time := { s.time with now := s.timeAt u } } : State).port p = s.port p from rfl]
    · simp [up, show ({ s with time := { s.time with now := s.timeAt u } } : State).port p = s.port p from rfl]
  · rw [usable_eq, ← changed.port, here, State.holdEnded, if_pos held, if_pos carrier]
    rfl
  · exact ((frame_time _ s).mono (by decide)).trans (((setPort_frame p _ _).mono (by decide)).trans
      (((setPort_frame p _ _).mono (by decide)).trans (changed.frame.mono (by decide))))
  · exact here

/-! ## The decay expiry (R114) -/

theorem expireDecay_of_none {s : State} {p : Port} (h : (s.port p).decayExpiry = none) : expireDecay p s = s := by
  unfold expireDecay
  rw [h]

theorem decayExpiry_sheds {s : State} {p : Port} {u : Time} (h : (s.port p).decayExpiry = some u) :
    ∃ t, exec (.decayExpiry p) s = .next t ∧ OnlyPort p s t ∧ Frame [.ports, .time] s t
      ∧ t.time = { s.time with now := s.timeAt u }
      ∧ (s.isUsable p → t.port p = { s.port p with
          penalty := if 0 < (s.port p).penalty then (s.port p).penalty - 1 else 0
          decayExpiry := some (u + BitVec.ofNat 48 (s.params.decay * 1000000)) })
      ∧ (¬ s.isUsable p → t.port p = { s.port p with decayExpiry := none }) := by
  let shed : PortUnit → PortUnit := fun v =>
    if v.link.usable then { v with penalty := v.penalty - 1, decayExpiry := some (later u (decayUs s)) }
    else { v with decayExpiry := none }
  have runs : expireDecay p s = setPort p shed (reachTime u s) := by
    unfold expireDecay
    rw [h]
  rw [reachTime_timeAt] at runs
  have port (q : Port) : ({ s with time := { s.time with now := s.timeAt u } } : State).port q = s.port q := rfl
  refine ⟨_, congrArg (fun v => done (.of v)) runs, fun q hq => (port_setPort_ne hq shed _).trans (port q),
    ((frame_time _ s).mono (by decide)).trans ((setPort_frame p shed _).mono (by decide)), rfl, fun usable => ?_, fun idle => ?_⟩
  · have up : (s.port p).link.usable = true := usable_eq_true_iff.2 usable
    have point : (if 0 < (s.port p).penalty then (s.port p).penalty - 1 else 0) = (s.port p).penalty - 1 := by
      split <;> omega
    rw [point]
    exact (port_setPort p shed _).trans (if_pos up)
  · exact (port_setPort p shed _).trans <| if_neg (mt (fun up => usable_eq_true_iff.1 up) idle)

end Sys2Proof.Machine
end


section
/-! The one-second event (O19): the slots, the diversion and ISOLATED are settled at the first port; a port that turns from UP to
DEGRADED or back stays usable, so that at the others only the LINK notice can follow. -/

namespace Sys2Proof.Machine

/-! ## Ports that stay usable -/

/-- A port unit that is as usable as before, toward the same station. -/
structure PortUnit.KeepsUse (u v : PortUnit) : Prop where
  usable : v.link.usable = u.link.usable
  looped : v.looped = u.looped
  far : v.far = u.far
  bond : v.bond = u.bond

theorem PortUnit.KeepsUse.refl (u : PortUnit) : u.KeepsUse u := ⟨rfl, rfl, rfl, rfl⟩

theorem PortUnit.KeepsUse.trans {u v w : PortUnit} (h : u.KeepsUse v) (k : v.KeepsUse w) : u.KeepsUse w :=
  ⟨k.usable.trans h.usable, k.looped.trans h.looped, k.far.trans h.far, k.bond.trans h.bond⟩

/-- Two states whose ports are as usable, with the same peers, load unit and mode of the station. -/
structure SameUse (s t : State) : Prop where
  ports : ∀ p, (s.port p).KeepsUse (t.port p)
  peers : t.peers = s.peers
  load : t.load = s.load
  loader : t.loader = s.loader
  params : t.params = s.params
  time : t.time = s.time
  conflict : t.line.conflict = s.line.conflict

theorem SameUse.refl (s : State) : SameUse s s := ⟨fun _ => .refl _, rfl, rfl, rfl, rfl, rfl, rfl⟩

theorem SameUse.trans {s t u : State} (h : SameUse s t) (k : SameUse t u) : SameUse s u :=
  ⟨fun p => (h.ports p).trans (k.ports p), k.peers.trans h.peers, k.load.trans h.load, k.loader.trans h.loader,
    k.params.trans h.params, k.time.trans h.time, k.conflict.trans h.conflict⟩

theorem isSome_directX_iff {s : State} {st : Station} : (s.directX st).isSome = true ↔
    s.line.conflict = false ∧ ∃ x : XIndex, (s.port (xPort x)).link.usable = true ∧ (s.port (xPort x)).far = some st := by
  have found (l : LinkState) : (s.xTo l st).isSome = true ↔
      ∃ x : XIndex, (s.port (xPort x)).link = l ∧ (s.port (xPort x)).far = some st := by
    unfold State.xTo
    rw [List.find?_isSome]
    simp only [Bool.and_eq_true, beq_iff_eq]
    exact ⟨fun ⟨x, _, h⟩ => ⟨x, h⟩, fun ⟨x, h⟩ => ⟨x, mem_allX x, h⟩⟩
  have either (a b : Option XIndex) : (a.orElse fun _ => b).isSome = (a.isSome || b.isSome) := by cases a <;> rfl
  unfold State.directX
  cases conflict : s.line.conflict with
  | true => simp
  | false =>
    rw [if_neg (by decide), either, Bool.or_eq_true, found, found]
    constructor
    · rintro (⟨x, link, far⟩ | ⟨x, link, far⟩)
      · exact ⟨rfl, x, (congrArg LinkState.usable link).trans rfl, far⟩
      · exact ⟨rfl, x, (congrArg LinkState.usable link).trans rfl, far⟩
    · rintro ⟨-, x, usable, far⟩
      rcases (usable_eq_true_iff (s := s) (p := xPort x)).1 usable with link | link
      · exact .inl ⟨x, link, far⟩
      · exact .inr ⟨x, link, far⟩

namespace SameUse

variable {s t : State} (h : SameUse s t)
include h

theorem direct (st : Station) : (t.directX st).isSome = (s.directX st).isSome := by
  rw [Bool.eq_iff_iff, isSome_directX_iff, isSome_directX_iff, h.conflict]
  refine and_congr_right' (exists_congr fun x => ?_)
  rw [(h.ports (xPort x)).usable, (h.ports (xPort x)).far]

theorem uCount : t.uCount = s.uCount := uCount_congr fun u => (h.ports (uPort u)).usable

theorem acting : t.acting = s.acting := by rw [State.acting, h.loader, State.acting]

theorem mayNotify : t.mayNotify = s.mayNotify := by rw [State.mayNotify, h.acting, h.conflict, State.mayNotify]

theorem peer : t.peer = s.peer := by
  funext st
  unfold State.peer State.slotOf State.slot
  rw [h.peers]

theorem slot (n : SlotNo) : t.slot n = s.slot n := by rw [State.slot, h.peers, State.slot]

theorem relayOf : t.relayOf = s.relayOf := by
  funext x
  unfold State.relayOf State.relayFor State.activePeer
  rw [h.peer]

theorem follow : t.follow = s.follow := by
  funext x
  unfold State.follow
  rw [h.direct]

theorem followEvents : t.followEvents = s.followEvents := by
  funext x
  unfold State.followEvents
  rw [h.direct]

theorem followed : t.followed = s.followed := by
  funext x
  rw [followed_eq, followed_eq, h.follow, h.relayOf]

theorem losesDiversion (a : State) : a.losesDiversion t ↔ a.losesDiversion s := by
  have stands (st : Station) : (∃ x y, t.peer st = some x ∧ x.state = .active ∧ t.directX st = some y)
      ↔ ∃ x y, s.peer st = some x ∧ x.state = .active ∧ s.directX st = some y := by
    have direct := h.direct st
    rw [h.peer]
    constructor
    · rintro ⟨x, y, hx, active, hy⟩
      obtain ⟨z, hz⟩ := Option.isSome_iff_exists.1 (direct.symm.trans (by rw [hy]; rfl))
      exact ⟨x, z, hx, active, hz⟩
    · rintro ⟨x, y, hx, active, hy⟩
      obtain ⟨z, hz⟩ := Option.isSome_iff_exists.1 (direct.trans (by rw [hy]; rfl))
      exact ⟨x, z, hx, active, hz⟩
  unfold State.losesDiversion
  simp only [stands]

theorem isoPeer : t.isoPeer = s.isoPeer := by
  have candidate : t.isoCandidate = s.isoCandidate := by
    funext x
    unfold State.isoCandidate State.readUplink State.freshness
    rw [h.direct, h.loader, h.time]
  have uplink : t.readUplink = s.readUplink := by
    funext x
    unfold State.readUplink State.freshness
    rw [h.loader, h.time]
  unfold State.isoPeer
  rw [h.peer, candidate, uplink]

theorem bondUp : t.bondUp = s.bondUp := by
  unfold State.bondUp
  refine congrArg (fun f => allS.foldl f 0) (funext fun acc => funext fun p => ?_)
  have ready : t.portReady (sPort p) = s.portReady (sPort p) := by
    unfold State.portReady State.inService State.usable
    rw [h.acting, h.conflict, (h.ports (sPort p)).usable]
  rw [ready, (h.ports (sPort p)).bond]

/-- The LINK content changes by the links of the X-ports alone. -/
theorem linkContent_iff : t.linkContent = s.linkContent ↔ ∀ x : XIndex, (t.port (xPort x)).link = (s.port (xPort x)).link := by
  have reach : t.reachMap = s.reachMap ↔ ∀ x : XIndex, (t.port (xPort x)).link = (s.port (xPort x)).link := by
    unfold State.reachMap
    rw [List.map_inj_left]
    refine ⟨fun k x => congrArg ReachEntry.link (k x (mem_allX x)), fun k x _ => ?_⟩
    dsimp only
    rw [k x, (h.ports (xPort x)).looped, (h.ports (xPort x)).far]
  rw [← reach]
  refine ⟨fun k => congrArg Prod.fst k, fun k => ?_⟩
  unfold State.linkContent
  rw [k, h.uCount, h.bondUp, h.peers]

end SameUse

/-! ## A settled state -/

/-- Nothing is left to follow: the slots, the diversion and ISOLATED suit the ports. -/
structure State.Settled (s : State) : Prop where
  slots : ∀ n x, s.slot n = some x → s.follow x = x ∧ x.relay = s.relayOf x
  diversion : ¬ s.losesDiversion s
  isolation : s.uCount ≠ 0 → s.peers.isolated = false

theorem SameUse.settled {s t : State} (h : SameUse s t) (k : s.Settled) : t.Settled where
  slots n x hx := by
    rw [h.follow, h.relayOf]
    exact k.slots n x (by rw [← h.slot]; exact hx)
  diversion := by
    rw [h.losesDiversion, losesDiversion_of_divPeer (congrArg LoadUnit.divPeer h.load)]
    exact k.diversion
  isolation := by
    rw [h.uCount, h.peers]
    exact k.isolation

theorem follow_follow (s : State) (x : PeerSlot) : s.follow (s.follow x) = s.follow x := by
  have station := follow_station s x
  by_cases lost : x.state = .lost
  · have same : s.follow x = x := if_pos lost
    rw [same, same]
  · by_cases direct : (s.directX x.station).isSome = true
    · have rise : s.follow x = { x with state := .active, joinExpiry := if x.state = .active then x.joinExpiry else none } := by
        unfold State.follow
        rw [if_neg lost, if_pos direct]
      rw [rise]
      unfold State.follow
      rw [if_neg (by simp), if_pos direct, if_pos rfl]
    · by_cases active : x.state = .active
      · have sever : s.follow x = { x with state := .severed } := by
          unfold State.follow
          rw [if_neg lost, if_neg direct, if_pos active]
        rw [sever]
        unfold State.follow
        rw [if_neg (by simp), if_neg direct, if_neg (by simp)]
      · have same : s.follow x = x := by
          unfold State.follow
          rw [if_neg lost, if_neg direct, if_neg active]
        rw [same, same]

theorem follow_relay (s : State) (x : PeerSlot) (r : Option Station) :
    s.follow { x with relay := r } = { s.follow x with relay := r } := by
  unfold State.follow
  split_ifs <;> rfl

theorem Follows.settled {old u : State} {o : Out} (h : Follows old u o) : o.st.Settled where
  slots n x hx := by
    rw [h.slots] at hx
    obtain ⟨y, -, rfl⟩ := Option.map_eq_some_iff.1 hx
    rw [followed_eq]
    refine ⟨?_, rfl⟩
    rw [follow_relay, follow_follow]
  diversion := h.peersKept.2
  isolation cut := h.joined fun none => cut ((uCount_of_ports (h.frame.ports (by decide))).trans none)

theorem slots_of_slot {s t : State} (h : ∀ n, t.slot n = s.slot n) : t.peers.slots = s.peers.slots := slots_ext h

/-- A settled state stays, but for the LINK notice, when its ports stay as usable as they were. -/
theorem settleView_of_settled {old s : State} (settled : s.Settled) (before : s.uCount = old.uCount) :
    settleView old s = ⟨reportView old s, []⟩ := by
  have followed : s.mapSlots s.follow = s := by
    have slots : (s.mapSlots s.follow).peers.slots = s.peers.slots := slots_of_slot fun n => by
      rw [slot_mapSlots]
      cases hx : s.slot n with
      | none => rfl
      | some x => exact congrArg some (settled.slots n x hx).1
    have same : s.mapSlots s.follow = { s with peers := { s.peers with slots := (s.mapSlots s.follow).peers.slots } } := rfl
    rw [same, slots]
  have rechosen : s.rechosen = s := by
    have slots : s.rechosen.peers.slots = s.peers.slots := slots_of_slot fun n => by
      unfold State.rechosen
      dsimp only
      rw [followed, slot_mapSlots]
      cases hx : s.slot n with
      | none => rfl
      | some x =>
        refine congrArg some ?_
        show ({ x with relay := s.relayOf x } : PeerSlot) = x
        rw [← (settled.slots n x hx).2]
    have same : s.rechosen = { s with peers := { s.peers with slots := s.rechosen.peers.slots } } := rfl
    rw [same, slots]
  have quiet : s.followed_ allSlots = [] := by
    refine List.eq_nil_iff_forall_not_mem.2 fun e mem => ?_
    obtain ⟨n, x, hx, mem⟩ := mem_followed_.1 mem
    have same := congrArg PeerSlot.state (settled.slots n x hx).1
    unfold State.follow at same
    rcases mem_followEvents.1 mem with ⟨-, state, direct⟩ | ⟨-, state, direct⟩
    · rcases state with state | state
      · rw [if_neg (by rw [state]; decide), if_pos direct, state] at same
        cases same
      · rw [if_neg (by rw [state]; decide), if_pos direct, state] at same
        cases same
    · rw [if_neg (by rw [state]; decide), if_neg (by rw [direct]; decide), if_pos state, state] at same
      cases same
  obtain ⟨l, i, l', iso, kept, judged, eq⟩ := settleView_cases old s
  rw [rechosen, quiet] at eq
  rw [rechosen] at kept judged
  cases kept with
  | lost h => exact absurd h settled.diversion
  | kept _ =>
    cases judged with
    | on cut had was => exact absurd (before.symm.trans cut) had
    | off joined was => exact absurd ((settled.isolation joined).symm.trans was) Bool.false_ne_true
    | same _ _ =>
      rw [eq, shareEvents_self]
      rfl

/-- The LINK notice apart, what follows a change stands when the ports change as far as they stay usable. -/
theorem Follows.reported {old u : State} {o : Out} (h : Follows old u o) {v w : State} {evs : List Event}
    (before : SameUse u v) (after : SameUse o.st w) (frame : Frame [.peers, .load, .line] v w)
    (events : ∀ e, e ∈ evs ↔ e ∈ o.evs)
    (line : w.line = if w.mayNotify = true ∧ w.linkContent ≠ old.linkContent
      then { v.line with wLink := some w.linkNow } else v.line) : Follows old v ⟨w, evs⟩ where
  frame := frame
  slots n := by
    rw [after.slot, h.slots, before.slot, after.followed]
  peers := by
    show w.peers = _
    rw [after.peers, before.peers]
    exact h.peers
  conflict := after.conflict.trans (h.conflict.trans before.conflict.symm)
  joined up := by
    show w.peers.isolated = false
    rw [after.peers]
    exact h.joined (by rw [← before.uCount]; exact up)
  cut none had := by
    show w.peers.isolated = true
    rw [after.peers]
    exact h.cut (by rw [← before.uCount]; exact none) had
  still none had := by
    show w.peers.isolated = _
    rw [after.peers, before.peers]
    exact h.still (by rw [← before.uCount]; exact none) had
  events e := by
    have lost : v.losesDiversion w ↔ u.losesDiversion o.st :=
      (after.losesDiversion v).trans (losesDiversion_of_divPeer (congrArg LoadUnit.divPeer before.load))
    show e ∈ evs ↔ _
    rw [events, h.events, lost, before.followEvents, before.peers, before.load]
    show _ ↔ _ ∨ (_ ∧ _ ∧ w.peers.isolated = true) ∨ (_ ∧ _ ∧ w.peers.isolated = false) ∨ (_ ∧ 0 < w.load.share ∧ _) ∨
      (_ ∧ _ ∧ (w.load.share = 0 ∨ _))
    rw [after.peers, after.load]
    simp only [before.slot]
  lost same lost := by
    show w.load = _
    rw [after.load, before.load]
    refine h.lost (by rw [← after.peers, ← before.peers]; exact same) ?_
    exact (losesDiversion_of_divPeer (congrArg LoadUnit.divPeer before.load)).1 ((after.losesDiversion v).1 lost)
  kept same kept := by
    show w.load = _
    rw [after.load, before.load]
    refine h.kept (by rw [← after.peers, ← before.peers]; exact same) fun lost => kept ?_
    exact (after.losesDiversion v).2 ((losesDiversion_of_divPeer (congrArg LoadUnit.divPeer before.load)).2 lost)
  ended was now := by
    show w.load = _
    rw [after.load, before.load]
    exact h.ended (by rw [← before.peers]; exact was) (by rw [← after.peers]; exact now)
  started was now := by
    show w.load = { v.load with divPeer := w.isoPeer, share := if w.isoPeer.isSome then 1024 else 0 }
    rw [after.load, before.load, after.isoPeer]
    exact h.started (by rw [← before.peers]; exact was) (by rw [← after.peers]; exact now)
  line := line

end Sys2Proof.Machine
end


section
/-! The one-second event (O19): the comparison of the ports, one by one. -/

namespace Sys2Proof.Machine

/-! ## The comparison of one port (R113) -/

/-- The link state after the comparison with the degrade threshold. -/
def PortUnit.compared (d : Nat) (u : PortUnit) : LinkState :=
  if u.link = .up ∧ d ≤ u.badFrames.toNat then .degraded
  else if u.link = .degraded ∧ u.badFrames.toNat < d then .up else u.link

/-- The event of the comparison. -/
def compareEvents (d : Nat) (p : Port) (u : PortUnit) : List Event :=
  if u.link = .up ∧ d ≤ u.badFrames.toNat then [⟨.portDegraded, some p.val⟩]
  else if u.link = .degraded ∧ u.badFrames.toNat < d then [⟨.portUp, some p.val⟩] else []

/-- The port unit after the comparison and with a new second's count. -/
def PortUnit.second (d : Nat) (u : PortUnit) : PortUnit := { u with link := u.compared d, badFrames := 0 }

theorem comparePort_eq (p : Port) (s : State) : comparePort p s =
    ⟨setPort p (fun u => { u with link := u.compared s.params.degrade }) s, compareEvents s.params.degrade p (s.port p)⟩ := by
  have change {l : LinkState} (h : (s.port p).compared s.params.degrade = l) :
      setPort p (fun u => { u with link := u.compared s.params.degrade }) s = setPort p (fun u => { u with link := l }) s :=
    setPort_congr (congrArg (fun l => ({ s.port p with link := l } : PortUnit)) h)
  unfold comparePort compareEvents
  dsimp only
  by_cases falls : (s.port p).link = .up ∧ s.params.degrade ≤ (s.port p).badFrames.toNat
  · rw [if_pos falls, if_pos falls, change (if_pos falls)]
    rfl
  · by_cases rises : (s.port p).link = .degraded ∧ (s.port p).badFrames.toNat < s.params.degrade
    · rw [if_neg falls, if_pos rises, if_neg falls, if_pos rises, change ((if_neg falls).trans (if_pos rises))]
      rfl
    · have same : setPort p (fun u => { u with link := u.compared s.params.degrade }) s = s :=
        setPort_self (congrArg (fun l => ({ s.port p with link := l } : PortUnit)) ((if_neg falls).trans (if_neg rises)))
      rw [if_neg falls, if_neg rises, if_neg falls, if_neg rises, same]
      rfl

theorem portEvents_compare (d : Nat) (p : Port) (u : PortUnit) : PortEvents (compareEvents d p u) := by
  unfold compareEvents
  split
  · exact portEvents_one (.inr (.inr rfl))
  · split
    · exact portEvents_one (.inl rfl)
    · exact portEvents_nil

theorem usable_compared (d : Nat) (u : PortUnit) : (u.compared d).usable = u.link.usable := by
  unfold PortUnit.compared
  split
  next h =>
    rw [h.1]
    rfl
  next =>
    split
    next h =>
      rw [h.1]
      rfl
    next => rfl

/-- The state with one port compared. -/
def State.comparedAt (s : State) (p : Port) : State :=
  setPort p (fun u => { u with link := u.compared s.params.degrade }) s

/-- The state with one port's bad-frame count cleared. -/
def State.clearedAt (s : State) (p : Port) : State := setPort p (fun u => { u with badFrames := 0 }) s

theorem portSecond_acting {p : Port} {s : State} (acts : s.acting = true) : portSecond p s =
    ⟨(settleView s (s.comparedAt p)).st.clearedAt p,
      compareEvents s.params.degrade p (s.port p) ++ (settleView s (s.comparedAt p)).evs⟩ := by
  have compare : comparePort p s = ⟨s.comparedAt p, compareEvents s.params.degrade p (s.port p)⟩ := comparePort_eq p s
  unfold portSecond
  rw [if_pos acts, withView_eq, compare]
  generalize settleView s _ = o
  rfl

theorem portSecond_resting {p : Port} {s : State} (rests : s.acting = false) :
    portSecond p s = .of (s.clearedAt p) := by
  unfold portSecond
  rw [if_neg (by rw [rests]; decide)]
  rfl

theorem sameUse_setPort {p : Port} {f : PortUnit → PortUnit} {s : State} (h : (s.port p).KeepsUse (f (s.port p))) :
    SameUse s (setPort p f s) := by
  refine ⟨fun q => ?_, rfl, rfl, rfl, rfl, rfl, rfl⟩
  by_cases same : q = p
  · rw [same, port_setPort]
    exact h
  · rw [port_setPort_ne same]
    exact .refl _

theorem sameUse_line {s : State} {l : GroupLine} (h : l.conflict = s.line.conflict) : SameUse s { s with line := l } :=
  ⟨fun _ => .refl _, rfl, rfl, rfl, rfl, rfl, h⟩

theorem linkContent_of_report {s t : State} (h : SameUse s t) (k : ∀ p, (t.port p).link = (s.port p).link) :
    t.linkContent = s.linkContent ∧ t.linkNow = s.linkNow := by
  have content := h.linkContent_iff.2 fun x => k (xPort x)
  exact ⟨content, by rw [linkNow_eq, linkNow_eq, content, h.params]⟩

/-! ## The ports one by one -/

/-- The notice that a state holds is up to date against what `s` last reported. -/
def State.Reports (s v : State) : Prop :=
  v.line = if v.mayNotify = true ∧ v.linkContent ≠ s.linkContent then { s.line with wLink := some v.linkNow } else s.line

/-- The state `v` when the ports of `ps` have been compared; `b` is the state after the first port. -/
structure Compared (s b : State) (ps : List Port) (v : State) : Prop where
  port : ∀ q, v.port q = if q ∈ ps then (s.port q).second s.params.degrade else s.port q
  use : SameUse b v
  frame : Frame [.ports, .line] b v
  reports : s.Reports v

/-- A notice that differs from the last keeps differing from the first, when no port has turned back. -/
theorem reports_next {s v w t : State} (h : s.Reports v) (use : SameUse v w) (now : t.linkContent = w.linkContent)
    (notice : t.linkNow = w.linkNow) (notify : t.mayNotify = v.mayNotify)
    (back : w.linkContent = s.linkContent → v.linkContent = s.linkContent)
    (line : t.line = if w.mayNotify = true ∧ w.linkContent ≠ v.linkContent then { v.line with wLink := some w.linkNow } else v.line) :
    s.Reports t := by
  unfold State.Reports at h ⊢
  rw [line, now, notice, notify, use.mayNotify]
  by_cases on : v.mayNotify = true
  · by_cases same : w.linkContent = v.linkContent
    · have note : w.linkNow = v.linkNow := by rw [linkNow_eq, linkNow_eq, same, use.params]
      rw [if_neg (fun k => k.2 same), h, same, note]
    · have moved : w.linkContent ≠ s.linkContent := fun k => same (k.trans (back k).symm)
      rw [if_pos ⟨on, same⟩, if_pos ⟨on, moved⟩, h]
      split <;> rfl
  · rw [if_neg (fun k => on k.1), if_neg (fun k => on k.1), h, if_neg (fun k => on k.1)]

theorem secondAt_port (v : State) (l : GroupLine) (p : Port) :
    (∀ q, ((({ v.comparedAt p with line := l } : State).clearedAt p).port q).link = ((v.comparedAt p).port q).link)
      ∧ (({ v.comparedAt p with line := l } : State).clearedAt p).port p = (v.port p).second v.params.degrade := by
  refine ⟨fun q => ?_, ?_⟩
  · by_cases same : q = p
    · rw [same, State.clearedAt, port_setPort]
      rfl
    · rw [State.clearedAt, port_setPort_ne same]
      rfl
  · rw [State.clearedAt, port_setPort]
    show ({ (v.comparedAt p).port p with badFrames := 0 } : PortUnit) = _
    rw [State.comparedAt, port_setPort]
    rfl

theorem comparedAt_port_ne (v : State) {p q : Port} (h : q ≠ p) : (v.comparedAt p).port q = v.port q := port_setPort_ne h _ v

theorem secondAt_port_ne (v : State) (l : GroupLine) {p q : Port} (h : q ≠ p) :
    (({ v.comparedAt p with line := l } : State).clearedAt p).port q = v.port q :=
  (port_setPort_ne h _ _).trans (comparedAt_port_ne v h)

theorem links_of_linkContent {s t : State} (h : t.linkContent = s.linkContent) (x : XIndex) :
    (t.port (xPort x)).link = (s.port (xPort x)).link := by
  have reach : t.reachMap = s.reachMap := congrArg Prod.fst h
  exact congrArg ReachEntry.link (List.map_inj_left.1 reach x (mem_allX x))

theorem frame_line (l : GroupLine) (s : State) : Frame [.line] s { s with line := l } := fun b hb => by
  cases b with
  | line => exact absurd (List.mem_singleton_self _) hb
  | _ => rfl

theorem Compared.next {s b v : State} {ps : List Port} (h : Compared s b ps v) (settled : b.Settled) (acts : b.acting = true)
    (params : b.params = s.params) {p : Port} (new : p ∉ ps) :
    ∃ t, portSecond p v = ⟨t, compareEvents s.params.degrade p (s.port p)⟩ ∧ Compared s b (ps ++ [p]) t := by
  have degrade : v.params.degrade = s.params.degrade := by rw [h.use.params, params]
  have here : v.port p = s.port p := (h.port p).trans (if_neg new)
  obtain ⟨l, conflict, report, line⟩ := reportView_cases v (v.comparedAt p)
  have use : SameUse v (v.comparedAt p) := sameUse_setPort ⟨usable_compared _ _, rfl, rfl, rfl⟩
  have runs := portSecond_acting (p := p) (h.use.acting.trans acts)
  rw [settleView_of_settled ((h.use.trans use).settled settled) use.uCount, report, degrade, here, List.append_nil] at runs
  have kept : SameUse (v.comparedAt p) { v.comparedAt p with line := l } := sameUse_line conflict
  have cleared : SameUse ({ v.comparedAt p with line := l } : State) (({ v.comparedAt p with line := l } : State).clearedAt p) :=
    sameUse_setPort ⟨rfl, rfl, rfl, rfl⟩
  obtain ⟨links, ports⟩ := secondAt_port v l p
  rw [here, degrade] at ports
  have all (q : Port) : (({ v.comparedAt p with line := l } : State).clearedAt p).port q =
      if q ∈ ps ++ [p] then (s.port q).second s.params.degrade else s.port q := by
    by_cases same : q = p
    · rw [same, ports, if_pos (List.mem_append_right _ (List.mem_singleton_self _))]
    · rw [secondAt_port_ne v l same, h.port]
      simp only [List.mem_append, List.mem_singleton, same, or_false]
  obtain ⟨content, now⟩ := linkContent_of_report (kept.trans cleared) links
  refine ⟨_, runs, all, h.use.trans (use.trans (kept.trans cleared)), h.frame.trans ?_, ?_⟩
  · exact ((setPort_frame p _ v).mono (by decide)).trans (((frame_line l _).mono (by decide)).trans ((setPort_frame p _ _).mono (by decide)))
  · refine reports_next h.reports use content now ((use.trans kept).trans cleared).mayNotify (fun same => ?_) line
    refine (use.linkContent_iff.2 fun x => ?_).symm.trans same
    by_cases at_ : xPort x = p
    · rw [links_of_linkContent same x, at_, here]
    · rw [comparedAt_port_ne v at_]

theorem eachOut_compared {s b : State} (settled : b.Settled) (acts : b.acting = true) (params : b.params = s.params)
    {l ps : List Port} {v : State} (h : Compared s b ps v) (once : (ps ++ l).Nodup) :
    ∃ t, eachOut portSecond l v = ⟨t, l.flatMap fun p => compareEvents s.params.degrade p (s.port p)⟩
      ∧ Compared s b (ps ++ l) t := by
  induction l generalizing ps v with
  | nil => exact ⟨v, rfl, by rw [List.append_nil]; exact h⟩
  | cons p l ih =>
    have new : p ∉ ps := fun mem => (List.nodup_append.1 once).2.2 p mem p List.mem_cons_self rfl
    obtain ⟨u, runs, next⟩ := h.next settled acts params new
    have list : ps ++ p :: l = (ps ++ [p]) ++ l := by rw [List.append_assoc]; rfl
    obtain ⟨t, rest, all⟩ := ih next (by rw [← list]; exact once)
    refine ⟨t, ?_, by rw [list]; exact all⟩
    rw [eachOut, runs, Out.mk_andThen _ rest]
    rfl

/-- The ports of an acting station, one by one: what follows the first is settled, and stands. -/
theorem eachOut_acting {s : State} (acts : s.acting = true) : ∃ u o t,
    Follows s u o ∧ SameUse u { s with ports := t.ports } ∧ SameUse o.st t
      ∧ Frame [.ports, .peers, .load, .line] s t
      ∧ (∀ q, t.port q = (s.port q).second s.params.degrade) ∧ s.Reports t
      ∧ eachOut portSecond allPorts s = ⟨t, compareEvents s.params.degrade 0 (s.port 0) ++ o.evs
        ++ (allPorts.drop 1).flatMap fun p => compareEvents s.params.degrade p (s.port p)⟩ := by
  have follows := settleView_follows s (s.comparedAt 0)
  have first := portSecond_acting (p := 0) acts
  generalize settleView s (s.comparedAt 0) = o at follows first
  have use : SameUse s (s.comparedAt 0) := sameUse_setPort ⟨usable_compared _ _, rfl, rfl, rfl⟩
  have cleared : SameUse o.st (o.st.clearedAt 0) := sameUse_setPort ⟨rfl, rfl, rfl, rfl⟩
  have ports (q : Port) : o.st.port q = (s.comparedAt 0).port q := port_of_ports (follows.frame.ports (by decide)) q
  have links (q : Port) : ((o.st.clearedAt 0).port q).link = (o.st.port q).link := by
    by_cases same : q = 0
    · rw [same, State.clearedAt, port_setPort]
    · rw [State.clearedAt, port_setPort_ne same]
  obtain ⟨content, now⟩ := linkContent_of_report cleared links
  have frame : Frame [.ports, .peers, .load, .line] s (o.st.clearedAt 0) :=
    ((setPort_frame 0 _ s).mono (by decide)).trans ((follows.frame.mono (by decide)).trans ((setPort_frame 0 _ _).mono (by decide)))
  have params : (o.st.clearedAt 0).params = s.params := frame.params (by decide)
  have loader : (o.st.clearedAt 0).loader = s.loader := frame.loader (by decide)
  have compared : Compared s (o.st.clearedAt 0) [0] (o.st.clearedAt 0) := by
    refine ⟨fun q => ?_, .refl _, .refl _ _, ?_⟩
    · by_cases same : q = 0
      · rw [same, if_pos (List.mem_singleton_self _), State.clearedAt, port_setPort, ports, State.comparedAt, port_setPort]
        rfl
      · rw [if_neg (by rw [List.mem_singleton]; exact same), State.clearedAt, port_setPort_ne same, ports,
          comparedAt_port_ne s same]
    · unfold State.Reports
      rw [content, now, cleared.mayNotify]
      exact follows.line
  obtain ⟨t, rest, all⟩ := eachOut_compared (cleared.settled follows.settled) (by rw [State.acting, loader]; exact acts) params
    compared (l := allPorts.drop 1) (by decide)
  have list : allPorts = 0 :: allPorts.drop 1 := by decide
  have each (q : Port) : t.port q = (s.port q).second s.params.degrade :=
    (all.port q).trans (if_pos (by rw [List.singleton_append, ← list]; exact mem_allPorts q))
  refine ⟨s.comparedAt 0, o, t, follows, ⟨fun q => ?_, rfl, rfl, rfl, rfl, rfl, rfl⟩, cleared.trans all.use,
    frame.trans (all.frame.mono (by decide)), each, all.reports, ?_⟩
  · have kept := ((cleared.trans all.use).ports q)
    rw [ports] at kept
    exact kept
  · rw [list, eachOut, first, Out.mk_andThen _ rest]
    rfl

end Sys2Proof.Machine
end


section
/-! The one-second event as a whole (O19). -/

namespace Sys2Proof.Machine

/-- `PeersFollow` reads the events of a command as a set. -/
theorem PeersFollow.congr {s t : State} {evs evs' : List Event} (h : PeersFollow s ⟨t, evs⟩) (same : ∀ e, e ∈ evs' ↔ e ∈ evs) :
    PeersFollow s ⟨t, evs'⟩ := by
  obtain ⟨slots, peers, events, up, cut, still, on, off, kept, ended, started, start, stop, link, quiet, -⟩ := h
  refine ⟨slots, peers, fun st => ?_, up, cut, still, ?_, ?_, kept, ended, started, ?_, ?_, link, quiet,
    (conclude_frame _).mono (by decide)⟩
  · obtain ⟨active, severed⟩ := events st
    exact ⟨(same _).trans active, (same _).trans severed⟩
  · exact (same _).trans on
  · exact (same _).trans off
  · exact (same _).trans start
  · exact (same _).trans stop

theorem Frame.narrow {a : Block} {l : List Block} {s t : State} (h : Frame (a :: l) s t) (k : a.same s t) : Frame l s t :=
  fun b hb => by
    by_cases same : b = a
    · rw [same]
      exact k
    · exact h b (by rw [List.mem_cons, not_or]; exact ⟨same, hb⟩)

/-- The time base at the one-second event. -/
def State.nextSecond (s : State) : TimeBase :=
  { s.time with now := s.timeAt s.time.secondDue, secondDue := s.time.secondDue + BitVec.ofNat 48 1000000 }

theorem raiseSecond_eq (s : State) : raiseSecond s = { s with time := s.nextSecond } := by
  unfold raiseSecond
  rw [reachTime_timeAt]
  rfl

theorem takeSecond_loading {s : State} (h : s.loader.phase = .loading) : takeSecond s = .of { s with time := s.nextSecond } := by
  unfold takeSecond
  rw [raiseSecond_eq]
  exact if_pos h

theorem takeSecond_later {s : State} (h : s.loader.phase ≠ .loading) :
    takeSecond s = (eachOut portSecond allPorts { s with time := s.nextSecond }).also startAging := by
  unfold takeSecond
  rw [raiseSecond_eq]
  exact if_neg h

/-! ## The events of the ports -/

/-- The events of all comparisons. -/
def State.comparisons (s : State) : List Event := allPorts.flatMap fun p => compareEvents s.params.degrade p (s.port p)

theorem mem_compareEvents {d : Nat} {p : Port} {u : PortUnit} {e : Event} : e ∈ compareEvents d p u ↔
    (e = ⟨.portDegraded, some p.val⟩ ∧ u.link = .up ∧ d ≤ u.badFrames.toNat)
      ∨ (e = ⟨.portUp, some p.val⟩ ∧ u.link = .degraded ∧ u.badFrames.toNat < d) := by
  unfold compareEvents
  split
  next h => simp [h]
  next h =>
    split
    next k => simp [k]
    next k => simp [h, k]

theorem portEvents_comparisons (s : State) : PortEvents s.comparisons := fun e mem => by
  obtain ⟨p, -, mem⟩ := List.mem_flatMap.1 mem
  exact portEvents_compare _ p _ e mem

theorem mem_comparisons {s : State} (p : Port) :
    ((⟨.portDegraded, some p.val⟩ : Event) ∈ s.comparisons ↔
        (s.port p).link = .up ∧ s.params.degrade ≤ (s.port p).badFrames.toNat)
      ∧ ((⟨.portUp, some p.val⟩ : Event) ∈ s.comparisons ↔
        (s.port p).link = .degraded ∧ (s.port p).badFrames.toNat < s.params.degrade) := by
  have one {a : EventSource} {q : Port} (h : (⟨a, some p.val⟩ : Event) = ⟨a, some q.val⟩) : q = p :=
    Fin.ext (Option.some.inj (congrArg Event.qual h)).symm
  constructor
  · refine List.mem_flatMap.trans ⟨?_, fun h => ⟨p, mem_allPorts p, mem_compareEvents.2 (.inl ⟨rfl, h⟩)⟩⟩
    rintro ⟨q, -, mem⟩
    rcases mem_compareEvents.1 mem with ⟨same, h⟩ | ⟨same, -⟩
    · exact one same ▸ h
    · exact absurd same (event_ne (by decide))
  · refine List.mem_flatMap.trans ⟨?_, fun h => ⟨p, mem_allPorts p, mem_compareEvents.2 (.inr ⟨rfl, h⟩)⟩⟩
    rintro ⟨q, -, mem⟩
    rcases mem_compareEvents.1 mem with ⟨same, -⟩ | ⟨same, h⟩
    · exact absurd same (event_ne (by decide))
    · exact one same ▸ h

/-! ## The command -/

/-- What the one-second event leaves of a port. -/
theorem second_eq (d : Nat) (u : PortUnit) : u.second d = { u with
    badFrames := 0
    link := if u.link = .up ∧ d ≤ u.badFrames.toNat then .degraded
      else if u.link = .degraded ∧ u.badFrames.toNat < d then .up else u.link } := rfl

theorem sameUse_startAging (s : State) : SameUse s (startAging s) :=
  ⟨fun _ => .refl _, rfl, rfl, rfl, rfl, rfl, rfl⟩

theorem startAging_frame (s : State) : Frame [.fwd] s (startAging s) := fun b hb => by
  cases b with
  | fwd => exact absurd (List.mem_singleton_self _) hb
  | _ => rfl

theorem takeSecond_acting {s : State} (acts : s.acting = true) :
    ∃ o, takeSecond s = o ∧ PeersFollow s o ∧ Frame [.ports, .time, .fwd, .peers, .load, .line] s o.st
      ∧ o.st.time = s.nextSecond ∧ o.st.fwd = { s.fwd with agingPos := 0, agingOn := true }
      ∧ (∀ q, o.st.port q = (s.port q).second s.params.degrade)
      ∧ ∀ e : Event, (e.source = .portUp ∨ e.source = .portDown ∨ e.source = .portDegraded) →
          (e ∈ o.evs ↔ e ∈ s.comparisons) := by
  let s1 : State := { s with time := s.nextSecond }
  obtain ⟨u, o, t, follows, before, after, frame, ports, reports, runs⟩ := eachOut_acting (s := s1) acts
  have awake : s.loader.phase ≠ .loading := fun h => by
    unfold State.acting at acts
    rw [h] at acts
    cases acts
  have fwd : (startAging t).fwd = { s.fwd with agingPos := 0, agingOn := true } :=
    congrArg (fun f : Forwarding => { f with agingPos := 0, agingOn := true }) (frame.fwd (by decide))
  have view : Follows s1 { s1 with ports := t.ports, fwd := { s1.fwd with agingPos := 0, agingOn := true } }
      ⟨startAging t, o.evs⟩ := by
    have back : Frame [.ports, .fwd] { s1 with ports := t.ports, fwd := { s1.fwd with agingPos := 0, agingOn := true } } s1 := by
      intro b hb
      cases b with
      | ports => exact absurd List.mem_cons_self hb
      | fwd => exact absurd (List.mem_cons_of_mem _ List.mem_cons_self) hb
      | _ => rfl
    have changes : Frame [.ports, .fwd, .peers, .load, .line]
        { s1 with ports := t.ports, fwd := { s1.fwd with agingPos := 0, agingOn := true } } (startAging t) :=
      (back.mono (by decide)).trans ((frame.mono (by decide)).trans ((startAging_frame t).mono (by decide)))
    exact follows.reported
      ⟨before.ports, before.peers, before.load, before.loader, before.params, before.time, before.conflict⟩
      (after.trans (sameUse_startAging t)) ((changes.narrow rfl).narrow fwd) (fun _ => Iff.rfl) reports
  have peers := peersFollow_of_follows (s := s) view rfl rfl rfl rfl rfl (portEvents_comparisons s)
  have split : s.comparisons = compareEvents s1.params.degrade 0 (s1.port 0)
      ++ (allPorts.drop 1).flatMap fun p => compareEvents s1.params.degrade p (s1.port p) := by
    have list : allPorts = 0 :: allPorts.drop 1 := by decide
    unfold State.comparisons
    rw [list]
    rfl
  have time : t.time = s.nextSecond := frame.time (by decide)
  refine ⟨_, rfl, ?_⟩
  rw [takeSecond_later awake, runs]
  refine ⟨peers.congr fun e => ?_, ?_, time, fwd,
    ports, fun e h => ?_⟩
  · rw [split]
    simp only [List.mem_append]
    constructor
    · rintro ((h | h) | h)
      · exact .inl (.inl h)
      · exact .inr h
      · exact .inl (.inr h)
    · rintro ((h | h) | h)
      · exact .inl (.inl h)
      · exact .inr h
      · exact .inl (.inr h)
  · exact ((frame_time _ s).mono (by decide)).trans ((frame.mono (by decide)).trans ((startAging_frame t).mono (by decide)))
  · have quiet := not_mem_settled follows h
    rw [split]
    show e ∈ (_ ++ o.evs) ++ _ ↔ e ∈ _ ++ _
    simp only [List.mem_append, quiet, or_false]

/-! ## FAILSAFE -/

theorem eachOut_resting {s : State} (rests : s.acting = false) {l : List Port} (once : l.Nodup) :
    ∃ t, eachOut portSecond l s = .of t ∧ Frame [.ports] s t
      ∧ ∀ q, t.port q = if q ∈ l then { s.port q with badFrames := 0 } else s.port q := by
  induction l generalizing s with
  | nil => exact ⟨s, rfl, .refl _ _, fun q => (if_neg List.not_mem_nil).symm⟩
  | cons p l ih =>
    obtain ⟨new, once⟩ := List.nodup_cons.1 once
    obtain ⟨t, runs, frame, ports⟩ := ih (s := s.clearedAt p) rests once
    refine ⟨t, ?_, (setPort_frame p _ s).trans frame, fun q => ?_⟩
    · rw [eachOut, portSecond_resting rests, Out.of_andThen, runs]
    · rw [ports]
      by_cases same : q = p
      · rw [same, if_neg new, if_pos List.mem_cons_self, State.clearedAt, port_setPort]
      · rw [State.clearedAt, port_setPort_ne same]
        simp only [List.mem_cons, same, false_or]

theorem takeSecond_resting {s : State} (awake : s.loader.phase ≠ .loading) (rests : s.acting = false) :
    ∃ t, takeSecond s = .of t ∧ Frame [.ports, .time, .fwd] s t ∧ t.time = s.nextSecond
      ∧ t.fwd = { s.fwd with agingPos := 0, agingOn := true } ∧ ∀ q, t.port q = { s.port q with badFrames := 0 } := by
  obtain ⟨t, runs, frame, ports⟩ := eachOut_resting (s := { s with time := s.nextSecond }) rests (l := allPorts) (by decide)
  refine ⟨startAging t, ?_, ((frame_time _ s).mono (by decide)).trans
    ((frame.mono (by decide)).trans ((startAging_frame t).mono (by decide))), frame.time (by decide),
    congrArg (fun f : Forwarding => { f with agingPos := 0, agingOn := true }) (frame.fwd (by decide)), fun q =>
      (ports q).trans (if_pos (mem_allPorts q))⟩
  rw [takeSecond_later awake, runs]
  rfl

/-- Settles O19. The hold expiry is a change of one port (`portChanged`); at the one-second event a port that turns from UP to
DEGRADED or back stays usable, so that all ports together follow as the first does (`eachOut_acting`). -/
theorem portTimersAndTheSecond : Obligations.PortTimersAndTheSecond := by
  unfold Obligations.PortTimersAndTheSecond
  refine ⟨fun s p => ⟨fun idle => ?_, fun u running => holdExpiry_ends running⟩,
    fun s p => ⟨fun idle => ?_, fun u running => decayExpiry_sheds running⟩, fun s => ?_⟩
  · exact (congrArg done (expireHold_of_none idle)).trans (done_of s)
  · exact (congrArg (fun t => done (.of t)) (expireDecay_of_none idle)).trans (done_of s)
  · intro tb
    refine ⟨fun loading => (congrArg done (takeSecond_loading loading)).trans (done_of _), fun awake => ?_⟩
    cases acts : s.acting with
    | true =>
      obtain ⟨o, runs, follow, frame, time, fwd, ports, events⟩ := takeSecond_acting acts
      have wrap := conclude_frame o
      refine ⟨o, conclude o, (congrArg done runs).trans (done_eq o), rfl, (wrap.time (by decide)).trans time, fun _ => follow,
        fun h => absurd h (by decide), fun p => ?_, (frame.mono (by decide)).trans (wrap.mono (by decide)),
        (wrap.fwd (by decide)).trans fwd, fun p => ?_⟩
      · obtain ⟨falls, rises⟩ := mem_comparisons (s := s) p
        refine ⟨(events _ (.inr (.inr rfl))).trans ?_, (events _ (.inl rfl)).trans ?_⟩
        · simpa using falls
        · simpa using rises
      · rw [port_of_ports (wrap.ports (by decide)), ports, second_eq]
        simp only [true_and]
    | false =>
      obtain ⟨t, runs, frame, time, fwd, ports⟩ := takeSecond_resting awake acts
      refine ⟨.of t, t, (congrArg done runs).trans (done_of t), rfl, time, fun h => absurd h (by decide), fun _ => frame, fun p => ?_,
        frame.mono (by decide), fwd, fun p => ?_⟩
      · constructor
        · simp [Out.of]
        · simp [Out.of]
      · rw [ports]
        simp

end Sys2Proof.Machine
end


section
/-! HOLD_EXPORT, HALT_EXPORT and RESUME_EXPORT (O42). -/

namespace Sys2Proof.Machine

/-! ## Slot 7 after a channel's RECORD has left it -/

/-- The other channel's message, and only that one, may enter slot 7 once channel `c` has none. -/
theorem fillRecord_left {s : State} {c : Fin 2} (gone : (s.chan c).outstanding = none) (free : s.line.wRecord = none) :
    ((∀ o, ¬ (s.chan (1 - c)).mayEnter o) → (fillRecord s).line.wRecord = none)
      ∧ ∀ o, (s.chan (1 - c)).mayEnter o → s.mayNotify = true → s.line.sending 7 = false →
        (fillRecord s).line.wRecord = some
          { dst := (s.chan (1 - c)).dst, body := .record (1 - c) (s.chan (1 - c)).source o.seq o.records } := by
  have mine (o : Outstanding) : ¬ (s.chan c).mayEnter o := fun h => by
    have ready := h.1
    rw [gone] at ready
    cases ready
  refine ⟨fun other => ?_, fun o ready notify idle => ?_⟩
  · have nobody : ∀ d o, ¬ (s.chan d).mayEnter o := fun d o => by
      rcases eq_or_other d c with rfl | rfl
      · exact mine o
      · exact other o
    rw [fillRecord_of_not (.inr (.inr (.inr nobody)))]
    exact free
  · have next : s.nextRecord = some (1 - c) := nextRecord_of_mayEnter ready (.inl fun o' => by
      rw [other_other]
      exact mine o')
    rw [fillRecord_of_nextRecord notify free idle next ready.1]
    rfl

/-- What making an END ready leaves of every channel. -/
theorem readyEnd_rest (c d : Fin 2) (s : State) :
    (readyEnd c s).chan d = { s.chan d with pendingEnd := ((readyEnd c s).chan d).pendingEnd } := by
  have entered (u : State) : (fillEnd u).chan d = { u.chan d with pendingEnd := ((fillEnd u).chan d).pendingEnd } := by
    rcases fillEnd_chan u d with e | e
    · rw [e]
    · rw [e]
      rfl
  by_cases h : ∃ causes, (s.chan c).awaitsEnd causes
  · obtain ⟨causes, h⟩ := h
    have before : (s.endReady c causes).chan d = { s.chan d with pendingEnd := ((s.endReady c causes).chan d).pendingEnd } := by
      rcases eq_or_other d c with rfl | rfl
      · rw [chan_endReady]
      · rw [chan_endReady_ne (other_ne c)]
    have after := entered (s.endReady c causes)
    rw [readyEnd_of_awaits h]
    generalize ((fillEnd (s.endReady c causes)).chan d) = y at *
    rw [after, before]
  · rw [readyEnd_of_not (not_exists.1 h)]

/-! ## The records of a channel return to its mark (R175, R136) -/

theorem sending_of_recordOnLine {s : State} {c : Fin 2} (h : s.recordOnLine c = true) : s.line.sending 7 = true := by
  unfold State.recordOnLine at h
  obtain ⟨m, on, record⟩ := (Option.any_eq_true _ _).1 h
  have cls : m.body.cls = 7 := by
    cases body : m.body with
    | record d n q l => rfl
    | _ =>
      rw [body] at record
      cases record
  unfold GroupLine.sending
  rw [on, Option.map_some, cls]
  rfl

theorem frame_lineChans {s t : State} {l : GroupLine} {ch : Channels} (h : t = { s with line := l, chans := ch }) :
    Frame [.line, .chans] s t := fun b hb => by
  rw [h]
  cases b with
  | line => exact absurd List.mem_cons_self hb
  | chans => exact absurd (List.mem_cons_of_mem _ List.mem_cons_self) hb
  | _ => rfl

/-- A channel whose message is not on the line goes back to its mark; a message in slot 7 is removed. -/
theorem returnRecords_back {c : Fin 2} {s : State} (h : (s.chan c).outstanding = none ∨ s.recordOnLine c = false) :
    ∃ w, returnRecords c s = setChan c Channel.toMark { s with line := { s.line with wRecord := w } }
      ∧ ∀ o, (s.chan c).outstanding = some o → o.inSlot = true → w = none := by
  unfold returnRecords
  cases out : (s.chan c).outstanding with
  | none => exact ⟨s.line.wRecord, rfl, fun o ho => absurd ho (by simp)⟩
  | some o =>
    have off := h.resolve_left (by rw [out]; simp)
    dsimp only
    rw [if_neg (by rw [off]; decide)]
    cases slot : o.inSlot with
    | true =>
      rw [if_pos rfl]
      exact ⟨none, rfl, fun _ _ _ => rfl⟩
    | false =>
      rw [if_neg (by decide)]
      refine ⟨s.line.wRecord, rfl, fun o' ho' slot' => ?_⟩
      cases ho'
      exact absurd (slot.symm.trans slot') (by decide)

/-- A message on the line is asked back. -/
theorem returnRecords_asks {c : Fin 2} {s : State} {o : Outstanding} (out : (s.chan c).outstanding = some o)
    (on : s.recordOnLine c = true) :
    returnRecords c s = askWithdrawal (setChan c (fun x => { x with building := [] }) s) := by
  unfold returnRecords
  rw [out]
  exact if_pos on

/-- The RECORD of channel `c` leaves slot 7, which the other channel's message may then enter. -/
def State.LeavesSlot (s : State) (c : Fin 2) (t : State) : Prop :=
  ∀ o, (s.chan c).outstanding = some o → o.inSlot = true → s.recordOnLine c = false →
    ((∀ o', ¬ (s.chan (1 - c)).mayEnter o') → t.line.wRecord = none)
      ∧ ∀ o', (s.chan (1 - c)).mayEnter o' → s.line.sending 7 = false →
        t.line.wRecord = some
          { dst := (s.chan (1 - c)).dst, body := .record (1 - c) (s.chan (1 - c)).source o'.seq o'.records }

theorem recordOnLine_setChan (c d : Fin 2) (f : Channel → Channel) (s : State) :
    (setChan c f s).recordOnLine d = s.recordOnLine d := rfl

/-- The channel of a held run. -/
def Channel.held (x : Channel) : Channel := { x with state := .held }

theorem holdChannel_eq (c : Fin 2) (s : State) : holdChannel c s = fillRecord (returnRecords c (setChan c Channel.held s)) := rfl

theorem outstanding_held {c : Fin 2} {s : State} :
    ((setChan c Channel.held s).chan c).outstanding = (s.chan c).outstanding := by
  rw [chan_setChan]
  rfl

/-! ## HOLD (R175) -/

/-- A held channel whose message is not on the line. -/
theorem holdChannel_back {c : Fin 2} {s : State} (notify : s.mayNotify = true)
    (h : (s.chan c).outstanding = none ∨ s.recordOnLine c = false) :
    (holdChannel c s).chan c = { (s.chan c).back with state := .held } ∧ s.LeavesSlot c (holdChannel c s)
      ∧ (holdChannel c s).line.answers = s.line.answers := by
  obtain ⟨w, returned, slot⟩ := returnRecords_back (c := c) (s := setChan c Channel.held s)
    (by rw [outstanding_held, recordOnLine_setChan]; exact h)
  rw [outstanding_held] at slot
  rw [holdChannel_eq, returned]
  have here : (setChan c Channel.toMark { setChan c Channel.held s with
      line := { s.line with wRecord := w } }).chan c = { (s.chan c).back with state := .held } := by
    rw [chan_setChan]
    show ((setChan c Channel.held s).chan c).toMark = _
    rw [chan_setChan]
    rfl
  have there : (setChan c Channel.toMark { setChan c Channel.held s with
      line := { s.line with wRecord := w } }).chan (1 - c) = s.chan (1 - c) := by
    rw [chan_setChan_ne (other_ne c)]
    exact chan_setChan_ne (other_ne c) Channel.held s
  have gone : ((setChan c Channel.toMark { setChan c Channel.held s with
      line := { s.line with wRecord := w } }).chan c).outstanding = none := by rw [here]; rfl
  refine ⟨((fillRecord_chan _ c).idle gone).trans here, fun o out inSlot off => ?_, by rw [fillRecord_line]; rfl⟩
  obtain ⟨none, other⟩ := fillRecord_left gone (slot o out inSlot)
  rw [there] at none other
  exact ⟨none, fun o' ready idle => other o' ready notify idle⟩

/-- A held channel whose message is on the line: it is asked back. -/
theorem holdChannel_asks {c : Fin 2} {s : State} {o : Outstanding} (out : (s.chan c).outstanding = some o)
    (on : s.recordOnLine c = true) :
    (holdChannel c s).chan c = { s.chan c with state := .held, building := [] }
      ∧ (holdChannel c s).line = { s.line with onLine := s.line.onLine.map fun m => { m with withdrawn := true } } := by
  have returned := returnRecords_asks (c := c) (s := setChan c Channel.held s)
    (by rw [outstanding_held]; exact out) on
  rw [holdChannel_eq, returned]
  have busy : (askWithdrawal (setChan c (fun x => { x with building := [] })
      (setChan c Channel.held s))).line.sending 7 = true := by
    show Option.map _ (Option.map _ s.line.onLine) == some 7
    rw [Option.map_map]
    exact sending_of_recordOnLine on
  rw [fillRecord_of_not (.inr (.inr (.inl busy)))]
  refine ⟨?_, rfl⟩
  show (setChan c (fun x => { x with building := [] }) (setChan c Channel.held s)).chan c = _
  rw [chan_setChan, chan_setChan]
  rfl

/-! ## HALT (R176) -/

/-- The channel of a halted run, its records returned. -/
def Channel.halted (x : Channel) : Channel := { x with state := .idle, pendingEnd := some ⟨{ halted := true }, .prepared⟩ }

theorem haltChannel_eq (c : Fin 2) (s : State) : haltChannel c s = fillRecord (readyEnd c (setChan c Channel.halted
    (if (s.chan c).state = .running then returnRecords c s else s))) := rfl

/-- A halted channel without a message: its END is made ready. -/
theorem halted_served {c : Fin 2} {u : State} (gone : (u.chan c).outstanding = none) :
    let t := fillRecord (readyEnd c (setChan c Channel.halted u))
    (∃ e : PendingEnd, e.causes = { halted := true } ∧ e.stage ≠ .prepared
        ∧ t.chan c = { u.chan c with state := .idle, pendingEnd := some e })
      ∧ t.line.answers = u.line.answers := by
  intro t
  have here : (setChan c Channel.halted u).chan c = (u.chan c).halted := chan_setChan c _ u
  have awaits : ((setChan c Channel.halted u).chan c).awaitsEnd { halted := true } := by
    rw [here]
    exact ⟨rfl, gone⟩
  have served := served_chan c (setChan c Channel.halted u)
  obtain ⟨stage, ne, ended⟩ := served.ended _ awaits
  obtain ⟨out, used⟩ := served.idle awaits.2
  refine ⟨⟨⟨{ halted := true }, stage⟩, rfl, ne, ?_⟩, by rw [served_line]; rfl⟩
  have rest := served.rest
  rw [ended, out, used, here] at rest
  rw [rest]
  show ({ u.chan c with state := .idle, pendingEnd := _, outstanding := none } : Channel) = _
  rw [← gone]

/-- The END of a halted channel leaves slot 7 to the other channel. -/
theorem halted_left {c : Fin 2} {u : State} (gone : (u.chan c).outstanding = none) (free : u.line.wRecord = none) :
    let t := fillRecord (readyEnd c (setChan c Channel.halted u))
    ((∀ o, ¬ (u.chan (1 - c)).mayEnter o) → t.line.wRecord = none)
      ∧ ∀ o, (u.chan (1 - c)).mayEnter o → u.mayNotify = true → u.line.sending 7 = false →
        t.line.wRecord = some
          { dst := (u.chan (1 - c)).dst, body := .record (1 - c) (u.chan (1 - c)).source o.seq o.records } := by
  intro t
  have mine := readyEnd_rest c c (setChan c Channel.halted u)
  have other := readyEnd_rest c (1 - c) (setChan c Channel.halted u)
  have line := readyEnd_line c (setChan c Channel.halted u)
  have loader : (readyEnd c (setChan c Channel.halted u)).loader = u.loader :=
    (readyEnd_frame c _).loader (by decide)
  rw [chan_setChan] at mine
  rw [chan_setChan_ne (other_ne c)] at other
  obtain ⟨none, enter⟩ := fillRecord_left (s := readyEnd c (setChan c Channel.halted u)) (c := c)
    (by rw [mine]; exact gone) (by rw [line]; exact free)
  have same (o : Outstanding) : ((readyEnd c (setChan c Channel.halted u)).chan (1 - c)).mayEnter o ↔ (u.chan (1 - c)).mayEnter o := by
    rw [other]
    rfl
  refine ⟨fun nobody => none fun o h => nobody o ((same o).1 h), fun o ready notify idle => ?_⟩
  have entered := enter o ((same o).2 ready)
    (by rw [mayNotify_iff] at notify ⊢; rw [State.acting, loader, line]; exact notify) (by rw [line]; exact idle)
  rw [other] at entered
  exact entered

theorem haltChannel_back {c : Fin 2} {s : State} (notify : s.mayNotify = true)
    (h : (s.chan c).outstanding = none ∨ ((s.chan c).state = .running ∧ s.recordOnLine c = false)) :
    (∃ e : PendingEnd, e.causes = { halted := true } ∧ e.stage ≠ .prepared
        ∧ (haltChannel c s).chan c =
          { (if (s.chan c).state = .running then (s.chan c).back else s.chan c) with state := .idle, pendingEnd := some e })
      ∧ ((s.chan c).state = .running → s.LeavesSlot c (haltChannel c s))
      ∧ (haltChannel c s).line.answers = s.line.answers := by
  rw [haltChannel_eq]
  by_cases run : (s.chan c).state = .running
  · obtain ⟨w, returned, slot⟩ := returnRecords_back (h.imp_right And.right)
    rw [if_pos run, if_pos run, returned]
    have here : (setChan c Channel.toMark { s with line := { s.line with wRecord := w } }).chan c = (s.chan c).back :=
      chan_setChan c _ _
    have there : (setChan c Channel.toMark { s with line := { s.line with wRecord := w } }).chan (1 - c) = s.chan (1 - c) :=
      chan_setChan_ne (other_ne c) _ _
    have gone : ((setChan c Channel.toMark { s with line := { s.line with wRecord := w } }).chan c).outstanding = none := by
      rw [here]
      rfl
    obtain ⟨ended, answers⟩ := halted_served gone
    rw [here] at ended
    refine ⟨ended, fun _ o out inSlot off => ?_, answers⟩
    obtain ⟨none, enter⟩ := halted_left gone (slot o out inSlot)
    rw [there] at none enter
    exact ⟨none, fun o' ready idle => enter o' ready notify idle⟩
  · rw [if_neg run, if_neg run]
    obtain ⟨ended, answers⟩ := halted_served (h.resolve_right fun k => run k.1)
    exact ⟨ended, fun k => absurd k run, answers⟩

theorem haltChannel_asks {c : Fin 2} {s : State} {o : Outstanding} (run : (s.chan c).state = .running)
    (out : (s.chan c).outstanding = some o) (on : s.recordOnLine c = true) :
    (haltChannel c s).chan c =
        { s.chan c with state := .idle, building := [], pendingEnd := some ⟨{ halted := true }, .prepared⟩ }
      ∧ (haltChannel c s).line.answers = s.line.answers := by
  rw [haltChannel_eq, if_pos run, returnRecords_asks out on]
  have here : (setChan c Channel.halted (askWithdrawal (setChan c (fun x => { x with building := [] }) s))).chan c =
      { s.chan c with state := .idle, building := [], pendingEnd := some ⟨{ halted := true }, .prepared⟩ } := by
    rw [chan_setChan]
    show Channel.halted ((setChan c (fun x => { x with building := [] }) s).chan c) = _
    rw [chan_setChan]
    rfl
  have kept : readyEnd c (setChan c Channel.halted (askWithdrawal (setChan c (fun x => { x with building := [] }) s)))
      = setChan c Channel.halted (askWithdrawal (setChan c (fun x => { x with building := [] }) s)) := by
    refine readyEnd_of_not fun causes awaits => ?_
    have none := awaits.2
    rw [here] at none
    exact absurd (out.symm.trans none) (by simp)
  have busy : (setChan c Channel.halted (askWithdrawal (setChan c (fun x => { x with building := [] }) s))).line.sending 7
      = true := by
    show Option.map _ (Option.map _ s.line.onLine) == some 7
    rw [Option.map_map]
    exact sending_of_recordOnLine on
  rw [kept, fillRecord_of_not (.inr (.inr (.inl busy)))]
  exact ⟨here, rfl⟩

/-! ## RESUME (R177) -/

/-- A run over no more records ends at once with EXHAUSTED. -/
theorem produce_exhausted {c : Fin 2} {s : State} {resumed : Bool} (run : (s.chan c).state = .running)
    (out : (s.chan c).outstanding = none) (nothing : (s.sourceRecords (s.chan c)).length ≤ (s.chan c).cursor)
    (empty : (s.chan c).building = []) :
    ∃ t e, produce resumed c s = .of t ∧ Frame [.line, .chans] s t ∧ t.line.answers = s.line.answers
      ∧ e.causes.exhausted = true
      ∧ t.chan c = { s.chan c with state := .idle, mark := (s.chan c).markNow, pendingEnd := some e } := by
  have produced := produce_of_running (resumed := resumed) run out
  dsimp only at produced
  rw [List.drop_of_length_le nothing] at produced
  let x := { s.chan c with mark := (s.chan c).markNow }
  let causes : Causes := { x.causesNow (s.sourceRecords (s.chan c)).length with exhausted := true }
  let u := setChan c (fun _ => x.terminate causes) s
  have ended : x.terminate causes = { x with state := .idle, pendingEnd := some ⟨causes, .prepared⟩ } := by
    unfold Channel.terminate
    rw [if_pos (show x.building = [] from empty)]
    rfl
  have here : u.chan c = { x with state := .idle, pendingEnd := some ⟨causes, .prepared⟩ } := (chan_setChan c _ s).trans ended
  have awaits : (u.chan c).awaitsEnd causes := by
    rw [here]
    exact ⟨rfl, out⟩
  have served := served_chan c u
  obtain ⟨stage, -, pending⟩ := served.ended causes awaits
  obtain ⟨idle, used⟩ := served.idle awaits.2
  refine ⟨fillRecord (readyEnd c u), ⟨causes, stage⟩, produced,
    ((setChan_frame c _ s).mono (by decide)).trans (served_frame c u), by rw [served_line]; rfl, rfl, ?_⟩
  have rest := served.rest
  rw [pending, idle, used, here] at rest
  rw [rest]
  show ({ s.chan c with mark := _, state := .idle, pendingEnd := _, outstanding := none } : Channel) = _
  rw [← out]

/-! ## The orders -/

theorem settling_iff {x : Channel} : x.settling = true ↔
    x.state ≠ .running ∧ (x.outstanding.isSome = true ∨ x.pendingEnd.isSome = true) := by
  simp [Channel.settling]

section

variable {s : State} {ps : List Byte} {c : Fin 2}

theorem orderHalt_of_none (h : readChan ps = none) : orderHalt ps s = refuse .badParameter s := by
  unfold orderHalt
  rw [h]

theorem orderHold_of_none (h : readChan ps = none) : orderHold ps s = refuse .badParameter s := by
  unfold orderHold
  rw [h]

theorem orderResume_of_none (h : readChan ps = none) : orderResume ps s = refuse .badParameter s := by
  unfold orderResume
  rw [h]

theorem orderHalt_of_some (h : readChan ps = some c) : orderHalt ps s =
    if (s.chan c).settling then refuse .busy s
    else if (s.chan c).state = .idle then refuse .wrongState s
    else accept .none (.of (haltChannel c s)) := by
  unfold orderHalt
  rw [h]

theorem orderHold_of_some (h : readChan ps = some c) : orderHold ps s =
    if (s.chan c).state = .running then accept (.chanState .held) (.of (holdChannel c s)) else refuse .wrongState s := by
  unfold orderHold
  rw [h]

theorem orderResume_of_some (h : readChan ps = some c) : orderResume ps s =
    if (s.chan c).settling then refuse .busy s
    else if (s.chan c).state = .idle ∨ (s.chan c).state = .running then refuse .wrongState s
    else accept .none (produce true c (setChan c (fun x => { x with state := .running, sent := 0 }) s)) := by
  unfold orderResume
  rw [h]

end

section

variable {s : State} {src dst : Station} {tag : BitVec 16} {ps : List Byte} {kind : Byte} {r : Reason}

theorem chan_refreshHeard (src : Station) (s : State) (c : Fin 2) : (refreshHeard src s).chan c = s.chan c := by
  unfold State.chan
  rw [(refreshHeard_frame src s).chans (by decide)]

theorem mayNotify_of_carriesOut (h : s.carriesOut kind src dst ps) (k7 : kind ≠ 7) (k8 : kind ≠ 8) : s.mayNotify = true := by
  obtain ⟨loaded, -, -, -, -, -, -, -, -, ready⟩ := h
  obtain ⟨safe, conflict⟩ := (ready.resolve_left k7).resolve_left k8
  refine mayNotify_iff.2 ⟨?_, conflict⟩
  unfold State.acting
  cases phase : s.loader.phase with
  | loading => exact absurd phase loaded
  | failsafe => exact absurd phase safe
  | joining => rfl
  | running => rfl

theorem accepted_of {d : AnswerData} {t : State} (h : s.carriesOut kind src dst ps) (known : 1 ≤ kind.toNat ∧ kind.toNat ≤ 8)
    (rule : orderRule kind ps (refreshHeard src s) = accept d (.of t)) :
    done (receiveOrder kind src dst tag ps s) = .next (t.answered (answerTo src kind tag none d)) :=
  (receiveOrder_accepted h known rule).trans (done_of _)

theorem chan_answered (s : State) (m : TxMsg) (c : Fin 2) : (s.answered m).chan c = s.chan c := rfl

theorem answered_frame (s : State) (m : TxMsg) : Frame [.line] s (s.answered m) := frame_line _ s

theorem leavesSlot_answered {c : Fin 2} {t : State} (h : (refreshHeard src s).LeavesSlot c t) (m : TxMsg) :
    s.LeavesSlot c (t.answered m) := by
  have chan := chan_refreshHeard src s
  have line := (refreshHeard_frame src s).line (by decide)
  unfold State.LeavesSlot State.recordOnLine at h ⊢
  rw [chan, chan, line] at h
  exact h

end

end Sys2Proof.Machine
end


section
/-! The channel orders as received (O42). -/

namespace Sys2Proof.Machine

/-! ## The obligation, order by order -/

section

variable {s : State} {src dst : Station} {tag : BitVec 16} {ps : List Byte} {c : Fin 2}

theorem exec_haltExport : exec (.haltExport src dst tag ps) s = done (receiveOrder 2 src dst tag ps s) := rfl

theorem exec_holdExport : exec (.holdExport src dst tag ps) s = done (receiveOrder 3 src dst tag ps s) := rfl

theorem exec_resumeExport : exec (.resumeExport src dst tag ps) s = done (receiveOrder 4 src dst tag ps s) := rfl

theorem hold_frame (c : Fin 2) (m : TxMsg) : Frame [.peers, .line, .chans] s ((holdChannel c (refreshHeard src s)).answered m) :=
  ((refreshHeard_frame src s).mono (by decide)).trans (((holdChannel_frame c _).mono (by decide)).trans
    ((answered_frame _ m).mono (by decide)))

theorem halt_frame (c : Fin 2) (m : TxMsg) : Frame [.peers, .line, .chans] s ((haltChannel c (refreshHeard src s)).answered m) :=
  ((refreshHeard_frame src s).mono (by decide)).trans (((haltChannel_frame c _).mono (by decide)).trans
    ((answered_frame _ m).mono (by decide)))

theorem mayNotify_of_refreshed (h : s.mayNotify = true) : (refreshHeard src s).mayNotify = true := by
  rw [mayNotify_refreshHeard]
  exact h

theorem holdExport_runs (carries : s.carriesOut 3 src dst ps) (chan : readChan ps = some c)
    (run : (s.chan c).state = .running) :
    ∃ t, exec (.holdExport src dst tag ps) s = .next t ∧ Frame [.peers, .line, .chans] s t ∧ s.LeavesSlot c t
      ∧ t.line.answers = (refreshHeard src s).line.answers ++ [answerTo src 3 tag none (.chanState .held)]
      ∧ (((s.chan c).outstanding = none ∨ s.recordOnLine c = false) → t.chan c = { (s.chan c).back with state := .held })
      ∧ ∀ o, (s.chan c).outstanding = some o → s.recordOnLine c = true →
          t.chan c = { s.chan c with state := .held, building := [] }
          ∧ t.line.onLine = s.line.onLine.map fun m => { m with withdrawn := true } := by
  have heard := chan_refreshHeard src s
  have line := (refreshHeard_frame src s).line (by decide)
  have recordOnLine : (refreshHeard src s).recordOnLine c = s.recordOnLine c := by
    unfold State.recordOnLine
    rw [line]
  have notify := mayNotify_of_refreshed (src := src) (mayNotify_of_carriesOut carries (by decide) (by decide))
  have rule : orderRule 3 ps (refreshHeard src s) =
      accept (.chanState .held) (.of (holdChannel c (refreshHeard src s))) :=
    (orderHold_of_some chan).trans (if_pos (by rw [heard]; exact run))
  refine ⟨_, exec_holdExport.trans (accepted_of carries (by decide) rule), hold_frame c _, ?_⟩
  by_cases on : (s.chan c).outstanding = none ∨ s.recordOnLine c = false
  · obtain ⟨here, leaves, answers⟩ := holdChannel_back (c := c) notify (by rw [heard, recordOnLine]; exact on)
    rw [heard] at here
    refine ⟨leavesSlot_answered leaves _, congrArg (· ++ _) answers, fun _ => here, fun o out busy => ?_⟩
    rcases on with none | off
    · exact absurd (none.symm.trans out) (by simp)
    · exact absurd (off.symm.trans busy) (by decide)
  · obtain ⟨some, busy⟩ := not_or.1 on
    obtain ⟨o, out⟩ := Option.ne_none_iff_exists'.1 some
    have busy := Bool.eq_true_of_not_eq_false busy
    obtain ⟨here, taken⟩ := holdChannel_asks (s := refreshHeard src s) (c := c) (by rw [heard]; exact out) (by rw [recordOnLine]; exact busy)
    rw [heard] at here
    refine ⟨fun _ _ _ off => absurd (off.symm.trans busy) (by decide), ?_, fun k => absurd k on, fun _ _ _ => ⟨here, ?_⟩⟩
    · show (holdChannel c (refreshHeard src s)).line.answers ++ _ = _
      rw [taken]
    · show (holdChannel c (refreshHeard src s)).line.onLine = _
      rw [taken, line]

theorem haltExport_runs (carries : s.carriesOut 2 src dst ps) (chan : readChan ps = some c)
    (settled : (s.chan c).settling = false) (busy : (s.chan c).state ≠ .idle) :
    ∃ t, exec (.haltExport src dst tag ps) s = .next t ∧ Frame [.peers, .line, .chans] s t
      ∧ ((s.chan c).state = .running → s.LeavesSlot c t)
      ∧ t.line.answers = (refreshHeard src s).line.answers ++ [answerTo src 2 tag none .none]
      ∧ (((s.chan c).state ≠ .running ∨ (s.chan c).outstanding = none ∨ s.recordOnLine c = false) →
          ∃ e : PendingEnd, e.causes = { halted := true } ∧ e.stage ≠ .prepared
            ∧ t.chan c = { (if (s.chan c).state = .running then (s.chan c).back else s.chan c) with
                state := .idle, pendingEnd := some e })
      ∧ ∀ o, (s.chan c).state = .running → (s.chan c).outstanding = some o → s.recordOnLine c = true →
          t.chan c = { s.chan c with
            state := .idle, building := [], pendingEnd := some ⟨{ halted := true }, .prepared⟩ } := by
  have heard := chan_refreshHeard src s
  have line := (refreshHeard_frame src s).line (by decide)
  have recordOnLine : (refreshHeard src s).recordOnLine c = s.recordOnLine c := by
    unfold State.recordOnLine
    rw [line]
  have notify := mayNotify_of_refreshed (src := src) (mayNotify_of_carriesOut carries (by decide) (by decide))
  have rule : orderRule 2 ps (refreshHeard src s) = accept .none (.of (haltChannel c (refreshHeard src s))) :=
    (orderHalt_of_some chan).trans (by rw [heard, settled, if_neg (by decide), if_neg busy])
  have quiet (h : (s.chan c).state ≠ .running) : (s.chan c).outstanding = none := by
    cases out : (s.chan c).outstanding with
    | none => rfl
    | some o => exact absurd (settling_iff.2 ⟨h, .inl (by rw [out]; rfl)⟩) (by rw [settled]; decide)
  refine ⟨_, exec_haltExport.trans (accepted_of carries (by decide) rule), halt_frame c _, ?_⟩
  by_cases on : (s.chan c).outstanding = none ∨ ((s.chan c).state = .running ∧ s.recordOnLine c = false)
  · obtain ⟨ended, leaves, answers⟩ := haltChannel_back (c := c) notify (by rw [heard, recordOnLine]; exact on)
    rw [heard] at ended leaves
    generalize haltChannel c (refreshHeard src s) = t at ended leaves answers
    refine ⟨fun run => leavesSlot_answered (leaves run) _, congrArg (· ++ _) answers, fun _ => ended, fun o run out busy => ?_⟩
    rcases on with none | ⟨-, off⟩
    · exact absurd (none.symm.trans out) (by simp)
    · exact absurd (off.symm.trans busy) (by decide)
  · obtain ⟨some, online⟩ := not_or.1 on
    obtain ⟨o, out⟩ := Option.ne_none_iff_exists'.1 some
    have run : (s.chan c).state = .running := not_not.1 fun k => some (quiet k)
    have online := Bool.eq_true_of_not_eq_false fun off => online ⟨run, off⟩
    obtain ⟨here, answers⟩ := haltChannel_asks (s := refreshHeard src s) (c := c) (by rw [heard]; exact run) (by rw [heard]; exact out)
      (by rw [recordOnLine]; exact online)
    rw [heard] at here
    generalize haltChannel c (refreshHeard src s) = t at here answers
    refine ⟨fun _ _ _ _ off => absurd (off.symm.trans online) (by decide), congrArg (· ++ _) answers, fun k => ?_,
      fun _ _ _ _ => here⟩
    rcases k with k | k | k
    · exact absurd run k
    · exact absurd k some
    · exact absurd (k.symm.trans online) (by decide)

theorem resumeExport_runs (carries : s.carriesOut 4 src dst ps) (chan : readChan ps = some c)
    (settled : (s.chan c).settling = false) (state : (s.chan c).state = .held ∨ (s.chan c).state = .stopped) :
    let o := produce true c (setChan c (fun _ => { s.chan c with state := .running, sent := 0 }) (refreshHeard src s))
    exec (.resumeExport src dst tag ps) s = .next (conclude ⟨o.st.answered (answerTo src 4 tag none .none), o.evs⟩) := by
  intro o
  have heard := chan_refreshHeard src s c
  have other : ¬ ((s.chan c).state = .idle ∨ (s.chan c).state = .running) := by
    rcases state with k | k
    · rw [k]
      decide
    · rw [k]
      decide
  have start : setChan c (fun x => { x with state := .running, sent := 0 }) (refreshHeard src s) =
      setChan c (fun _ => { s.chan c with state := .running, sent := 0 }) (refreshHeard src s) := by
    rw [setChan_const, heard]
  have rule : orderRule 4 ps (refreshHeard src s) = accept .none o := by
    refine (orderResume_of_some chan).trans ?_
    rw [heard, settled, if_neg (by decide), if_neg other, start]
  exact exec_resumeExport.trans ((receiveOrder_accepted carries (by decide) rule).trans (done_eq _))

theorem resumeExport_exhausted (carries : s.carriesOut 4 src dst ps) (chan : readChan ps = some c)
    (settled : (s.chan c).settling = false) (state : (s.chan c).state = .held ∨ (s.chan c).state = .stopped)
    (nothing : (s.sourceRecords (s.chan c)).length ≤ (s.chan c).cursor) (empty : (s.chan c).building = []) :
    ∃ t e, exec (.resumeExport src dst tag ps) s = .next t
      ∧ t.line.answers = (refreshHeard src s).line.answers ++ [answerTo src 4 tag none .none]
      ∧ Frame [.peers, .line, .chans] s t ∧ e.causes.exhausted = true
      ∧ t.chan c = { s.chan c with
          state := .idle, sent := 0
          mark := ⟨(s.chan c).cursor, 0, (s.chan c).skipF, (s.chan c).skipU, (s.chan c).seq⟩, pendingEnd := some e } := by
  have still : (s.chan c).state ≠ .running := by
    rcases state with k | k
    · rw [k]
      decide
    · rw [k]
      decide
  have out : (s.chan c).outstanding = none := by
    cases out : (s.chan c).outstanding with
    | none => rfl
    | some o => exact absurd (settling_iff.2 ⟨still, .inl (by rw [out]; rfl)⟩) (by rw [settled]; decide)
  let u := setChan c (fun _ => { s.chan c with state := .running, sent := 0 }) (refreshHeard src s)
  have here : u.chan c = { s.chan c with state := .running, sent := 0 } := chan_setChan c _ _
  have meter : u.meter = s.meter := (refreshHeard_frame src s).meter (by decide)
  have records : u.sourceRecords (u.chan c) = s.sourceRecords (s.chan c) := by
    unfold State.sourceRecords State.interval
    rw [here, meter]
  obtain ⟨t, e, runs, frame, answers, exhausted, now⟩ := produce_exhausted (s := u) (c := c) (resumed := true)
    (by rw [here]) (by rw [here]; exact out) (by rw [records, here]; exact nothing) (by rw [here]; exact empty)
  have before : Frame [.peers, .line, .chans] s u :=
    ((refreshHeard_frame src s).mono (by decide)).trans ((setChan_frame c _ _).mono (by decide))
  refine ⟨t.answered (answerTo src 4 tag none .none), e, ?_, congrArg (· ++ _) answers,
    before.trans ((frame.mono (by decide)).trans ((answered_frame _ _).mono (by decide))), exhausted, ?_⟩
  · have run := resumeExport_runs (tag := tag) carries chan settled state
    dsimp only at run
    rw [run, runs]
    rfl
  · rw [chan_answered, now, here]
    rfl

end

/-- Settles O42: HOLD, HALT and RESUME by their rules (`holdExport_runs`, `haltExport_runs`, `resumeExport_runs`). -/
theorem channelOrdersMoveTheirChannel : Obligations.ChannelOrdersMoveTheirChannel := by
  unfold Obligations.ChannelOrdersMoveTheirChannel
  intro s src dst tag ps s1 refused
  have heard := chan_refreshHeard src s
  refine ⟨fun bad => ⟨fun carries => ?_, fun carries => ?_, fun carries => ?_⟩, fun c chan => ?_⟩
  · exact exec_haltExport.trans (receiveOrder_refused carries (by decide) (orderHalt_of_none bad))
  · exact exec_holdExport.trans (receiveOrder_refused carries (by decide) (orderHold_of_none bad))
  · exact exec_resumeExport.trans (receiveOrder_refused carries (by decide) (orderResume_of_none bad))
  · intro x y settling leavesSlot
    have unsettled (h : ¬ settling) : x.settling = false := Bool.eq_false_of_not_eq_true (mt settling_iff.1 h)
    refine ⟨fun carries busy => ?_, fun carries busy => ?_, fun carries free idle => ?_, fun carries free state => ?_,
      fun carries still => ?_, fun carries run => holdExport_runs carries chan run,
      fun carries free busy => haltExport_runs carries chan (unsettled free) busy, fun carries free state => ?_⟩
    · refine exec_haltExport.trans (receiveOrder_refused carries (by decide) ((orderHalt_of_some chan).trans ?_))
      rw [heard, if_pos (settling_iff.2 busy)]
    · refine exec_resumeExport.trans (receiveOrder_refused carries (by decide) ((orderResume_of_some chan).trans ?_))
      rw [heard, if_pos (settling_iff.2 busy)]
    · refine exec_haltExport.trans (receiveOrder_refused carries (by decide) ((orderHalt_of_some chan).trans ?_))
      rw [heard, if_neg (mt settling_iff.1 free), if_pos idle]
    · refine exec_resumeExport.trans (receiveOrder_refused carries (by decide) ((orderResume_of_some chan).trans ?_))
      rw [heard, if_neg (mt settling_iff.1 free), if_pos state]
    · refine exec_holdExport.trans (receiveOrder_refused carries (by decide) ((orderHold_of_some chan).trans ?_))
      rw [heard, if_neg still]
    · exact ⟨resumeExport_runs carries chan (unsettled free) state, resumeExport_exhausted carries chan (unsettled free) state⟩

end Sys2Proof.Machine
end


section
/-! START_EXPORT (O40). -/

namespace Sys2Proof.Machine

/-! ## The refusals and the context (R171) -/

theorem startBad_iff {own : Station} {p : StartParams} : p.bad own = true ↔
    p.high.toNat < p.low.toNat ∨ (∃ lo hi, p.stop = some (lo, hi) ∧ hi.toNat < lo.toNat)
      ∨ 15 ≤ p.dst ∨ p.dst = own.toNat ∨ 1 < p.priority ∨ 1024 < p.limit := by
  have stop : (p.stop.any fun r => decide (r.2.toNat < r.1.toNat)) = true ↔
      ∃ lo hi, p.stop = some (lo, hi) ∧ hi.toNat < lo.toNat := by
    rw [Option.any_eq_true]
    exact ⟨fun ⟨⟨lo, hi⟩, h, k⟩ => ⟨lo, hi, h, of_decide_eq_true k⟩, fun ⟨lo, hi, h, k⟩ => ⟨(lo, hi), h, decide_eq_true k⟩⟩
  unfold StartParams.bad
  simp only [Bool.or_eq_true, decide_eq_true_eq, stop, or_assoc]

theorem shareInForce_eq (n : Nat) : shareInForce n = if n = 0 then 1 else if 50 < n then 50 else n := by
  unfold shareInForce
  split
  · rfl
  · split <;> omega

section

variable {s : State} {ps : List Byte} {c : Fin 2} {p : StartParams} {i : Interval}

theorem orderStart_of_none (h : readStart ps = none ∨ readChan ps = none) : orderStart ps s = refuse .badParameter s := by
  unfold orderStart
  rcases h with h | h
  · rw [h]
  · rw [h]
    cases readStart ps <;> rfl

theorem orderStart_of_some (start : readStart ps = some p) (chan : readChan ps = some c) : orderStart ps s = startOn c p s := by
  unfold orderStart
  rw [start, chan]

theorem startOn_busy (h : (s.chan c).state ≠ .idle ∨ (s.chan c).outstanding.isSome = true ∨ (s.chan c).pendingEnd.isSome = true) :
    startOn c p s = refuse .busy s := by
  refine if_pos ?_
  by_cases idle : (s.chan c).state = .idle
  · exact .inr (settling_iff.2 ⟨by rw [idle]; decide, h.resolve_left (not_not.2 idle)⟩)
  · exact .inl idle

/-- The channel is free for a START. -/
structure Channel.Free (x : Channel) : Prop where
  idle : x.state = .idle
  outstanding : x.outstanding = none
  pendingEnd : x.pendingEnd = none

theorem Channel.Free.notBusy {x : Channel} (h : x.Free) : ¬ (x.state ≠ .idle ∨ x.settling = true) := by
  rintro (k | k)
  · exact k h.idle
  · rw [settling_iff, h.outstanding, h.pendingEnd] at k
    simp at k

theorem startOn_absent (free : (s.chan c).Free) (h : ∀ i, s.named p.interval ≠ some i) : startOn c p s = refuse .noInterval s := by
  unfold startOn
  rw [if_neg free.notBusy, Option.eq_none_iff_forall_ne_some.2 h]

theorem startOn_bad (free : (s.chan c).Free) (h : s.named p.interval = some i) (bad : p.bad s.loader.station = true) :
    startOn c p s = refuse .badParameter s := by
  unfold startOn
  rw [if_neg free.notBusy, h]
  exact if_pos bad

theorem startOn_accepted (free : (s.chan c).Free) (h : s.named p.interval = some i) (good : p.bad s.loader.station = false) :
    startOn c p s = accept (.started i.number i.records.length (shareInForce p.share))
      (produce false c (setChan c (fun _ => startedChannel p i.number (s.chan c)) s)) := by
  unfold startOn
  rw [if_neg free.notBusy, h]
  exact if_neg (by rw [good]; decide)

end

/-! ## A first message of two records (R172, R179) -/

section

variable {s : State} {x : Channel} {r1 r2 r3 : Record} {rs : List Record}

/-- A channel at the start of its source that wants its first two records, with nothing to end its run. -/
structure Channel.Starts (x : Channel) (r1 r2 : Record) : Prop where
  cursor : x.cursor = 0
  sent : x.sent = 0
  stop : x.stop = none
  limit : x.limit = 0
  single : x.single = false
  translate : x.translate = false
  first : x.wants r1 = true
  second : x.wants r2 = true

variable (h : x.Starts r1 r2)
include h

theorem Channel.Starts.messages : s.messageAfter x (r1 :: r2 :: r3 :: rs) 1 = [⟨none, r1⟩]
    ∧ s.messageAfter x (r1 :: r2 :: r3 :: rs) 2 = [⟨none, r1⟩, ⟨none, r2⟩] := by
  have one : s.outRecord x r1 = some ⟨none, r1⟩ := by simp [State.outRecord, h.first, h.translate]
  have two : s.outRecord x r2 = some ⟨none, r2⟩ := by simp [State.outRecord, h.second, h.translate]
  constructor
  · simp [State.messageAfter, h.cursor, one]
  · simp [State.messageAfter, h.cursor, one, two]

theorem Channel.Starts.causes {n : Nat} (few : n ≤ 2) : s.causesAfter x (r1 :: r2 :: r3 :: rs) n = {} := by
  have more : ¬ (n = rs.length + 1 + 1 + 1) := by omega
  simp [State.causesAfter, h.cursor, h.limit, h.single, more]

theorem Channel.Starts.ends {n : Nat} (ends : s.ProductionEnds x (r1 :: r2 :: r3 :: rs) false 0 n) : n = 2 := by
  obtain ⟨one, two⟩ := h.messages (s := s) (r3 := r3) (rs := rs)
  have on (m : Nat) : ¬ x.stopsBefore (r1 :: r2 :: r3 :: rs) false m := by
    rintro ⟨-, r, -, -, lo, hi, stop, -⟩
    rw [h.stop] at stop
    cases stop
  have late : ¬ 2 < n := fun k => by
    obtain ⟨-, short, -⟩ := ends.goesOn 2 (Nat.zero_le _) k
    rw [two] at short
    exact absurd short (by simp)
  have early : ¬ n < 2 := fun k => by
    rcases ends.ends with causes | two | stops
    · exact causes (h.causes (by omega))
    · obtain rfl | rfl : n = 0 ∨ n = 1 := by omega
      · rw [messageAfter_zero] at two
        cases two
      · rw [one] at two
        cases two
    · exact on n stops
  omega

theorem Channel.Starts.produced : s.produced x (r1 :: r2 :: r3 :: rs) 2 =
    { x with
      mark := x.markNow, cursor := 2, sent := 2, seq := x.seq + 1, building := []
      outstanding := some { seq := x.seq, records := [⟨none, r1⟩, ⟨none, r2⟩] } } := by
  obtain ⟨-, two⟩ := h.messages (s := s) (r3 := r3) (rs := rs)
  unfold State.produced
  rw [if_neg (not_not.2 (h.causes (le_refl 2))), if_pos (by rw [two]; rfl)]
  have out : s.outRecord x r1 = some ⟨none, r1⟩ ∧ s.outRecord x r2 = some ⟨none, r2⟩ := by
    constructor
    · simp [State.outRecord, h.first, h.translate]
    · simp [State.outRecord, h.second, h.translate]
  unfold Channel.build State.examinedTo
  simp [two, h.first, h.second, out.1, out.2, h.cursor, h.sent]

end

/-- The first production of a run over three or more wanted records. -/
theorem produce_two {s : State} {c : Fin 2} {i : Interval} {r1 r2 r3 : Record} {rs : List Record} (run : (s.chan c).state = .running)
    (out : (s.chan c).outstanding = none) (empty : (s.chan c).building = [])
    (source : s.interval (s.chan c).source = some i) (records : i.records = r1 :: r2 :: r3 :: rs)
    (starts : (s.chan c).Starts r1 r2) :
    ∃ t o, produce false c s = .of t ∧ Frame [.line, .chans] s t ∧ t.line.answers = s.line.answers
      ∧ t.chan c = { s.chan c with
          mark := (s.chan c).markNow, cursor := 2, sent := 2, seq := (s.chan c).seq + 1, outstanding := some o
          shareUsed := (t.chan c).shareUsed }
      ∧ o.seq = (s.chan c).seq ∧ o.records = [⟨none, r1⟩, ⟨none, r2⟩]
      ∧ (s.mayNotify = true → s.line.wRecord = none → s.line.sending 7 = false →
          (s.chan c).shareUsed < (s.chan c).shareLimit → (s.chan (1 - c)).outstanding = none →
          o.inSlot = true ∧ (t.chan c).shareUsed = (s.chan c).shareUsed + 1
            ∧ t.line.wRecord = some
                { dst := (s.chan c).dst
                  body := .record c (s.chan c).source (s.chan c).seq [⟨none, r1⟩, ⟨none, r2⟩] }) := by
  obtain ⟨n, ends, produced⟩ := produce_ends (resumed := false) run out empty source
    (by rw [starts.cursor]; exact Nat.zero_le _) (fun translate => absurd (starts.translate.symm.trans translate) (by decide))
  rw [records] at ends produced
  rw [starts.ends ends, starts.produced] at produced
  let o : Outstanding := { seq := (s.chan c).seq, records := [⟨none, r1⟩, ⟨none, r2⟩] }
  let y : Channel := { s.chan c with
    mark := (s.chan c).markNow, cursor := 2, sent := 2, seq := (s.chan c).seq + 1, building := [], outstanding := some o }
  let u := setChan c (fun _ => y) s
  have here : u.chan c = y := chan_setChan c _ s
  have there : u.chan (1 - c) = s.chan (1 - c) := chan_setChan_ne (other_ne c) _ s
  have still : readyEnd c u = u := readyEnd_of_not fun causes awaits => by
    have ready := awaits.2
    rw [here] at ready
    cases ready
  have runs : produce false c s = .of (fillRecord u) := produced.trans (congrArg (fun v => Out.of (fillRecord v)) still)
  have entered := fillRecord_chan u c
  have message := entered.message
  rw [here] at message
  obtain ⟨o', out', same⟩ := Option.map_eq_some_iff.1 message
  have rest := entered.rest
  rw [here, out'] at rest
  have frame : Frame [.line, .chans] s (fillRecord u) := ((setChan_frame c _ s).mono (by decide)).trans (fillRecord_frame u)
  refine ⟨fillRecord u, o', runs, frame, by rw [fillRecord_line]; rfl, ?_, congrArg Prod.fst same, congrArg Prod.snd same,
    fun notify free idle share other => ?_⟩
  · refine rest.trans ?_
    show ({ s.chan c with mark := _, cursor := _, sent := _, seq := _, building := [], outstanding := _, shareUsed := _ } : Channel) = _
    rw [← empty]
  · have mine : (u.chan c).mayEnter o := by
      rw [here]
      exact ⟨rfl, rfl, share⟩
    have next : u.nextRecord = some c := nextRecord_of_mayEnter mine (.inl fun o' h => by
      have ready := h.1
      rw [there, other] at ready
      cases ready)
    have filled := fillRecord_of_nextRecord (s := u) notify free idle next mine.1
    rw [filled, chan_setChan] at out'
    cases out'
    rw [filled, chan_setChan]
    refine ⟨rfl, ?_, ?_⟩
    · show (u.chan c).shareUsed + 1 = _
      rw [here]
    · show some _ = some _
      rw [here]

/-! ## The order -/

section

variable {s : State} {src dst : Station} {tag : BitVec 16} {ps : List Byte} {c : Fin 2} {p : StartParams} {i : Interval}

theorem exec_startExport : exec (.startExport src dst tag ps) s = done (receiveOrder 1 src dst tag ps s) := rfl

theorem named_refreshHeard (n : Nat) : (refreshHeard src s).named n = s.named n := by
  have meter := (refreshHeard_frame src s).meter (by decide)
  unfold State.named State.interval
  rw [meter]

/-- The state of an accepted START before its production. -/
def State.startedOn (s : State) (src : Station) (c : Fin 2) (p : StartParams) (i : Interval) : State :=
  setChan c (fun _ => startedChannel p i.number (s.chan c)) (refreshHeard src s)

theorem chan_startedOn : (s.startedOn src c p i).chan c = startedChannel p i.number (s.chan c) := chan_setChan c _ _

theorem startedOn_frame : Frame [.peers, .chans] s (s.startedOn src c p i) :=
  ((refreshHeard_frame src s).mono (by decide)).trans ((setChan_frame c _ _).mono (by decide))

theorem startExport_runs (carries : s.carriesOut 1 src dst ps) (start : readStart ps = some p) (chan : readChan ps = some c)
    (free : (s.chan c).Free) (named : s.named p.interval = some i) (good : p.bad s.loader.station = false) :
    let o := produce false c (s.startedOn src c p i)
    exec (.startExport src dst tag ps) s = .next (conclude ⟨o.st.answered
      (answerTo src 1 tag none (.started i.number i.records.length (shareInForce p.share))), o.evs⟩) := by
  intro o
  have heard := chan_refreshHeard src s c
  have rule : orderRule 1 ps (refreshHeard src s) =
      accept (.started i.number i.records.length (shareInForce p.share)) o := by
    refine (orderStart_of_some start chan).trans ((startOn_accepted (by rw [heard]; exact free)
      ((named_refreshHeard _).trans named) (by rw [(refreshHeard_frame src s).loader (by decide)]; exact good)).trans ?_)
    rw [heard]
    rfl
  exact exec_startExport.trans ((receiveOrder_accepted carries (by decide) rule).trans (done_eq _))

/-- An accepted START whose production raises nothing. -/
theorem startExport_quiet (carries : s.carriesOut 1 src dst ps) (start : readStart ps = some p) (chan : readChan ps = some c)
    (free : (s.chan c).Free) (named : s.named p.interval = some i) (good : p.bad s.loader.station = false) {t : State}
    (quiet : produce false c (s.startedOn src c p i) = .of t) (frame : Frame [.line, .chans] (s.startedOn src c p i) t)
    (answers : t.line.answers = (s.startedOn src c p i).line.answers) :
    let m := answerTo src 1 tag none (.started i.number i.records.length (shareInForce p.share))
    exec (.startExport src dst tag ps) s = .next (t.answered m)
      ∧ (t.answered m).line.answers = (refreshHeard src s).line.answers ++ [m]
      ∧ Frame [.peers, .line, .chans] s (t.answered m) := by
  intro m
  have run := startExport_runs (tag := tag) carries start chan free named good
  dsimp only at run
  rw [quiet] at run
  exact ⟨run, congrArg (· ++ [m]) answers,
    (startedOn_frame.mono (by decide)).trans ((frame.mono (by decide)).trans ((answered_frame _ m).mono (by decide)))⟩

theorem interval_startedOn (n : Count) : (s.startedOn src c p i).interval n = s.interval n := by
  unfold State.interval
  rw [startedOn_frame.meter (by decide)]

end

/-- Settles O40: the refusals in their order, and the production of an accepted START (`produce_exhausted`, `produce_two`). -/
theorem startExportBeginsARun : Obligations.StartExportBeginsARun := by
  unfold Obligations.StartExportBeginsARun
  intro s src dst tag ps carries s1 refused
  have heard := chan_refreshHeard src s
  have refuses {r : Reason} (rule : orderStart ps s1 = refuse r s1) : exec (.startExport src dst tag ps) s = refused r :=
    exec_startExport.trans (receiveOrder_refused carries (by decide) rule)
  refine ⟨fun bad => refuses (orderStart_of_none bad), fun p c start chan => ?_⟩
  have onChan {v : Verdict × Out} (h : startOn c p s1 = v) : orderStart ps s1 = v := (orderStart_of_some start chan).trans h
  refine ⟨fun busy => refuses (onChan (startOn_busy (by rw [heard]; exact busy))), fun idle out pending => ?_⟩
  have free : (s.chan c).Free := ⟨idle, out, pending⟩
  have free1 : (s1.chan c).Free := by rw [heard]; exact free
  refine ⟨fun none => refuses (onChan (startOn_absent free1 (by rw [named_refreshHeard]; exact none))), fun i named => ?_⟩
  intro bad share started accepted o
  have loader : s1.loader = s.loader := (refreshHeard_frame src s).loader (by decide)
  have share_eq : shareInForce p.share = share := shareInForce_eq p.share
  have context : startedChannel p i.number (s.chan c) = started := by
    unfold startedChannel
    rw [share_eq]
  have good (h : ¬ bad) : p.bad s.loader.station = false := Bool.eq_false_of_not_eq_true (mt startBad_iff.1 h)
  have here : (s.startedOn src c p i).chan c = started := chan_startedOn.trans context
  refine ⟨fun h => refuses (onChan (startOn_bad free1 ((named_refreshHeard _).trans named) (by rw [loader]; exact startBad_iff.2 h))),
    fun h => ?_, fun h source => ⟨fun nothing => ?_, fun r1 r2 r3 rs records stop limit single translate first second => ?_⟩⟩
  · have run := startExport_runs (tag := tag) carries start chan free named (good h)
    dsimp only at run
    rw [share_eq] at run
    have u : s.startedOn src c p i = setChan c (fun _ => started) s1 := by
      unfold State.startedOn
      rw [context]
    rw [u] at run
    exact run
  · have sourced : (s.startedOn src c p i).sourceRecords ((s.startedOn src c p i).chan c) = [] := by
      unfold State.sourceRecords
      rw [here, interval_startedOn, source]
      exact nothing
    obtain ⟨t, e, quiet, frame, answers, exhausted, now⟩ := produce_exhausted (s := s.startedOn src c p i) (c := c) (resumed := false)
      (by rw [here]) (by rw [here]) (by rw [sourced]; exact Nat.zero_le _) (by rw [here])
    obtain ⟨run, answered, frame⟩ := startExport_quiet (tag := tag) carries start chan free named (good h) quiet frame answers
    rw [share_eq] at run answered frame
    refine ⟨_, run, answered, frame, e, exhausted, ?_⟩
    rw [chan_answered, now, here]
    rfl
  · have starts : ((s.startedOn src c p i).chan c).Starts r1 r2 := by
      rw [here]
      refine ⟨rfl, rfl, stop, limit, single, translate, ?_, ?_⟩
      · exact Bool.and_eq_true_iff.2 ⟨decide_eq_true first.1, decide_eq_true first.2⟩
      · exact Bool.and_eq_true_iff.2 ⟨decide_eq_true second.1, decide_eq_true second.2⟩
    obtain ⟨t, o, quiet, frame, answers, now, seq, recs, slot⟩ := produce_two (s := s.startedOn src c p i) (c := c) (i := i)
      (by rw [here]) (by rw [here]) (by rw [here]) (by rw [here, interval_startedOn]; exact source) records starts
    obtain ⟨run, answered, frame⟩ := startExport_quiet (tag := tag) carries start chan free named (good h) quiet frame answers
    rw [share_eq] at run answered frame
    rw [here] at now seq
    have line : (s.startedOn src c p i).line = s.line := startedOn_frame.line (by decide)
    refine ⟨_, o, run, answered, frame, now, seq, recs, fun empty idle used other => ?_⟩
    have there : (s.startedOn src c p i).chan (1 - c) = s.chan (1 - c) :=
      (chan_setChan_ne (other_ne c) _ _).trans (heard _)
    have notify : (s.startedOn src c p i).mayNotify = true := by
      have on := mayNotify_of_carriesOut carries (by decide) (by decide)
      rw [mayNotify_iff] at on ⊢
      rw [State.acting, startedOn_frame.loader (by decide), line]
      exact on
    have filled := slot notify (by rw [line]; exact empty) (by rw [line]; exact idle) (by rw [here]; exact used)
      (by rw [there]; exact other)
    rw [here] at filled
    exact filled

end Sys2Proof.Machine
end


section
/-! The structural faults of an image (O49). -/

namespace Sys2Proof.Machine

/-! ## The directory -/

theorem fieldNat_slice {l : List Byte} {a k n w : Nat} (h : k + n ≤ w) :
    fieldNat (slice l a w) k n = fieldNat l (a + k) n := by
  have inside : min n (w - k) = n := by omega
  unfold fieldNat slice
  rw [List.drop_take, List.drop_drop, List.take_take, inside]

theorem readSect_eq (img : List Byte) (i : Nat) : readSect img i =
    { kind := fieldNat img (16 + 12 * i) 2, count := fieldNat img (18 + 12 * i) 2
      offset := fieldNat img (20 + 12 * i) 4, len := fieldNat img (24 + 12 * i) 4 } := by
  unfold readSect
  dsimp only
  rw [fieldNat_slice (by decide), fieldNat_slice (by decide), fieldNat_slice (by decide), fieldNat_slice (by decide)]
  congr 2 <;> omega

theorem directory_eq {img : List Byte} (h : octetNat img 10 ≤ 8) : directory img = sectionsOf img := by
  unfold directory sectionsOf sectCount
  rw [Nat.min_eq_left h]
  exact List.map_congr_left fun i _ => readSect_eq img i

/-- A section kind that the format assigns. -/
def Sect.Known (d : Sect) : Prop := 1 ≤ d.kind ∧ d.kind ≤ 8

theorem entrySize_of_known {d : Sect} (h : d.Known) : entrySize d.kind = some (entryOctets d.kind) := by
  obtain ⟨low, high⟩ := h
  interval_cases d.kind <;> rfl

theorem isSome_entrySize_iff {d : Sect} : (entrySize d.kind).isSome = true ↔ d.Known := by
  refine ⟨fun h => ?_, fun h => by rw [entrySize_of_known h]; rfl⟩
  unfold entrySize at h
  split at h
  case h_9 => cases h
  all_goals
    next e =>
      unfold Sect.Known
      omega

theorem entriesAt_of_known {d : Sect} (h : d.Known) (img : List Byte) :
    entriesAt img ((entrySize d.kind).getD 0) d = entriesOf img d := by
  rw [entrySize_of_known h]
  rfl

/-! ## The judgement of the sections -/

theorem misplaced_iff {total : Nat} {d : Sect} (h : d.Known) :
    d.misplaced total = true ↔ total < d.offset + d.len ∨ d.len ≠ d.count * entryOctets d.kind := by
  unfold Sect.misplaced
  rw [entrySize_of_known h, Option.map_some, Bool.or_eq_true, decide_eq_true_iff, bne_iff_ne, Nat.mul_comm d.count]
  simp

theorem overlaps_iff {a b : Sect} : a.overlaps b = true ↔
    ∃ o, a.offset ≤ o ∧ o < a.offset + a.len ∧ b.offset ≤ o ∧ o < b.offset + b.len := by
  unfold Sect.overlaps
  simp only [Bool.and_eq_true, decide_eq_true_eq]
  constructor
  · rintro ⟨⟨⟨aFull, bFull⟩, ab⟩, ba⟩
    exact ⟨max a.offset b.offset, by omega⟩
  · rintro ⟨o, h⟩
    omega

theorem clashing_iff {ds : List Sect} : clashing ds = true ↔ ¬ ds.Pairwise fun a b => a.kind ≠ b.kind
    ∧ ∀ o, ¬ (a.offset ≤ o ∧ o < a.offset + a.len ∧ b.offset ≤ o ∧ o < b.offset + b.len) := by
  induction ds with
  | nil => simp [clashing]
  | cons a ds ih =>
    have one (b : Sect) : (a.overlaps b || a.kind == b.kind) = true ↔ ¬ (a.kind ≠ b.kind
        ∧ ∀ o, ¬ (a.offset ≤ o ∧ o < a.offset + a.len ∧ b.offset ≤ o ∧ o < b.offset + b.len)) := by
      rw [Bool.or_eq_true, overlaps_iff, beq_iff_eq, ← not_exists, not_and_or, not_not, not_not, or_comm]
    rw [clashing, Bool.or_eq_true, ih, List.pairwise_cons, not_and_or, List.any_eq_true]
    refine or_congr ?_ Iff.rfl
    simp only [one, not_forall, exists_prop]

theorem sectionsMisplaced_iff {img : List Byte} {ds : List Sect} (known : ∀ d ∈ ds, d.Known) :
    sectionsMisplaced img ds ↔ (ds.any (Sect.misplaced (imageLength img)) || clashing ds) = true := by
  rw [Bool.or_eq_true, clashing_iff, List.any_eq_true]
  refine or_congr (exists_congr fun d => and_congr_right fun mem => ?_) Iff.rfl
  exact (misplaced_iff (known d mem)).symm

theorem overfull_iff {img : List Byte} {d : Sect} (h : d.Known) : overfull img d = true ↔ sectionOverfull img d := by
  have kinds : d.kind = 1 ∨ d.kind = 2 ∨ d.kind = 3 ∨ d.kind = 4 ∨ d.kind = 5 ∨ d.kind = 6 ∨ d.kind = 7 ∨ d.kind = 8 := by
    obtain ⟨low, high⟩ := h
    omega
  unfold overfull sectionOverfull
  rw [entriesAt_of_known h]
  rcases kinds with k | k | k | k | k | k | k | k
  · simp [k, capacity, places]
  · simp [k, capacity, places]
  · simp only [k, capacity, places, Option.any_some, Bool.or_eq_true, List.any_eq_true, decide_eq_true_eq]
    simp [Nat.succ_le_iff]
  · simp [k, capacity, places]
  · simp only [k, capacity, places, Option.any_some, Bool.or_eq_true, List.any_eq_true, decide_eq_true_eq]
    simp [Nat.succ_le_iff]
  · simp [k, capacity, places]
  · simp only [k, capacity, places, Option.any_some, Bool.or_eq_true, List.any_eq_true, decide_eq_true_eq]
    simp [Nat.succ_le_iff]
  · simp [k, capacity, places]

theorem badEntries_iff {img : List Byte} {d : Sect} (h : d.Known) : badEntries img d = true ↔ sectionCorrupt img d := by
  have good (n : Nat) (e : List Byte) :
      (!entryGood n e) = true ↔ ¬ (e.length = n ∧ fieldNat e (n - 2) 2 = crc16 (e.take (n - 2))) := by
    rw [entryGood, Bool.not_eq_true', ← Bool.not_eq_true, Bool.and_eq_true, beq_iff_eq, beq_iff_eq]
  unfold badEntries sectionCorrupt
  rw [entriesAt_of_known h, entrySize_of_known h, Option.getD_some, Bool.and_eq_true, List.any_eq_true]
  simp only [good]
  unfold checkedKind
  simp [or_assoc]

/-! ## The faults in their order -/

theorem knownSects_eq {img : List Byte} (h : octetNat img 10 ≤ 8) :
    knownSects img = (sectionsOf img).filter fun d => decide (1 ≤ d.kind ∧ d.kind ≤ 8) := by
  unfold knownSects
  rw [directory_eq h]
  refine List.filter_congr fun d _ => ?_
  rw [Bool.eq_iff_iff, isSome_entrySize_iff, decide_eq_true_iff]
  rfl

theorem any_iff {ds : List Sect} {f : Sect → Bool} {P : Sect → Prop} (h : ∀ d ∈ ds, (f d = true ↔ P d)) :
    ds.any f = true ↔ ∃ d ∈ ds, P d :=
  List.any_eq_true.trans (exists_congr fun d => and_congr_right fun mem => h d mem)

/-- Settles O49: the chain of `structuralFault`, each judgement of the sections tied to its statement. -/
theorem structuralFaultsAreFoundInOrder : Obligations.StructuralFaultsAreFoundInOrder := by
  unfold Obligations.StructuralFaultsAreFoundInOrder
  intro strap img total count ds
  have known : ∀ d ∈ ds, d.Known := fun d mem =>
    (of_decide_eq_true (List.mem_filter.1 mem).2 : 1 ≤ d.kind ∧ d.kind ≤ 8)
  refine ⟨fun own => if_pos own, fun own marker => ?_, fun own marker => ⟨fun version => ?_, fun version => ⟨fun lengths => ?_,
    fun high low few room => ?_⟩⟩⟩
  · unfold structuralFault
    exact (if_neg own).trans (if_pos marker)
  · unfold structuralFault
    exact (if_neg own).trans ((if_neg (not_not.2 marker)).trans (if_pos version))
  · unfold structuralFault
    exact (if_neg own).trans ((if_neg (not_not.2 marker)).trans ((if_neg (not_not.2 version)).trans (if_pos lengths)))
  · intro broken
    have sound : ¬ (262144 < total ∨ total < 20 ∨ 8 < count ∨ total < 16 + 12 * count) := by omega
    have sections : knownSects img = ds := knownSects_eq few
    have chain : structuralFault strap img =
        if img.length < total ∨ fieldNat img (total - 4) 4 ≠ imageCheck (img.take (total - 4)) then some 5
        else if ds.any (Sect.misplaced total) || clashing ds then some 6
        else if ds.any (overfull img) then some 7
        else if ds.any (badEntries img) then some 8
        else none := by
      rw [← sections]
      unfold structuralFault
      exact (if_neg own).trans ((if_neg (not_not.2 marker)).trans ((if_neg (not_not.2 version)).trans (if_neg sound)))
    rw [chain]
    have misplaced := sectionsMisplaced_iff (img := img) known
    have overfull := any_iff fun d mem => overfull_iff (img := img) (known d mem)
    have corrupt := any_iff fun d mem => badEntries_iff (img := img) (known d mem)
    refine ⟨fun h => if_pos h, fun h placed => ?_, fun h placed full => ?_, fun h placed full => ⟨fun bad => ?_, fun bad => ?_⟩⟩
    · exact (if_neg h).trans (if_pos (misplaced.1 placed))
    · exact (if_neg h).trans ((if_neg (mt misplaced.2 placed)).trans (if_pos (overfull.2 full)))
    · exact (if_neg h).trans ((if_neg (mt misplaced.2 placed)).trans
        ((if_neg (mt overfull.1 (by simpa using full))).trans (if_pos (corrupt.2 bad))))
    · exact (if_neg h).trans ((if_neg (mt misplaced.2 placed)).trans
        ((if_neg (mt overfull.1 (by simpa using full))).trans (if_neg (mt corrupt.1 (by simpa using bad)))))

end Sys2Proof.Machine
end


section
/-! The load indices of a SAMPLE (R78, R80, R81). -/

namespace Sys2Proof.Machine

/-! ## One index (R78) -/

theorem truncDiv_eq (d : Int) (n : Nat) : truncDiv d n = d.tdiv n := by
  unfold truncDiv
  split
  next h => exact (Int.tdiv_eq_ediv_of_nonneg h).symm
  next h =>
    have neg : 0 ≤ -d := by omega
    rw [← Int.tdiv_eq_ediv_of_nonneg neg, Int.neg_tdiv, neg_neg]

theorem loadStep_eq (k o l : Nat) : loadStep k o l =
    if truncDiv ((o : Int) - l) (2 ^ k) ≠ 0 then truncDiv ((o : Int) - l) (2 ^ k)
    else if 0 < (o : Int) - l then 1 else if (o : Int) - l < 0 then -1 else 0 := by
  have sign (d : Int) : d.sign = if 0 < d then 1 else if d < 0 then -1 else 0 := by
    rcases lt_trichotomy d 0 with h | h | h
    · rw [Int.sign_eq_neg_one_of_neg h, if_neg (by omega), if_pos h]
    · rw [h]
      rfl
    · rw [Int.sign_eq_one_of_pos h, if_pos h]
  have cast : ((2 ^ k : Nat) : Int) = 2 ^ k := by push_cast; rfl
  unfold loadStep
  dsimp only
  rw [truncDiv_eq, cast, sign]
  split_ifs <;> first | rfl | contradiction

/-- A step never passes the occupancy, so that the index stays at or above 0. -/
theorem loadStep_nonneg (k o l : Nat) : 0 ≤ (l : Int) + loadStep k o l := by
  have pos : (0 : Int) < ((2 ^ k : Nat) : Int) := by positivity
  rw [loadStep_eq]
  by_cases up : 0 ≤ (o : Int) - l
  · have q : 0 ≤ truncDiv ((o : Int) - l) (2 ^ k) := by
      rw [truncDiv, if_pos up]
      exact Int.ediv_nonneg up pos.le
    split_ifs <;> omega
  · have q : (o : Int) - l ≤ truncDiv ((o : Int) - l) (2 ^ k) := by
      rw [truncDiv, if_neg up]
      have := Int.ediv_le_self ((2 ^ k : Nat) : Int) (a := -((o : Int) - l)) (by omega)
      omega
    split_ifs <;> omega

theorem loadFraction_eq (basis occ : Nat) : (loadFraction basis occ : Int) =
    if 32767 < occ * 32768 / basis then (32767 : Int) else ((occ * 32768 / basis : Nat) : Int) := by
  unfold loadFraction
  split <;> omega

theorem nextIndex_eq (k basis occ l : Nat) : (nextIndex k basis occ l : Int) = indexAfter k basis occ l := by
  unfold nextIndex
  rw [Int.toNat_of_nonneg (loadStep_nonneg _ _ _), loadStep_eq, loadFraction_eq]
  rfl

/-! ## All indices and peak states -/

/-- The index of a port after a SAMPLE. -/
def State.indexNext (s : State) (i : Fin 9) : Nat :=
  nextIndex s.params.loadShift s.params.basis (s.portCells (indexPort i)) s.load.idx[i]

theorem updateIndex_eq (i : Fin 9) (s : State) :
    updateIndex i s = { s with load := { s.load with idx := s.load.idx.set i.val (s.indexNext i) i.isLt } } := by
  unfold updateIndex State.indexNext
  rw [occupancy_eq]

theorem eachState_updateIndex {l : List (Fin 9)} (once : l.Nodup) (s : State) : ∃ v : Vector Nat 9,
    eachState updateIndex l s = { s with load := { s.load with idx := v } }
      ∧ ∀ i : Fin 9, v[i] = if i ∈ l then s.indexNext i else s.load.idx[i] := by
  induction l generalizing s with
  | nil => exact ⟨s.load.idx, rfl, fun i => (if_neg List.not_mem_nil).symm⟩
  | cons j l ih =>
    obtain ⟨new, once⟩ := List.nodup_cons.1 once
    obtain ⟨v, runs, each⟩ := ih once (updateIndex j s)
    refine ⟨v, runs.trans (by rw [updateIndex_eq]), fun i => (each i).trans ?_⟩
    by_cases same : i = j
    · subst same
      rw [if_neg new, if_pos List.mem_cons_self, updateIndex_eq]
      simp
    · have apart : j.val ≠ i.val := fun e => same (Fin.ext e.symm)
      have kept : (updateIndex j s).load.idx[i] = s.load.idx[i] := by
        rw [updateIndex_eq]
        simp [apart]
      have next : (updateIndex j s).indexNext i = s.indexNext i := by
        unfold State.indexNext
        rw [kept]
        rfl
      simp only [next, kept, List.mem_cons, same, false_or]

theorem eachState_updatePeak {l : List (Fin 4)} (once : l.Nodup) (s : State) : ∃ v : Vector Bool 4,
    eachState updatePeak l s = { s with load := { s.load with peak := v } }
      ∧ ∀ u : Fin 4, v[u] = if u ∈ l then decide (s.params.tp ≤ s.load.idx[u.val]) else s.load.peak[u] := by
  induction l generalizing s with
  | nil => exact ⟨s.load.peak, rfl, fun i => (if_neg List.not_mem_nil).symm⟩
  | cons j l ih =>
    obtain ⟨new, once⟩ := List.nodup_cons.1 once
    obtain ⟨v, runs, each⟩ := ih once (updatePeak j s)
    refine ⟨v, runs, fun i => (each i).trans ?_⟩
    by_cases same : i = j
    · subst same
      rw [if_neg new, if_pos List.mem_cons_self]
      show (s.load.peak.set i.val (decide (s.params.tp ≤ s.uLoad i)) i.isLt)[i.val] = _
      rw [Vector.getElem_set_self]
      rfl
    · have apart : j.val ≠ i.val := fun e => same (Fin.ext e.symm)
      have kept : (updatePeak j s).load.peak[i] = s.load.peak[i] := by
        simp [updatePeak, apart]
      simp only [kept, List.mem_cons, same, false_or]
      rfl

/-- The uplink index is the floor of the mean over the U-ports that carry (R80). -/
theorem uplinkIndex_eq (s : State) : s.uplinkIndex =
    if s.carriers = [] then 32767 else (s.carriers.map fun v => s.load.idx[v.val]).sum / s.carriers.length := by
  rw [carriers_eq]
  unfold State.uplinkIndex State.uplinks
  by_cases up : s.uIn .up = []
  · simp only [up, ne_eq, not_true, if_false]
    by_cases degraded : s.uIn .degraded = []
    · simp only [degraded, not_true, if_false, if_true]
    · simp only [degraded, not_false_eq_true, if_true, if_false]
      rfl
  · simp only [up, ne_eq, not_false_eq_true, if_true, if_false]
    rfl

/-- The indices, the uplink index and the peak states of a SAMPLE. -/
theorem updateLoads_eq (s : State) : ∃ (v : Vector Nat 9) (w : Vector Bool 4) (n : Nat),
    updateLoads s = { s with load := { s.load with idx := v, uplink := n, peak := w } }
      ∧ (∀ i : Fin 9, (v[i] : Int) = indexAfter s.params.loadShift s.params.basis (s.portCells (indexPort i)) s.load.idx[i])
      ∧ (n = if s.carriers = [] then 32767 else (s.carriers.map fun u => v[u.val]).sum / s.carriers.length)
      ∧ ∀ u : Fin 4, w[u] = true ↔ s.params.tp ≤ v[u.val] := by
  obtain ⟨v, indices, each⟩ := eachState_updateIndex (l := allIndices) (by decide) s
  have all (i : Fin 9) : i ∈ allIndices := by
    revert i
    decide
  let s1 : State := { s with load := { s.load with idx := v } }
  obtain ⟨w, peaks, judged⟩ := eachState_updatePeak (l := allU) (by decide)
    { s1 with load := { s1.load with uplink := s1.uplinkIndex } }
  refine ⟨v, w, s1.uplinkIndex, ?_, fun i => ?_, uplinkIndex_eq s1, fun u => ?_⟩
  · unfold updateLoads
    rw [indices]
    exact peaks
  · rw [each, if_pos (all i)]
    exact nextIndex_eq _ _ _ _
  · have mem : u ∈ allU := by
      revert u
      decide
    rw [judged, if_pos mem]
    exact decide_eq_true_iff

end Sys2Proof.Machine
end


section
/-! The load unit at a SAMPLE (O25). -/

namespace Sys2Proof.Machine

/-! ## The best peer (R87, R88) -/

theorem isFresh_iff {s : State} {x : PeerSlot} : s.freshness x = .fresh ↔ x.uplink.isSome = true ∧ s.isFresh x = true := by
  rw [freshness_eq]
  cases x.uplink with
  | none => simp
  | some v => cases s.isFresh x <;> simp

theorem gapCandidate_iff {s : State} {st : Station} {g : Int} :
    ((s.peer st).bind fun x => if s.eligible x then some (st, s.gap x) else none) = some (st, g) ↔
      ∃ x y, s.peer st = some x ∧ x.state = .active ∧ s.directX st = some y
        ∧ s.load.idx[4 + y.val] < s.params.xl ∧ x.uplink.isSome = true ∧ s.isFresh x = true
        ∧ g = (s.load.uplink : Int) - s.announced x - s.params.margin ∧ 0 < g ∧ x.isolated = false := by
  have gap (x : PeerSlot) : s.gap x = (s.load.uplink : Int) - s.announced x - s.params.margin := by
    rw [State.gap, readUplink_eq]
  have near (x : PeerSlot) : (s.directX x.station).any (fun d => decide (s.xLoad d < s.params.xl)) = true ↔
      ∃ y, s.directX x.station = some y ∧ s.load.idx[4 + y.val] < s.params.xl := by
    rw [Option.any_eq_true]
    exact exists_congr fun y => and_congr_right fun _ => decide_eq_true_iff
  have eligible (x : PeerSlot) : s.eligible x = true ↔ x.state = .active
      ∧ (∃ y, s.directX x.station = some y ∧ s.load.idx[4 + y.val] < s.params.xl)
      ∧ (x.uplink.isSome = true ∧ s.isFresh x = true) ∧ 0 < s.gap x ∧ x.isolated = false := by
    unfold State.eligible
    simp only [Bool.and_eq_true, near, isFresh_iff, decide_eq_true_eq, Bool.not_eq_true', beq_iff_eq, and_assoc]
  constructor
  · intro h
    obtain ⟨x, hx, take⟩ := Option.bind_eq_some_iff.1 h
    split_ifs at take with able
    cases take
    obtain ⟨active, ⟨y, direct, light⟩, ⟨some, fresh⟩, pos, joined⟩ := (eligible x).1 able
    rw [station_of_peer hx] at direct
    rw [gap] at pos ⊢
    exact ⟨x, y, hx, active, direct, light, some, fresh, rfl, pos, joined⟩
  · rintro ⟨x, y, hx, active, direct, light, some, fresh, rfl, pos, joined⟩
    have able : s.eligible x = true := (eligible x).2
      ⟨active, ⟨y, by rw [station_of_peer hx]; exact direct, light⟩, ⟨some, fresh⟩, by rw [gap]; exact pos, joined⟩
    rw [hx]
    show (if _ then _ else _) = _
    rw [if_pos able, gap]

/-- The eligible peers with their gaps, in ascending station. -/
def State.gaps (s : State) : List (Station × Int) :=
  allStations.filterMap fun st => (s.peer st).bind fun x => if s.eligible x then some (st, s.gap x) else none

theorem gapCandidate_station {s : State} {st : Station} {c : Station × Int}
    (h : ((s.peer st).bind fun x => if s.eligible x then some (st, s.gap x) else none) = some c) : c.1 = st := by
  obtain ⟨x, -, take⟩ := Option.bind_eq_some_iff.1 h
  split_ifs at take
  cases take
  rfl

theorem mem_gaps {s : State} {c : Station × Int} : c ∈ s.gaps ↔ s.eligibleGap c.1 c.2 := by
  unfold State.gaps
  rw [List.mem_filterMap]
  constructor
  · rintro ⟨st, known, take⟩
    cases gapCandidate_station take
    exact ⟨mem_allStations.1 known, gapCandidate_iff.1 take⟩
  · rintro ⟨known, candidate⟩
    exact ⟨c.1, mem_allStations.2 known, gapCandidate_iff.2 candidate⟩

theorem gaps_sorted (s : State) : s.gaps.Pairwise fun a b => a.1.toNat < b.1.toNat :=
  List.pairwise_filterMap.2 (allStations_sorted.imp fun {a b} lt x hx y hy => by
    rw [gapCandidate_station hx, gapCandidate_station hy]
    exact lt)

theorem bestPeer_eq_none {s : State} (h : ∀ st g, ¬ s.eligibleGap st g) : s.bestPeer = none := by
  have empty : s.gaps = [] := List.eq_nil_iff_forall_not_mem.2 fun c hc => h c.1 c.2 (mem_gaps.1 hc)
  show s.gaps.foldl betterGap none = none
  rw [empty]
  rfl

theorem bestPeer_eq_some {s : State} {st : Station} {g : Int} (h : s.isBest st g) : s.bestPeer = some (st, g) := by
  obtain ⟨able, best⟩ := h
  obtain ⟨before, after, split⟩ := List.append_of_mem ((mem_gaps (c := (st, g))).2 able)
  have sorted : (before ++ (st, g) :: after).Pairwise fun a b => a.1.toNat < b.1.toNat := split ▸ gaps_sorted s
  have candidate {d : Station × Int} (hd : d ∈ before ++ (st, g) :: after) : s.eligibleGap d.1 d.2 := mem_gaps.1 (split ▸ hd)
  show s.gaps.foldl betterGap none = _
  rw [split]
  refine foldl_first_least (key := fun c => -c.2) (fun _ => rfl) (fun x c => ?_) (fun d hd => ?_) fun d hd => ?_
  · unfold betterGap
    simp only [neg_lt_neg_iff]
  · have first : d.1.toNat < st.toNat := (List.pairwise_append.1 sorted).2.2 d hd (st, g) List.mem_cons_self
    rcases best d.1 d.2 (candidate (List.mem_append_left _ hd)) with lt | ⟨-, le⟩
    · exact neg_lt_neg lt
    · omega
  · rcases best d.1 d.2 (candidate (List.mem_append_right _ (List.mem_cons_of_mem _ hd))) with lt | ⟨eq, -⟩
    · exact (neg_lt_neg lt).le
    · exact (neg_le_neg eq.le)

/-! ## The diversion (Table 5-3, R91) -/

/-- The diversion of a SAMPLE while not ISOLATED: peer and share. -/
def State.diversion (s : State) : Option Station × Nat :=
  match s.bestPeer with
  | none => (none, 0)
  | some (st, g) =>
    (some st, if s.load.share = 0 then min (s.target g) s.params.slew
      else if s.load.divPeer = some st then slewShare s.params.slew s.load.share (s.target g) else 0)

theorem updateDiversion_eq (s : State) : updateDiversion s = setDiversion s.diversion.1 s.diversion.2 s := by
  unfold updateDiversion State.diversion
  cases s.bestPeer with
  | none => rfl
  | some c =>
    obtain ⟨st, g⟩ := c
    dsimp only
    split_ifs <;> rfl

/-- The diversion of a SAMPLE: peer and share. -/
def State.diversionNext (s : State) : Option Station × Nat :=
  if s.peers.isolated then (s.isoPeer, if s.isoPeer.isSome then 1024 else 0) else s.diversion

theorem sampleLoad_eq (s : State) :
    let v := updateLoads s
    sampleLoad s = ⟨{ v with load := { v.load with divPeer := v.diversionNext.1, share := v.diversionNext.2 } },
      shareEvents v.load.share v.diversionNext.2⟩ := by
  intro v
  unfold sampleLoad State.diversionNext
  dsimp only
  cases isolated : (updateLoads s).peers.isolated with
  | true =>
    rw [if_pos rfl, isolationRule_eq]
    simp only [v, if_true]
  | false =>
    rw [if_neg (by decide), updateDiversion_eq, setDiversion_eq]
    simp only [v, Bool.false_eq_true, if_false]

theorem target_eq {s : State} {g : Int} (pos : 0 < g) :
    (s.target g : Int) = if g / 32 < s.params.cap then g / 32 else s.params.cap := by
  have nonneg : 0 ≤ g / 32 := by omega
  unfold State.target
  split <;> omega

theorem slewShare_eq (slew share target : Nat) : (slewShare slew share target : Int) =
    if (share : Int) + slew < target then (share : Int) + slew
    else if (target : Int) < (share : Int) - slew then (share : Int) - slew else target := by
  unfold slewShare
  split_ifs <;> omega

/-! ## The SAMPLE as a whole (R77, R99, R186) -/

theorem KeptByLinks.lowerHoldOff {R : State → State → Prop} (h : KeptByLinks R) (n : Nat) (s : State) :
    R s (lowerHoldOff n s).st := by
  unfold Machine.lowerHoldOff
  split
  · exact h.refl s
  · split
    · exact h.refl s
    · split
      · exact h.trans (h.act _ s) (h.setLink n _ _)
      · exact h.setLink n _ s

theorem KeptByLinks.eachHoldOff {R : State → State → Prop} (h : KeptByLinks R) (ns : List Nat) (s : State) :
    R s (eachOut Machine.lowerHoldOff ns s).st := by
  induction ns generalizing s with
  | nil => exact h.refl s
  | cons n ns ih => exact h.trans (h.lowerHoldOff n s) (ih _)

theorem mapFind_isSome_of_mem {α : Type} {m : List (Nat × α)} {x : Nat × α} (h : x ∈ m) : (mapFind m x.1).isSome = true := by
  induction m with
  | nil => exact absurd h List.not_mem_nil
  | cons y m ih =>
    by_cases same : y.1 = x.1
    · simp [mapFind, same]
    · have rest : x ∈ m := (List.mem_cons.1 h).resolve_left fun e => same (congrArg Prod.fst e).symm
      simp only [mapFind, same, if_false]
      exact ih rest

/-- The time base at a SAMPLE. -/
def State.nextSample (s : State) : TimeBase :=
  { s.time with now := s.timeAt s.time.sampleDue, sampleDue := s.time.sampleDue + BitVec.ofNat 48 s.params.samplePeriod }

theorem raiseSample_eq (s : State) : raiseSample s = { s with time := s.nextSample } := by
  unfold raiseSample
  rw [reachTime_timeAt]
  rfl

theorem takeSample_resting {s : State} (rests : s.acting = false) : takeSample s = .of { s with time := s.nextSample } := by
  unfold takeSample
  rw [raiseSample_eq]
  exact if_neg (by rw [show ({ s with time := s.nextSample } : State).acting = s.acting from rfl, rests]; decide)

/-- The state after the load and the restraint unit of a SAMPLE, and what both raise. -/
def State.sampled (s : State) : Out :=
  (sampleLoad { s with time := s.nextSample }).andThen sampleRestraint

/-- A SAMPLE that is acted on, with the next state. -/
structure Sampled (s u t : State) (d r : List Event) : Prop where
  runs : exec .sample s = .next t
  load : u.load = t.load
  restraint : u.restraint = t.restraint
  sample : SampleRuns s u d r
  frame : Frame linkBlocks u t
  phase : t.loader.phase = u.loader.phase
  conflict : t.line.conflict = u.line.conflict

theorem sample_acting {s : State} (acts : s.acting = true) :
    let l := sampleLoad { s with time := s.nextSample }
    let o := sampleRestraint l.st
    ∃ t, Sampled s o.st t l.evs o.evs := by
  intro l o
  let h := lowerHoldOffs o.st
  have run : takeSample s = ⟨h.st, l.evs ++ o.evs ++ h.evs⟩ := by
    unfold takeSample
    rw [raiseSample_eq]
    exact if_pos acts
  have loadFrame : Frame [.load] { s with time := s.nextSample } l.st := sampleLoad_frame _
  have restraintFrame : Frame [.restraint] l.st o.st := sampleRestraint_frame _
  have before : Frame [.time, .load, .restraint] s o.st :=
    ((frame_time _ s).mono (by decide)).trans ((loadFrame.mono (by decide)).trans (restraintFrame.mono (by decide)))
  have after : Frame linkBlocks o.st (conclude ⟨h.st, l.evs ++ o.evs ++ h.evs⟩) :=
    (lowerHoldOffs_frame o.st).trans (conclude_frame _)
  have kept := lineKept_keptByLinks.trans (lineKept_keptByLinks.eachHoldOff (o.st.links.map Prod.fst) o.st)
    (lineKept_keptByLinks.conclude ⟨h.st, l.evs ++ o.evs ++ h.evs⟩)
  have links : o.st.links = s.links := before.links (by decide)
  have runs : exec .sample s = .next (conclude ⟨h.st, l.evs ++ o.evs ++ h.evs⟩) := (congrArg done run).trans (done_eq _)
  refine ⟨_, runs, (after.load (by decide)).symm, (after.restraint (by decide)).symm,
    ⟨before, o.st.links.map Prod.fst, fun wf => keys_sorted (by rw [links]; exact wf), fun n => ?_, runs⟩, after,
    ((lowerHoldOffs_refetchOnly o.st).trans (conclude_refetchOnly ⟨h.st, l.evs ++ o.evs ++ h.evs⟩)).phase,
    (congrArg GroupLine.conflict kept.line :)⟩
  rw [links, List.mem_map]
  constructor
  · rintro ⟨x, mem, rfl⟩
    exact mapFind_isSome_of_mem mem
  · intro some
    obtain ⟨x, hx⟩ := Option.isSome_iff_exists.1 some
    exact ⟨(n, x), mem_of_mapFind hx, rfl⟩

/-! ## What the indices of the SAMPLE decide -/

theorem eligibleGap_congr {s t : State} (peer : t.peer = s.peer) (direct : t.directX = s.directX) (idx : t.load.idx = s.load.idx)
    (uplink : t.load.uplink = s.load.uplink) (params : t.params = s.params) (fresh : t.isFresh = s.isFresh)
    (announced : t.announced = s.announced) : t.eligibleGap = s.eligibleGap := by
  unfold State.eligibleGap
  rw [peer, direct, idx, uplink, params, fresh, announced]

/-- The load unit judges on what stands after the SAMPLE. -/
theorem Sampled.judged {s u t : State} {d r : List Event} (h : Sampled s u t d r) :
    t.directX = u.directX ∧ t.peer = u.peer ∧ t.isFresh = u.isFresh ∧ t.announced = u.announced := by
  have peers := h.frame.peers (by decide)
  have ports := h.frame.ports (by decide)
  have time := h.frame.time (by decide)
  have direct : t.directX = u.directX := by
    funext st
    unfold State.directX State.xTo State.port
    rw [h.conflict, ports]
  have peer : t.peer = u.peer := by
    funext st
    unfold State.peer State.slotOf State.slot
    rw [peers]
  have fresh : t.isFresh = u.isFresh := by
    funext x
    unfold State.isFresh
    rw [time]
  refine ⟨direct, peer, fresh, ?_⟩
  funext x
  unfold State.announced
  rw [h.phase, fresh]

theorem frame_load (l : LoadUnit) (s : State) : Frame [.load] s { s with load := l } := fun b hb => by
  cases b with
  | load => exact absurd (List.mem_singleton_self _) hb
  | _ => rfl

theorem viewOf_frame {s t : State} (h : Frame [.restraint, .load] s t) :
    t.directX = s.directX ∧ t.peer = s.peer ∧ t.isFresh = s.isFresh ∧ t.announced = s.announced := by
  have peers := h.peers (by decide)
  have ports := h.ports (by decide)
  have time := h.time (by decide)
  have line := h.line (by decide)
  have loader := h.loader (by decide)
  refine ⟨?_, ?_, ?_, ?_⟩
  · funext st
    unfold State.directX State.xTo State.port
    rw [line, ports]
  · funext st
    unfold State.peer State.slotOf State.slot
    rw [peers]
  · funext x
    unfold State.isFresh
    rw [time]
  · funext x
    unfold State.announced State.isFresh
    rw [loader, time]

/-- The state in which the load unit sets the diversion: the indices of the SAMPLE stand. -/
def State.indexed (s : State) : State := updateLoads { s with time := s.nextSample }

theorem sampledLoad_eq (s : State) : sampleLoad { s with time := s.nextSample } =
    ⟨{ s.indexed with load := { s.indexed.load with divPeer := s.indexed.diversionNext.1, share := s.indexed.diversionNext.2 } },
      shareEvents s.indexed.load.share s.indexed.diversionNext.2⟩ := sampleLoad_eq _

/-- The state in which the load unit sets the diversion, as the next state has it. -/
structure Indexed (s v t : State) : Prop where
  indices : ∀ i : Fin 9, (v.load.idx[i] : Int) =
    indexAfter s.params.loadShift s.params.basis (s.portCells (indexPort i)) s.load.idx[i]
  uplink : v.load.uplink =
    if s.carriers = [] then 32767 else (s.carriers.map fun u => v.load.idx[u.val]).sum / s.carriers.length
  peak : ∀ u : Fin 4, v.load.peak[u] = true ↔ s.params.tp ≤ v.load.idx[u.val]
  load : t.load = { v.load with divPeer := v.diversionNext.1, share := v.diversionNext.2 }
  ignored : v.load.loadIgnored = s.load.loadIgnored
  share : v.load.share = s.load.share
  divPeer : v.load.divPeer = s.load.divPeer
  isolated : v.peers.isolated = s.peers.isolated
  params : v.params = s.params
  gap : t.eligibleGap = v.eligibleGap
  index : t.isolationIndex = v.isolationIndex

theorem sample_indexed {s : State} (acts : s.acting = true) :
    ∃ u t d r, Sampled s u t d r ∧ d = shareEvents s.load.share t.load.share
      ∧ (r = (sampleRestraint (sampleLoad { s with time := s.nextSample }).st).evs)
      ∧ u = (sampleRestraint (sampleLoad { s with time := s.nextSample }).st).st ∧ Indexed s s.indexed t := by
  obtain ⟨t, sampled⟩ := sample_acting acts
  obtain ⟨idx, peak, n, indexed, indices, uplink, peaks⟩ := updateLoads_eq { s with time := s.nextSample }
  have base : s.indexed =
      { s with time := s.nextSample, load := { s.load with idx := idx, uplink := n, peak := peak } } := indexed
  have loads := sampledLoad_eq s
  have restrained := sampleRestraint_frame (sampleLoad { s with time := s.nextSample }).st
  obtain ⟨direct, peer, fresh, announced⟩ := sampled.judged
  have load : t.load = { s.indexed.load with divPeer := s.indexed.diversionNext.1, share := s.indexed.diversionNext.2 } :=
    sampled.load.symm.trans ((restrained.load (by decide)).trans (by rw [loads]))
  have params : t.params = s.params := (sampled.frame.params (by decide)).trans ((restrained.params (by decide)).trans (by rw [loads, base]))
  have diverted : Frame [.load] s.indexed (sampleLoad { s with time := s.nextSample }).st := by
    rw [loads]
    exact frame_load _ _
  obtain ⟨direct', peer', fresh', announced'⟩ := viewOf_frame ((diverted.mono (by decide)).trans (restrained.mono (by decide)))
  refine ⟨_, t, _, _, sampled, ?_, rfl, rfl, ?_⟩
  · rw [loads, load, base]
  · exact {
      indices := by rw [base]; exact indices
      uplink := by rw [base]; exact uplink
      peak := by rw [base]; exact peaks
      load := load
      ignored := by rw [base]
      share := by rw [base]
      divPeer := by rw [base]
      isolated := by rw [base]
      params := by rw [base]
      gap := eligibleGap_congr (peer.trans peer') (direct.trans direct') (by rw [load]) (by rw [load])
        (params.trans (by rw [base])) (fresh.trans fresh') (announced.trans announced')
      index := isolationIndex_congr (peer.trans peer') (direct.trans direct') (announced.trans announced') }

/-- Settles O25: the load unit judges on the indices of the SAMPLE (`sample_indexed`), and the next state still has them. -/
theorem sampleRunsTheLoadUnit : Obligations.SampleRunsTheLoadUnit := by
  unfold Obligations.SampleRunsTheLoadUnit
  refine ⟨fun s => ?_, fun s acts => ?_⟩
  · intro tb
    refine ⟨fun rests => (congrArg done (takeSample_resting rests)).trans (done_of _), fun acts => ?_⟩
    obtain ⟨u, t, d, r, sampled, -, -, rfl, view⟩ := sample_indexed acts
    have before := sampled.sample.1
    have time : t.time = tb := (sampled.frame.time (by decide)).trans
      (((sampleRestraint_frame _).time (by decide)).trans ((sampleLoad_frame _).time (by decide)))
    refine ⟨t, sampled.runs, time, (before.mono (by decide)).trans (sampled.frame.mono (by decide)), fun i => ?_, ?_, fun u => ?_, ?_⟩
    · rw [view.load]
      exact view.indices i
    · rw [view.load]
      exact view.uplink
    · rw [view.load]
      exact view.peak u
    · rw [view.load]
      exact view.ignored
  · obtain ⟨u, t, d, r, sampled, raised, -, -, view⟩ := sample_indexed acts
    have load := view.load
    unfold State.diversionNext State.diversion at load
    rw [view.isolated, view.share, view.divPeer, view.params] at load
    refine ⟨t, sampled.runs, fun joined => ?_, fun isolated => ?_, u, d, r, sampled.sample, sampled.load, raised⟩
    · rw [joined, if_neg (by decide)] at load
      rw [view.gap, load]
      refine ⟨fun none => ?_, fun st g best => ?_⟩
      · rw [bestPeer_eq_none none]
        exact ⟨rfl, rfl⟩
      · have best : s.indexed.isBest st g := by
          unfold State.isBest at best ⊢
          rw [view.gap] at best
          exact best
        obtain ⟨-, -, -, -, -, -, -, -, -, -, pos, -⟩ := best.1
        have target := target_eq (s := s.indexed) pos
        rw [view.params] at target
        intro goal
        have goal_eq : (s.indexed.target g : Int) = goal := target
        rw [bestPeer_eq_some best]
        refine ⟨rfl, fun zero => ?_, fun some same => ?_, fun some other => ?_⟩
        · show ((if s.load.share = 0 then min (s.indexed.target g) s.params.slew else _ : Nat) : Int) = _
          rw [if_pos zero, ← goal_eq]
          split <;> omega
        · show ((if s.load.share = 0 then _ else if s.load.divPeer = _ then slewShare s.params.slew s.load.share (s.indexed.target g)
            else _ : Nat) : Int) = _
          rw [if_neg (by omega), if_pos same, slewShare_eq, goal_eq]
        · show (if s.load.share = 0 then _ else if s.load.divPeer = _ then _ else 0) = 0
          rw [if_neg (by omega), if_neg other]
    · rw [isolated, if_pos rfl] at load
      rw [view.index, load]
      refine ⟨fun none => ?_, fun st v candidate least => ?_⟩
      · rw [isoPeer_eq_none none]
        exact ⟨rfl, rfl⟩
      · rw [isoPeer_eq_some candidate least]
        exact ⟨rfl, rfl⟩

end Sys2Proof.Machine
end


section
/-! The restraint unit at a SAMPLE (O26). -/

namespace Sys2Proof.Machine

/-! ## The entries (R102, R103) -/

/-- The list, the denied tenants and the next-start pointer of the restraint unit. -/
def State.restraintSets (s : State) : List (Tenant × Nat) × List Tenant × Nat :=
  (s.restraint.list, s.restraint.denied, s.restraint.nextStart)

/-- The state with other sets. -/
def State.withSets (s : State) (r : List (Tenant × Nat) × List Tenant × Nat) : State :=
  { s with restraint := { s.restraint with list := r.1, denied := r.2.1, nextStart := r.2.2 } }

theorem candidate_eq (s : State) (t : Tenant) : s.candidate t = s.overQuota s.restraint.list s.restraint.denied t := by
  have listed : (s.restraint.list.any fun i => i.1 == t) = (s.restraint.list.map Prod.fst).contains t := by
    rw [Bool.eq_iff_iff, List.any_eq_true, List.contains_iff_mem, List.mem_map]
    simp only [beq_iff_eq]
  unfold State.candidate State.overQuota
  rw [listed]

theorem considerTenant_eq (t : Tenant) (s : State) : considerTenant t s =
    ⟨s.withSets (s.enter s.restraintSets t),
      List.replicate ((s.enter s.restraintSets t).2.1.length - s.restraint.denied.length) ⟨.tenantDenied, none⟩⟩ := by
  unfold considerTenant State.enter State.restraintSets
  rw [candidate_eq]
  cases exceeds : s.overQuota s.restraint.list s.restraint.denied t with
  | false =>
    simp only [Bool.false_eq_true, if_false, Nat.sub_self, List.replicate_zero]
    rfl
  | true =>
    simp only [if_true]
    by_cases room : s.restraint.list.length < 16
    · rw [if_pos (show s.restraint.list.length < Config.restraintLimit from room), if_pos room]
      simp only [Nat.sub_self, List.replicate_zero]
      rfl
    · rw [if_neg (show ¬ s.restraint.list.length < Config.restraintLimit from room), if_neg room]
      simp only [List.length_append, List.length_singleton, Nat.add_sub_cancel_left]
      rfl

/-- What the entries read apart from the sets. -/
theorem enter_congr {s t : State} (settings : t.restraint.settings = s.restraint.settings) (buffer : t.buffer = s.buffer)
    (params : t.params = s.params) : t.enter = s.enter := by
  unfold State.enter State.overQuota State.setting State.tenantCells
  rw [settings, buffer, params]

theorem denied_enter (s : State) (r : List (Tenant × Nat) × List Tenant × Nat) (t : Tenant) :
    r.2.1.length ≤ (s.enter r t).2.1.length := by
  unfold State.enter
  split_ifs
  · exact le_refl _
  · simp
  · exact le_refl _

theorem denied_foldl_enter (s : State) (l : List Tenant) (r : List (Tenant × Nat) × List Tenant × Nat) :
    r.2.1.length ≤ (l.foldl s.enter r).2.1.length := by
  induction l generalizing r with
  | nil => exact le_refl _
  | cons t l ih => exact (denied_enter s r t).trans (ih _)

theorem eachOut_considerTenant (l : List Tenant) (s : State) : eachOut considerTenant l s =
    ⟨s.withSets (l.foldl s.enter s.restraintSets),
      List.replicate ((l.foldl s.enter s.restraintSets).2.1.length - s.restraint.denied.length) ⟨.tenantDenied, none⟩⟩ := by
  induction l generalizing s with
  | nil =>
    rw [List.foldl_nil, show s.restraintSets.2.1.length - s.restraint.denied.length = 0 from Nat.sub_self _]
    rfl
  | cons t l ih =>
    have first : s.restraint.denied.length ≤ _ := denied_enter s s.restraintSets t
    have rest := denied_foldl_enter s l (s.enter s.restraintSets t)
    have next := ih (s.withSets (s.enter s.restraintSets t))
    have same : (s.withSets (s.enter s.restraintSets t)).enter = s.enter := enter_congr rfl rfl rfl
    rw [same, show (s.withSets (s.enter s.restraintSets t)).restraintSets = s.enter s.restraintSets t from rfl] at next
    rw [eachOut, considerTenant_eq, Out.mk_andThen _ next, ← List.replicate_add, List.foldl_cons]
    have count : (s.enter s.restraintSets t).2.1.length - s.restraint.denied.length
        + ((l.foldl s.enter (s.enter s.restraintSets t)).2.1.length - (s.enter s.restraintSets t).2.1.length)
        = (l.foldl s.enter (s.enter s.restraintSets t)).2.1.length - s.restraint.denied.length := by omega
    exact congrArg (fun n => (⟨_, List.replicate n ⟨.tenantDenied, none⟩⟩ : Out)) count

/-- A tenant without settings has no quota, so that it never enters. -/
theorem enter_of_unset {s : State} {t : Tenant} (h : mapFind s.restraint.settings t.toNat = none)
    (r : List (Tenant × Nat) × List Tenant × Nat) : s.enter r t = r := by
  have quota : (s.setting t).quota = 0 := by
    unfold State.setting mapGet
    rw [h]
    rfl
  refine if_neg ?_
  unfold State.overQuota
  simp [quota]

theorem foldl_of_noop {α β : Type} {f : β → α → β} {p : α → Bool} (h : ∀ r a, p a = false → f r a = r) (l : List α) (r : β) :
    l.foldl f r = (l.filter p).foldl f r := by
  induction l generalizing r with
  | nil => rfl
  | cons a l ih =>
    rw [List.foldl_cons]
    cases keep : p a with
    | true =>
      rw [List.filter_cons_of_pos keep, List.foldl_cons]
      exact ih _
    | false =>
      rw [List.filter_cons_of_neg (by rw [keep]; decide), h r a keep]
      exact ih r

/-- The tenants with settings, among all tenants. -/
theorem settingTenants_eq {s : State} (wf : mapWf s.restraint.settings = true) (keys : ∀ x ∈ s.restraint.settings, x.1 < 256) :
    s.settingTenants = everyTenant.filter fun t => (mapFind s.restraint.settings t.toNat).isSome := by
  have numbers : s.restraint.settings.map Prod.fst =
      (List.range 256).filter fun n => (mapFind s.restraint.settings n).isSome := by
    refine eq_of_sorted_of_mem (f := id) (keys_sorted wf) (List.pairwise_lt_range.filter _) fun n => ?_
    rw [List.mem_filter, List.mem_range, List.mem_map]
    constructor
    · rintro ⟨x, mem, rfl⟩
      exact ⟨keys x mem, mapFind_isSome_of_mem mem⟩
    · rintro ⟨-, some⟩
      obtain ⟨x, hx⟩ := Option.isSome_iff_exists.1 some
      exact ⟨(n, x), mem_of_mapFind hx, rfl⟩
  unfold State.settingTenants everyTenant
  rw [numbers, List.filter_map]
  refine congrArg _ (List.filter_congr fun n mem => ?_)
  have small : n < 2 ^ 8 := List.mem_range.1 mem
  rw [Function.comp_apply, BitVec.toNat_ofNat, Nat.mod_eq_of_lt small]

theorem foldl_enter_settings {s : State} (wf : mapWf s.restraint.settings = true)
    (keys : ∀ x ∈ s.restraint.settings, x.1 < 256) (r : List (Tenant × Nat) × List Tenant × Nat) :
    s.settingTenants.foldl s.enter r = everyTenant.foldl s.enter r := by
  rw [settingTenants_eq wf keys]
  refine (foldl_of_noop (fun r t unset => enter_of_unset ?_ r) everyTenant r).symm
  exact Option.not_isSome_iff_eq_none.1 (by rw [unset]; decide)

/-! ## The mode and the exits (R100, R101) -/

/-- The sets after the exits. -/
def State.exited (s : State) : List (Tenant × Nat) × List Tenant × Nat :=
  (s.restraint.list.filter fun i => decide ((s.setting i.1).quota * 3 / 4 < s.tenantCells i.1),
    s.restraint.denied.filter fun u => decide ((s.setting u).quota < s.tenantCells u), s.restraint.nextStart)

/-- The state of a SAMPLE at which the mode is ON, the slot counter and the mode apart from what stood before. -/
def State.restrained (s : State) : State := { s with restraint := { s.restraint with slot := (s.restraint.slot + 1) % 64, on := true } }

theorem sampleRestraint_idle {s : State} (off : s.restraint.on = false) (free : s.params.onLevel ≤ s.buffer.free) :
    sampleRestraint s = .of { s with restraint := { s.restraint with slot := (s.restraint.slot + 1) % 64 } } := by
  have mode : decideMode (advanceSlot s) = .of (advanceSlot s) := by
    unfold decideMode
    exact (if_neg (by rw [show (advanceSlot s).restraint.on = s.restraint.on from rfl, off]; decide)).trans (if_neg (Nat.not_lt.2 free))
  unfold sampleRestraint
  rw [mode, Out.of_andThen]
  exact if_neg (by rw [show (advanceSlot s).restraint.on = s.restraint.on from rfl, off]; decide)

theorem sampleRestraint_ends {s : State} (on : s.restraint.on = true) (free : s.params.offLevel ≤ s.buffer.free) :
    sampleRestraint s = ⟨{ s with restraint := { s.restraint with
        slot := (s.restraint.slot + 1) % 64, on := false, list := [], denied := [], nextStart := 0 } }, [⟨.restraintOff, none⟩]⟩ := by
  have mode : decideMode (advanceSlot s) = ⟨{ s with restraint := { s.restraint with
      slot := (s.restraint.slot + 1) % 64, on := false, list := [], denied := [], nextStart := 0 } }, [⟨.restraintOff, none⟩]⟩ := by
    unfold decideMode
    exact (if_pos on).trans (if_pos free)
  unfold sampleRestraint
  rw [mode]
  rfl

theorem sampleRestraint_stands {s : State} (low : s.restraint.on = false ∧ s.buffer.free < s.params.onLevel
      ∨ s.restraint.on = true ∧ s.buffer.free < s.params.offLevel)
    (wf : mapWf s.restraint.settings = true) (keys : ∀ x ∈ s.restraint.settings, x.1 < 256) :
    let r := everyTenant.foldl s.enter s.exited
    sampleRestraint s = ⟨s.restrained.withSets r,
      (if s.restraint.on = false then [⟨.restraintOn, none⟩] else [])
        ++ List.replicate (r.2.1.length - s.exited.2.1.length) ⟨.tenantDenied, none⟩⟩ := by
  intro r
  have mode : decideMode (advanceSlot s) = ⟨s.restrained, if s.restraint.on = false then [⟨.restraintOn, none⟩] else []⟩ := by
    unfold decideMode
    rcases low with ⟨off, low⟩ | ⟨on, low⟩
    · rw [off]
      exact (if_neg (by rw [show (advanceSlot s).restraint.on = s.restraint.on from rfl, off]; decide)).trans (if_pos low)
    · have same : s.restrained = advanceSlot s := congrArg (fun b => ({ s with
        restraint := { s.restraint with slot := (s.restraint.slot + 1) % 64, on := b } } : State)) on.symm
      rw [on, same]
      exact (if_pos on).trans (if_neg (Nat.not_le.2 low))
  have exits : restraintExits s.restrained = s.restrained.withSets s.exited := rfl
  have sets : (s.restrained.withSets s.exited).restraintSets = s.exited := rfl
  have entered : restraintEntries (restraintExits s.restrained) = ⟨s.restrained.withSets r,
      List.replicate (r.2.1.length - s.exited.2.1.length) ⟨.tenantDenied, none⟩⟩ := by
    unfold restraintEntries
    rw [exits, eachOut_considerTenant, sets, enter_congr (s := s) (t := s.restrained.withSets s.exited) rfl rfl rfl,
      show (s.restrained.withSets s.exited).settingTenants = s.settingTenants from rfl, foldl_enter_settings wf keys]
    rfl
  unfold sampleRestraint
  rw [mode]
  exact Out.mk_andThen (f := fun s1 : State => if s1.restraint.on then restraintEntries (restraintExits s1) else .of s1) _ entered

/-! ## The obligation -/

/-- Settles O26: the three ways of the mode, and the entries over all tenants (`sampleRestraint_stands`). -/
theorem sampleRunsTheRestraintUnit : Obligations.SampleRunsTheRestraintUnit := by
  unfold Obligations.SampleRunsTheRestraintUnit
  intro s acts wf keys
  obtain ⟨u, t, d, r, sampled, -, events, state, -⟩ := sample_indexed acts
  have before : Frame [.time, .load] s (sampleLoad { s with time := s.nextSample }).st :=
    ((frame_time _ s).mono (by decide)).trans ((sampleLoad_frame _).mono (by decide))
  generalize (sampleLoad { s with time := s.nextSample }).st = w at events state before
  have restraint : w.restraint = s.restraint := before.restraint (by decide)
  have params : w.params = s.params := before.params (by decide)
  have buffer : w.buffer = s.buffer := before.buffer (by decide)
  have enter : w.enter = s.enter := enter_congr (by rw [restraint]) buffer params
  have exited : w.exited = s.exited := by
    unfold State.exited State.setting State.tenantCells
    rw [restraint, buffer]
  have after : t.restraint = (sampleRestraint w).st.restraint := sampled.restraint.symm.trans (by rw [state])
  have idle (off : s.restraint.on = false) (free : s.params.onLevel ≤ s.buffer.free) :
      t.restraint = { s.restraint with slot := (s.restraint.slot + 1) % 64 } ∧ r = [] := by
    rw [after, events, sampleRestraint_idle (by rw [restraint]; exact off) (by rw [params, buffer]; exact free), restraint]
    exact ⟨rfl, rfl⟩
  have ends (on : s.restraint.on = true) (free : s.params.offLevel ≤ s.buffer.free) :
      t.restraint = { s.restraint with
        slot := (s.restraint.slot + 1) % 64, on := false, list := [], denied := [], nextStart := 0 }
      ∧ r = [⟨.restraintOff, none⟩] := by
    rw [after, events, sampleRestraint_ends (by rw [restraint]; exact on) (by rw [params, buffer]; exact free), restraint]
    exact ⟨rfl, rfl⟩
  have stands (low : s.restraint.on = false ∧ s.buffer.free < s.params.onLevel
      ∨ s.restraint.on = true ∧ s.buffer.free < s.params.offLevel) :
      let sets := everyTenant.foldl s.enter s.exited
      t.restraint = { s.restraint with
          slot := (s.restraint.slot + 1) % 64, on := true, list := sets.1, denied := sets.2.1, nextStart := sets.2.2 }
        ∧ r = (if s.restraint.on = false then [⟨.restraintOn, none⟩] else [])
          ++ List.replicate (sets.2.1.length - s.exited.2.1.length) ⟨.tenantDenied, none⟩ := by
    have run := sampleRestraint_stands (s := w) (by rw [restraint, params, buffer]; exact low) (by rw [restraint]; exact wf)
      (by rw [restraint]; exact keys)
    dsimp only at run
    rw [enter, exited] at run
    rw [after, events, run]
    refine ⟨?_, by rw [restraint]⟩
    show ({ w.restraint with slot := (w.restraint.slot + 1) % 64, on := true, list := _, denied := _, nextStart := _ } : Restraint) = _
    rw [restraint]
  have ways : (s.restraint.on = false ∧ s.params.onLevel ≤ s.buffer.free) ∨ (s.restraint.on = true ∧ s.params.offLevel ≤ s.buffer.free)
      ∨ (s.restraint.on = false ∧ s.buffer.free < s.params.onLevel ∨ s.restraint.on = true ∧ s.buffer.free < s.params.offLevel) := by
    cases s.restraint.on with
    | false => exact (Nat.lt_or_ge s.buffer.free s.params.onLevel).elim (fun h => .inr (.inr (.inl ⟨rfl, h⟩))) fun h => .inl ⟨rfl, h⟩
    | true =>
      exact (Nat.lt_or_ge s.buffer.free s.params.offLevel).elim (fun h => .inr (.inr (.inr ⟨rfl, h⟩))) fun h => .inr (.inl ⟨rfl, h⟩)
  refine ⟨t, sampled.runs, ?_, ?_, fun off free => (idle off free).1, fun on free => (ends on free).1, fun low => ?_,
    u, d, r, sampled.sample, sampled.restraint, ?_⟩
  · rcases ways with ⟨off, free⟩ | ⟨on, free⟩ | low
    · rw [(idle off free).1]
    · rw [(ends on free).1]
    · rw [(stands low).1]
  · rcases ways with ⟨off, free⟩ | ⟨on, free⟩ | low
    · rw [(idle off free).1]
    · rw [(ends on free).1]
    · rw [(stands low).1]
  · obtain ⟨now, -⟩ := stands low
    show t.restraint.on = true ∧ (t.restraint.list, t.restraint.denied, t.restraint.nextStart) = everyTenant.foldl s.enter s.exited
    generalize everyTenant.foldl s.enter s.exited = sets at now ⊢
    rw [now]
    exact ⟨rfl, rfl⟩
  · rcases ways with ⟨off, free⟩ | ⟨on, free⟩ | low
    · rw [(idle off free).1, (idle off free).2, off]
      rfl
    · rw [(ends on free).1, (ends on free).2, on]
      rfl
    · obtain ⟨now, raised⟩ := stands low
      generalize everyTenant.foldl s.enter s.exited = sets at now raised
      rw [now, raised]
      cases s.restraint.on with
      | false => rfl
      | true => rfl

end Sys2Proof.Machine
end


section
/-! The event links (O45): matching and hold-offs, actions, and the events in their order. -/

namespace Sys2Proof.Machine

/-! ## What a boundary raises (R160 to R162) -/

/-- Every accumulator passes its check. -/
def State.AccsPass (s : State) : Prop := ∀ k, (s.acc k).checkGood = true

/-- An event of a close or of a deferral. -/
def Event.Closes (e : Event) : Prop := e.source = .intervalClosed ∨ e.source = .closeDeferred

theorem testAccs_quiet {s : State} (h : s.AccsPass) (ks : List Nat) : eachOut testAcc ks s = .of s :=
  eachOut_testAcc_good fun k _ => h k

theorem accsPass_closeLive (s : State) : (closeLive s).st.AccsPass := fun k => by
  have cleared (m : List (Nat × Accumulator)) : ∀ x ∈ clearAccs m, x.2.checkGood = true := fun x mem => by
    obtain ⟨y, -, rfl⟩ := List.mem_map.1 mem
    rfl
  show (mapGet {} (clearAccs s.meter.accs) k).checkGood = true
  unfold mapGet
  cases found : mapFind (clearAccs s.meter.accs) k with
  | none => rfl
  | some a => exact cleared _ (k, a) (mem_of_mapFind found)

/-- What a boundary raises: a close or a deferral, and integrity faults only where it read them and cleared all. -/
theorem boundary_raises (s : State) :
    ((∀ e ∈ (boundary s).evs, e.Closes) ∨ (boundary s).st.AccsPass)
      ∧ (s.AccsPass → (∀ e ∈ (boundary s).evs, e.Closes) ∧ (boundary s).st.AccsPass) := by
  unfold boundary
  split
  · split
    · refine ⟨.inr (accsPass_closeLive _), fun pass => ⟨fun e mem => ?_, accsPass_closeLive _⟩⟩
      unfold closeInterval at mem
      rw [testAccs_quiet pass, Out.of_andThen] at mem
      rw [List.mem_singleton.1 mem]
      exact .inl rfl
    · have deferred : ∀ e ∈ (deferClose s).evs, e.Closes := fun e mem => by
        rw [List.mem_singleton.1 mem]
        exact .inr rfl
      exact ⟨.inl deferred, fun pass => ⟨deferred, pass⟩⟩
  · exact ⟨.inl fun e mem => absurd mem List.not_mem_nil, fun pass => ⟨fun e mem => absurd mem List.not_mem_nil, pass⟩⟩

/-- An action that is no close raises nothing. -/
theorem act_quiet {a : LinkAction} (h : a ≠ .closeInterval) (s : State) : (act a s).evs = [] := by
  cases a with
  | closeInterval => exact absurd rfl h
  | _ => rfl

theorem accsPass_of_accs {s t : State} (h : t.meter.accs = s.meter.accs) (pass : s.AccsPass) : t.AccsPass := fun k => by
  unfold State.acc
  rw [h]
  exact pass k

theorem act_raises (a : LinkAction) (s : State) :
    ((∀ e ∈ (act a s).evs, e.Closes) ∨ (act a s).st.AccsPass)
      ∧ (s.AccsPass → (∀ e ∈ (act a s).evs, e.Closes) ∧ (act a s).st.AccsPass) := by
  by_cases close : a = .closeInterval
  · subst close
    exact boundary_raises s
  · have quiet : ∀ e ∈ (act a s).evs, e.Closes := fun e mem => by
      rw [act_quiet close] at mem
      exact absurd mem List.not_mem_nil
    refine ⟨.inl quiet, fun pass => ⟨quiet, ?_⟩⟩
    refine accsPass_of_accs ?_ pass
    cases a with
    | closeInterval => exact absurd rfl close
    | sendLoad => exact congrArg Meter.accs ((composeLoad_frame s).meter (by decide))
    | sendLink => exact congrArg Meter.accs ((composeLink_frame s).meter (by decide))
    | exportEvent c => exact congrArg Meter.accs ((exportEvent_frame c s).meter (by decide))
    | markInterval code => rfl

/-! ## What one event raises at the table -/

theorem accsPass_keptByLinks : KeptByLinks fun s t => s.AccsPass → t.AccsPass where
  refl _ := id
  trans h k := k ∘ h
  act a s pass := ((act_raises a s).2 pass).2
  setLink _ _ _ := id

theorem linksEnd_setLink {n : Nat} {f : EventLink → EventLink} (source : ∀ l, (f l).source = l.source)
    (action : ∀ l, (f l).action = l.action) {s : State} (h : s.linksEnd) : (setLink n f s).linksEnd := fun x mem => by
  have mem : x ∈ mapModify s.links n f := mem
  unfold mapModify at mem
  cases found : mapFind s.links n with
  | none =>
    rw [found] at mem
    exact h x mem
  | some l =>
    rw [found] at mem
    rcases mem_mapInsert mem with rfl | mem
    · dsimp only
      rw [source, action]
      exact h (n, l) (mem_of_mapFind found)
    · exact h x mem

theorem linksEnd_act (a : LinkAction) {s : State} (h : s.linksEnd) : (act a s).st.linksEnd := by
  unfold State.linksEnd
  rw [(act_frame a s).links (by decide)]
  exact h

/-- What hearing an event at some links raises, and that the links stay what they are. -/
structure Heard (e : Event) (s : State) (o : Out) : Prop where
  raises : (∀ x ∈ o.evs, x.Closes) ∨ o.st.AccsPass
  clean : s.AccsPass → (∀ x ∈ o.evs, x.Closes) ∧ o.st.AccsPass
  ends : s.linksEnd → o.st.linksEnd
  quiet : s.linksEnd → e.Closes → o.evs = []

theorem Heard.of {e : Event} {s t : State} (pass : s.AccsPass → t.AccsPass) (ends : s.linksEnd → t.linksEnd) :
    Heard e s (.of t) where
  raises := .inl fun _ mem => absurd mem List.not_mem_nil
  clean h := ⟨fun _ mem => absurd mem List.not_mem_nil, pass h⟩
  ends := ends
  quiet _ _ := rfl

theorem Heard.andThen {e : Event} {s : State} {o p : Out} (h : Heard e s o) (k : Heard e o.st p) :
    Heard e s ⟨p.st, o.evs ++ p.evs⟩ where
  raises := by
    rcases h.raises with closes | pass
    · rcases k.raises with closes' | pass'
      · exact .inl fun x mem => (List.mem_append.1 mem).elim (closes x) (closes' x)
      · exact .inr pass'
    · exact .inr (k.clean pass).2
  clean pass := by
    obtain ⟨closes, pass⟩ := h.clean pass
    obtain ⟨closes', pass'⟩ := k.clean pass
    exact ⟨fun x mem => (List.mem_append.1 mem).elim (closes x) (closes' x), pass'⟩
  ends := k.ends ∘ h.ends
  quiet ends closes := by
    show o.evs ++ p.evs = []
    rw [h.quiet ends closes, k.quiet (h.ends ends) closes]
    rfl

theorem hears_iff {l : EventLink} {e : Event} : l.hears e = true ↔ l.source = e.source ∧ (l.qual = none ∨ l.qual = e.qual) := by
  unfold EventLink.hears
  rw [Bool.and_eq_true, Bool.or_eq_true, beq_iff_eq, beq_iff_eq, Option.isNone_iff_eq_none]

theorem hearEvent_heard (e : Event) (n : Nat) (s : State) : Heard e s (hearEvent e n s) := by
  unfold hearEvent
  cases found : mapFind s.links n with
  | none => exact .of id id
  | some l =>
    dsimp only
    split
    next hears =>
      split
      next =>
        obtain ⟨raises, clean⟩ := act_raises l.action s
        refine ⟨raises, clean, fun ends => linksEnd_setLink (f := fun x => { x with count := l.holdOff, pend := false })
            (fun _ => rfl) (fun _ => rfl) (linksEnd_act l.action ends),
          fun ends closes => act_quiet ?_ s⟩
        refine ends (n, l) (mem_of_mapFind found) ?_
        rw [(hears_iff.1 hears).1]
        exact closes
      next => exact .of id fun ends => linksEnd_setLink (f := fun x => { x with pend := true }) (fun _ => rfl) (fun _ => rfl) ends
    next => exact .of id id

theorem eachOut_heard (e : Event) (ns : List Nat) (s : State) : Heard e s (eachOut (hearEvent e) ns s) := by
  induction ns generalizing s with
  | nil => exact .of id id
  | cons n ns ih => exact (hearEvent_heard e n s).andThen (ih _)

theorem takeEvent_heard (e : Event) (s : State) : Heard e s (takeEvent e s) := by
  unfold takeEvent
  split
  · exact eachOut_heard e _ s
  · exact .of id id

/-! ## The chains end (R185, R187) -/

theorem settleEvents_cons (n : Nat) (e : Event) (es : List Event) (s : State) : settleEvents (n + 1) (e :: es) s =
    settleEvents (n + 1) es (settleEvents n (takeEvent e s).evs (takeEvent e s).st) := rfl

theorem settleEvents_linksEnd {n : Nat} {es : List Event} {s : State} (h : s.linksEnd) : (settleEvents n es s).linksEnd := by
  induction n generalizing es s with
  | zero => exact h
  | succ n ih =>
    induction es generalizing s with
    | nil => exact h
    | cons e es ihs =>
      rw [settleEvents_cons]
      exact ihs (ih ((takeEvent_heard e s).ends h))

/-- The events of closes and deferrals raise nothing. -/
theorem settles_closes {n : Nat} {es : List Event} {s : State} (ends : s.linksEnd) (closes : ∀ e ∈ es, e.Closes) :
    Settles es s (settleEvents (n + 1) es s) := by
  induction es generalizing s with
  | nil => exact .done s
  | cons e es ih =>
    have heard := takeEvent_heard e s
    have quiet := heard.quiet ends (closes e List.mem_cons_self)
    have still : settleEvents n (takeEvent e s).evs (takeEvent e s).st = (takeEvent e s).st := by
      rw [quiet]
      cases n <;> rfl
    rw [settleEvents_cons, still]
    refine .take e es s (takeEvent e s).st _ ?_ (ih (heard.ends ends) fun x mem => closes x (List.mem_cons_of_mem _ mem))
    rw [quiet]
    exact .done _

/-- Where every accumulator passes its check, an event raises closes and deferrals at most. -/
theorem settles_clean {n : Nat} {es : List Event} {s : State} (ends : s.linksEnd) (pass : s.AccsPass) :
    Settles es s (settleEvents (n + 2) es s) := by
  induction es generalizing s with
  | nil => exact .done s
  | cons e es ih =>
    have heard := takeEvent_heard e s
    obtain ⟨closes, pass'⟩ := heard.clean pass
    rw [settleEvents_cons]
    refine .take e es s _ _ (settles_closes (heard.ends ends) closes) (ih (settleEvents_linksEnd (heard.ends ends)) ?_)
    exact accsPass_keptByLinks.settleEvents _ _ _ pass'

/-- An event raises closes and deferrals, or leaves every accumulator read: its chain is three events deep at most. -/
theorem settles_all {n : Nat} {es : List Event} {s : State} (ends : s.linksEnd) : Settles es s (settleEvents (n + 3) es s) := by
  induction es generalizing s with
  | nil => exact .done s
  | cons e es ih =>
    have heard := takeEvent_heard e s
    rw [settleEvents_cons]
    refine .take e es s _ _ ?_ (ih (settleEvents_linksEnd (heard.ends ends)))
    rcases heard.raises with closes | pass
    · exact settles_closes (heard.ends ends) closes
    · exact settles_clean (heard.ends ends) pass

/-! ## One link -/

theorem mapModify_of_find {α : Type} {m : List (Nat × α)} {n : Nat} {x : α} (h : mapFind m n = some x) (f : α → α) :
    mapModify m n f = mapInsert m n (f x) := by
  unfold mapModify
  rw [h]

section

variable {s : State} {e : Event} {n : Nat} {l : EventLink} (found : mapFind s.links n = some l)
include found

/-- A link that acts: its action, and its hold-off. -/
theorem fireLink_acts : let o := fireLink n l s
    o.evs = (act l.action s).evs ∧ mapFind o.st.links n = some { l with count := l.holdOff, pend := false }
      ∧ (∀ m, m ≠ n → mapFind o.st.links m = mapFind s.links m) ∧ o.st = { (act l.action s).st with links := o.st.links } := by
  intro o
  have links : o.st.links = mapModify s.links n fun x => { x with count := l.holdOff, pend := false } := by
    rw [← (act_frame l.action s).links (by decide)]
    rfl
  refine ⟨rfl, ?_, fun m other => ?_, rfl⟩
  · rw [links, mapFind_mapModify, found]
    rfl
  · rw [links, mapFind_mapModify_ne _ other]

theorem hearEvent_deaf (h : ¬ (l.source = e.source ∧ (l.qual = none ∨ l.qual = e.qual))) : hearEvent e n s = ⟨s, []⟩ := by
  unfold hearEvent
  rw [found]
  exact if_neg (mt hears_iff.1 h)

theorem hearEvent_waits (h : l.source = e.source ∧ (l.qual = none ∨ l.qual = e.qual)) (runs : 0 < l.count) :
    hearEvent e n s = ⟨{ s with links := mapInsert s.links n { l with pend := true } }, []⟩ := by
  unfold hearEvent
  rw [found]
  refine (if_pos (hears_iff.2 h)).trans ((if_neg (by omega)).trans ?_)
  unfold setLink
  rw [mapModify_of_find found]
  rfl

theorem hearEvent_fires (h : l.source = e.source ∧ (l.qual = none ∨ l.qual = e.qual)) (free : l.count = 0) :
    hearEvent e n s = fireLink n l s := by
  unfold hearEvent
  rw [found]
  exact (if_pos (hears_iff.2 h)).trans (if_pos free)

theorem lowerHoldOff_free (free : l.count = 0) : lowerHoldOff n s = ⟨s, []⟩ := by
  unfold lowerHoldOff
  rw [found]
  exact if_pos free

theorem lowerHoldOff_fires (last : l.count = 1) (pend : l.pend = true) : lowerHoldOff n s = fireLink n l s := by
  unfold lowerHoldOff
  rw [found]
  exact (if_neg (by omega)).trans (if_pos ⟨last, pend⟩)

theorem lowerHoldOff_lowers (runs : 0 < l.count) (h : 1 < l.count ∨ l.pend = false) : lowerHoldOff n s =
    ⟨{ s with links := mapInsert s.links n { l with count := l.count - 1 } }, []⟩ := by
  have stays : ¬ (l.count = 1 ∧ l.pend = true) := by
    rintro ⟨last, pend⟩
    rcases h with more | idle
    · omega
    · exact Bool.false_ne_true (idle.symm.trans pend)
  unfold lowerHoldOff
  rw [found]
  refine (if_neg (by omega)).trans ((if_neg stays).trans ?_)
  unfold setLink
  rw [mapModify_of_find found]
  rfl

end

/-! ## EXPORT_EVENT (R174) -/

theorem exportEvent_rests {s : State} {c : Fin 2} (h : (s.chan c).state ≠ .running ∨ (s.chan c).event = false) :
    exportEvent c s = s := by
  refine if_neg ?_
  rintro ⟨run, event⟩
  rcases h with h | h
  · exact h run
  · exact Bool.false_ne_true (h.symm.trans event)

theorem exportEvent_ends {s : State} {c : Fin 2} (run : (s.chan c).state = .running) (event : (s.chan c).event = true) :
    ((exportEvent c s).chan c).state =
        (if (s.chan c).cursor = (s.sourceRecords (s.chan c)).length then .idle else .stopped)
      ∧ ∃ e : PendingEnd, ((exportEvent c s).chan c).pendingEnd = some e ∧ e.causes.event = true
        ∧ (e.causes.exhausted = true ↔ (s.chan c).cursor = (s.sourceRecords (s.chan c)).length) := by
  let causes : Causes := { (s.chan c).causesNow (s.sourceRecords (s.chan c)).length with event := true }
  let u := setChan c (Channel.terminate causes) s
  have acts : exportEvent c s = fillRecord (readyEnd c u) := if_pos ⟨run, event⟩
  have here : u.chan c = (s.chan c).terminate causes := chan_setChan c _ s
  have served := served_chan c u
  have exhausted : causes.exhausted = true ↔ (s.chan c).cursor = (s.sourceRecords (s.chan c)).length := beq_iff_eq
  have pending : (u.chan c).pendingEnd = some ⟨causes, .prepared⟩ := by rw [here]; rfl
  rw [acts]
  constructor
  · rw [served.rest, here]
    show (if causes.exhausted then ChanState.idle else .stopped) = _
    simp only [exhausted]
  · by_cases out : (u.chan c).outstanding = none
    · obtain ⟨stage, -, now⟩ := served.ended causes ⟨pending, out⟩
      exact ⟨_, now, rfl, exhausted⟩
    · exact ⟨_, (served.kept fun causes' awaits => out awaits.2).trans pending, rfl, exhausted⟩

/-! ## The obligation -/

theorem mem_keys_iff {m : List (Nat × EventLink)} {n : Nat} : n ∈ m.map Prod.fst ↔ (mapFind m n).isSome = true := by
  rw [List.mem_map]
  constructor
  · rintro ⟨x, mem, rfl⟩
    exact mapFind_isSome_of_mem mem
  · intro some
    obtain ⟨l, hl⟩ := Option.isSome_iff_exists.1 some
    exact ⟨(n, l), mem_of_mapFind hl, rfl⟩

theorem closeInterval_meter {s : State} (acts : s.acting = true) (room : s.meter.queue.length < 2)
    (number : s.meter.number ≠ BitVec.allOnes 32) (good : s.accsGood) :
    ∃ t, act .closeInterval s = ⟨t, [⟨.intervalClosed, none⟩]⟩ ∧ Frame [.meter] s t
      ∧ (∀ k, t.acc k = { residue := (s.acc k).residue })
      ∧ t.meter = { s.meter with
          accs := t.meter.accs, number := s.meter.number + 1, span := 1, marks := 0, opened := s.time.now
          queue := s.meter.queue ++
            [{ number := s.meter.number, span := s.meter.span, opened := s.meter.opened, closed := s.time.now
               marks := s.meter.marks, records := s.recordsNow }] } := by
  obtain ⟨runs, frame, queue, accs⟩ := closeInterval_of_good good
  have closes : s.closes = true := by
    unfold State.closes
    rw [Bool.and_eq_true, decide_eq_true_iff, bne_iff_ne]
    exact ⟨room, number⟩
  have taken : boundary s = closeInterval s := (if_pos acts).trans (if_pos closes)
  refine ⟨s.closed, taken.trans runs, frame, accs, ?_⟩
  have whole : s.closed.meter = { s.meter with
      accs := s.closed.meter.accs, number := s.meter.number + 1, span := 1, marks := 0, opened := s.time.now
      queue := s.closed.meter.queue } := rfl
  rw [whole, queue]

theorem closeInterval_defers {s : State} (acts : s.acting = true)
    (full : 2 ≤ s.meter.queue.length ∨ s.meter.number = BitVec.allOnes 32) : act .closeInterval s =
      ⟨{ s with meter := { s.meter with span := s.meter.span + 1 } }, [⟨.closeDeferred, none⟩]⟩ := by
  have open_ : s.closes = false := by
    unfold State.closes
    rw [Bool.and_eq_false_iff, decide_eq_false_iff_not, bne_eq_false_iff_eq]
    exact full.imp_left Nat.not_lt_of_le
  exact (if_pos acts).trans (if_neg (by rw [open_]; decide))

/-- Settles O45: one link (`fireLink_acts`), a SAMPLE (`sample_acting`), and the chains, three events deep (`settles_all`). -/
theorem eventLinksActAndHoldOff : Obligations.EventLinksActAndHoldOff := by
  unfold Obligations.EventLinksActAndHoldOff
  refine ⟨fun s e n l found => ?_, fun s acts => ?_, fun s rests => ?_, fun s e rests => ?_, fun s e acts wf => ?_,
    fun s es ends => settles_all ends, fun s code => rfl, fun s notify => ⟨?_, ?_⟩, fun s notify => ⟨?_, ?_⟩,
    fun s acts full => closeInterval_defers acts full, fun s acts room number good => closeInterval_meter acts room number good,
    fun s c => ⟨fun rests => ?_, fun run event => exportEvent_ends run event⟩⟩
  · intro hears acts _
    have fires : acts (fireLink n l s) := fireLink_acts found
    refine ⟨hearEvent_deaf found, hearEvent_waits found, fun h free => ?_, lowerHoldOff_free found, fun last pend => ?_,
      lowerHoldOff_lowers found⟩
    · rw [hearEvent_fires found h free]
      exact fires
    · rw [lowerHoldOff_fires found last pend]
      exact fires
  · obtain ⟨t, sampled⟩ := sample_acting acts
    exact ⟨_, _, _, sampled.sample⟩
  · exact ⟨_, (congrArg done (takeSample_resting rests)).trans (done_of _), rfl⟩
  · exact if_neg (by rw [rests]; decide)
  · exact ⟨s.links.map Prod.fst, keys_sorted wf, fun n => mem_keys_iff, if_pos acts⟩
  · exact congrArg Out.of (composeLoad_of_mayNotify notify)
  · exact congrArg Out.of (composeLink_linkNow notify)
  · exact congrArg Out.of (composeLoad_of_not notify)
  · exact congrArg Out.of (composeLink_of_not notify)
  · exact congrArg Out.of (exportEvent_rests rests)

end Sys2Proof.Machine
end


section
/-! REACH notices and their items at the table (O34). -/

namespace Sys2Proof.Machine

/-! ## Faulty entries of a bucket (R36) -/

theorem unannounced_eq (s : State) (i : Nat) : s.unannounced i = (mapFind s.fwd.table i).map FwdEntry.plain := rfl

theorem unannounced_of_fwd {s t : State} (h : t.fwd.table = s.fwd.table) (i : Nat) : t.unannounced i = s.unannounced i :=
  congrArg (fun m => (mapFind m i).map FwdEntry.plain) h

theorem unannounced_of_same {s t : State} (h : SameButFlags s.fwd.table t.fwd.table) (i : Nat) :
    t.unannounced i = s.unannounced i := h i

/-- The place holds an entry that fails its check. -/
def State.faultyAt (s : State) (i : Nat) : Bool := (mapFind s.fwd.table i).any fun e => !e.checkGood

theorem faultyAt_of_unannounced {s t : State} {i : Nat} (h : t.unannounced i = s.unannounced i) :
    t.faultyAt i = s.faultyAt i := by
  have plain (u : State) : u.faultyAt i = (u.unannounced i).any fun e => !e.checkGood := by
    unfold State.faultyAt State.unannounced
    rw [Option.any_map]
    rfl
  rw [plain, plain, h]

theorem withoutEntry_unannounced {i : Nat} {s : State} (wf : mapWf s.fwd.table = true) (e : FwdEntry) (j : Nat) :
    (withoutEntry i e s).unannounced j = if j = i then none else s.unannounced j := by
  have dropped : (dropEntry i s).unannounced j = if j = i then none else s.unannounced j := by
    rw [unannounced_eq]
    split
    next here =>
      rw [here]
      exact congrArg _ (mapFind_mapErase wf i)
    next other => exact congrArg _ (mapFind_mapErase_ne _ other)
  refine (unannounced_of_same (s := dropEntry i s) ?_ j).trans dropped
  unfold withoutEntry
  split
  · exact queueReach_same _ _ _ _
  · exact .refl _

theorem announceItem_wf {m : List (Nat × FwdEntry)} (wf : mapWf m = true) (it : ReachItem) : mapWf (announceItem it m) = true := by
  unfold announceItem
  split
  · exact wf
  · exact mapModify_wf wf _ _

theorem announceItems_wf {m : List (Nat × FwdEntry)} (wf : mapWf m = true) (is : List ReachItem) :
    mapWf (announceItems is m) = true := by
  induction is generalizing m with
  | nil => exact wf
  | cons it is ih => exact ih (announceItem_wf wf it)

theorem queueReach_wf {s : State} (wf : mapWf s.fwd.table = true) (op : ReachOp) (t : Tenant) (a : Addr) :
    mapWf (queueReach op t a s).fwd.table = true := by
  unfold queueReach composeReach
  split
  · rw [enqueueReach_table]
    exact announceItems_wf wf _
  · rwa [enqueueReach_table]

theorem withoutEntry_wf {s : State} (wf : mapWf s.fwd.table = true) (i : Nat) (e : FwdEntry) :
    mapWf (withoutEntry i e s).fwd.table = true := by
  have dropped : mapWf (dropEntry i s).fwd.table = true := mapErase_wf wf i
  unfold withoutEntry
  split
  · exact queueReach_wf dropped _ _ _
  · exact dropped

/-- What the test of one place does: a faulty entry is gone, with its event. -/
structure SlotTested (i : Nat) (s : State) (o : Out) : Prop where
  wf : mapWf o.st.fwd.table = true
  evs : o.evs = List.replicate ([i].filter s.faultyAt).length ⟨.integrityFault, none⟩
  here : o.st.unannounced i = (s.unannounced i).filter fun e => e.checkGood
  away : ∀ j, j ≠ i → o.st.unannounced j = s.unannounced j

theorem testSlot_tested {s : State} (wf : mapWf s.fwd.table = true) (i : Nat) : SlotTested i s (testSlot i s) := by
  unfold testSlot
  cases found : mapFind s.fwd.table i with
  | none =>
    have sound : s.faultyAt i = false := by rw [State.faultyAt, found]; rfl
    refine ⟨wf, ?_, ?_, fun _ _ => rfl⟩
    · rw [List.filter_cons_of_neg (by rw [sound]; decide)]
      rfl
    · dsimp only [Out.of_st]
      rw [unannounced_eq, found]
      rfl
  | some e =>
    dsimp only
    by_cases good : e.checkGood = true
    · have sound : s.faultyAt i = false := by
        rw [State.faultyAt, found, Option.any_some, good]
        rfl
      rw [if_pos good]
      refine ⟨wf, ?_, ?_, fun _ _ => rfl⟩
      · rw [List.filter_cons_of_neg (by rw [sound]; decide)]
        rfl
      · dsimp only [Out.of_st]
        rw [unannounced_eq, found]
        exact (if_pos good).symm
    · have faulty : s.faultyAt i = true := by
        rw [State.faultyAt, found, Option.any_some, Bool.eq_false_of_not_eq_true good]
        rfl
      have left (j : Nat) : (entryFault i e s).st.unannounced j = if j = i then none else s.unannounced j :=
        (unannounced_of_fwd (congrArg Forwarding.table (entryFault_fwd i e s)) j).trans (withoutEntry_unannounced wf e j)
      rw [if_neg good]
      refine ⟨?_, ?_, ?_, fun j other => (left j).trans (if_neg other)⟩
      · rw [entryFault_fwd]
        exact withoutEntry_wf wf i e
      · rw [List.filter_cons_of_pos faulty]
        exact entryFault_evs i e s
      · rw [left, if_pos rfl, unannounced_eq, found]
        exact (if_neg good).symm

/-- What the test of several places does. -/
structure SlotsTested (is : List Nat) (s : State) (o : Out) : Prop where
  evs : o.evs = List.replicate (is.filter s.faultyAt).length ⟨.integrityFault, none⟩
  here : ∀ i ∈ is, o.st.unannounced i = (s.unannounced i).filter fun e => e.checkGood
  away : ∀ j, j ∉ is → o.st.unannounced j = s.unannounced j

theorem testSlots_tested {is : List Nat} (nodup : is.Nodup) {s : State} (wf : mapWf s.fwd.table = true) :
    SlotsTested is s (eachOut testSlot is s) := by
  induction is generalizing s with
  | nil => exact ⟨rfl, fun _ h => (List.not_mem_nil h).elim, fun _ _ => rfl⟩
  | cons i is ih =>
    obtain ⟨new, nodup⟩ := List.nodup_cons.1 nodup
    have first := testSlot_tested wf i
    have rest := ih nodup first.wf
    have ne {j : Nat} (hj : j ∈ is) : j ≠ i := fun e => new (e ▸ hj)
    rw [eachOut, Out.andThen_eq]
    refine ⟨?_, fun j hj => ?_, fun j hj => ?_⟩
    · have same : is.filter (testSlot i s).st.faultyAt = is.filter s.faultyAt :=
        List.filter_congr fun j hj => faultyAt_of_unannounced (first.away j (ne hj))
      have split : (i :: is).filter s.faultyAt = [i].filter s.faultyAt ++ is.filter s.faultyAt :=
        List.filter_append [i] is
      rw [first.evs, rest.evs, same, split, List.length_append, List.replicate_add]
    · rcases List.mem_cons.1 hj with rfl | hj
      · exact (rest.away _ new).trans first.here
      · rw [rest.here j hj, first.away j (ne hj)]
    · obtain ⟨ne, absent⟩ := not_or.1 (mt List.mem_cons.2 hj)
      exact (rest.away j absent).trans (first.away j ne)

theorem bucketFaulty_eq_false_iff {b : Nat} {s : State} : bucketFaulty b s = false ↔ ∀ i ∈ bucketSlots b, s.faultyAt i = false :=
  List.any_eq_false.trans (forall₂_congr fun _ _ => (Bool.not_eq_true _).to_iff)

theorem testBucket_of_sound {b : Nat} {s : State} (h : bucketFaulty b s = false) : testBucket b s = .of s := by
  have sound := bucketFaulty_eq_false_iff.1 h
  unfold testBucket
  generalize bucketSlots b = is at sound
  induction is with
  | nil => rfl
  | cons i is ih =>
    have good : ∀ e, mapFind s.fwd.table i = some e → e.checkGood = true := fun e he => by
      have := sound i List.mem_cons_self
      rw [State.faultyAt, he] at this
      simpa using this
    rw [eachOut, testSlot_of_good good, Out.of_andThen, ih fun j hj => sound j (List.mem_cons_of_mem _ hj)]

/-- What a REACH item does to a bucket already tested. -/
def itemAt (src : Station) (it : ReachItem) (s : State) : State :=
  match it.op with
  | .join =>
    match s.peer src with
    | some p => joinKey ⟨src, p.gen, s.fwd.period⟩ it.tenant it.addr s
    | none => s
  | .leave => leaveKey src it.tenant it.addr s

theorem applyItem_eq (src : Station) (it : ReachItem) (s : State) :
    applyItem src it s = (testBucket (bucketOf it.tenant it.addr) s).also (itemAt src it) := rfl

theorem applyItem_of_sound {src : Station} {it : ReachItem} {s : State}
    (h : bucketFaulty (bucketOf it.tenant it.addr) s = false) : applyItem src it s = .of (itemAt src it s) := by
  rw [applyItem_eq, testBucket_of_sound h, Out.of_also]

/-! ## A notice as a whole (R27) -/

theorem withPayload_none {α : Type} {r : Option α} (h : r = none) (f : α → State → Out) (s : State) :
    withPayload r f s = .of { s with line := { s.line with formatError := satInc s.line.formatError } } := by
  rw [h]
  rfl

theorem withPayload_some {α : Type} {r : Option α} {x : α} (h : r = some x) (f : α → State → Out) (s : State) :
    withPayload r f s = f x s := by
  rw [h]
  rfl

theorem takeReach_ignored {s : State} {src : Station} {r : ReachRx} (h : ¬ s.takesNotice src r.serial) :
    takeReach src r s = .of { s with fwd := { s.fwd with reachIgnored := satInc s.fwd.reachIgnored } } :=
  if_neg (mt takesNotice_iff.1 h)

theorem takeReach_taken {s : State} {src : Station} {r : ReachRx} (h : s.takesNotice src r.serial) :
    takeReach src r s = eachOut (applyItem src) r.items s :=
  if_pos (takesNotice_iff.2 h)

theorem takesNotice_of_peer {s : State} {src : Station} {x : PeerSlot} (h : s.peer src = some x) (live : x.state ≠ .lost) :
    (refreshHeard src s).takesNotice src x.serial := by
  obtain ⟨n, slot, hx⟩ := peer_eq_some h
  refine ⟨n, s.heardSlot x, ?_, ?_, live, rfl⟩
  · rw [refreshHeard_of_slot slot hx, slotOf_setSlot (y := s.heardSlot x) hx rfl, slot]
  · rw [refreshHeard_of_slot slot hx, slot_setSlot]

/-! ## The holders of an entry (R28) -/

theorem insertHolder_split (h : Holder) (hs : List Holder) : ∃ before after, hs = before ++ after
    ∧ insertHolder h hs = before ++ h :: after ∧ (∀ y ∈ before, y.station.toNat ≤ h.station.toNat)
    ∧ ∀ y, after.head? = some y → h.station.toNat < y.station.toNat := by
  induction hs with
  | nil => exact ⟨[], [], rfl, rfl, fun _ k => (List.not_mem_nil k).elim, fun _ k => by cases k⟩
  | cons x xs ih =>
    by_cases first : h.station.toNat < x.station.toNat
    · refine ⟨[], x :: xs, rfl, if_pos first, fun _ k => (List.not_mem_nil k).elim, fun y k => ?_⟩
      cases k
      exact first
    · obtain ⟨before, after, parts, inserted, low, high⟩ := ih
      refine ⟨x :: before, after, congrArg (x :: ·) parts, ?_, fun y hy => ?_, high⟩
      · rw [insertHolder, if_neg first, inserted]
        rfl
      · rcases List.mem_cons.1 hy with rfl | hy
        · exact Nat.not_lt.1 first
        · exact low y hy

theorem holderDead_iff {s : State} {y : Holder} :
    s.holderDead y = true ↔ ∀ z, s.peer y.station = some z → z.gen ≠ y.gen := by
  unfold State.holderDead
  cases s.peer y.station <;> simp

/-- The step of the choice in `oldestDead`. -/
def olderDead (now : BitVec 16) (m : Option Holder) (h : Holder) : Option Holder :=
  match m with
  | none => some h
  | some x => if holderAge now x < holderAge now h then some h else some x

/-- A holder's station and age, as a candidate of R21's choice. -/
def Holder.candidate (now : BitVec 16) (h : Holder) : Nat × Nat := (h.station.toNat, holderAge now h)

theorem foldl_olderDead (now : BitVec 16) (hs : List Holder) (m : Option Holder) :
    (hs.foldl (olderDead now) m).map (Holder.candidate now)
      = (hs.map (Holder.candidate now)).foldl olderOf (m.map (Holder.candidate now)) := by
  induction hs generalizing m with
  | nil => rfl
  | cons h hs ih =>
    refine (ih _).trans (congrArg (fun n => (hs.map (Holder.candidate now)).foldl olderOf n) ?_)
    cases m with
    | none => rfl
    | some x =>
      unfold olderDead
      dsimp only
      split
      next older => exact (if_pos older).symm
      next younger => exact (if_neg younger).symm

theorem oldestDead_eq (s : State) (hs : List Holder) :
    oldestDead s hs = (hs.filter s.holderDead).foldl (olderDead s.fwd.period) none := by
  unfold oldestDead
  refine congrArg (fun f => List.foldl f none (hs.filter s.holderDead)) (funext fun m => funext fun h => ?_)
  cases m <;> rfl

theorem oldestDead_none {s : State} {hs : List Holder} (h : ∀ y ∈ hs, s.holderDead y = false) : oldestDead s hs = none := by
  rw [oldestDead_eq, List.filter_eq_nil_iff.2 fun y hy => by rw [h y hy]; decide]
  rfl

theorem eq_of_station {hs : List Holder} (sorted : (hs.map fun z => z.station.toNat).Pairwise (· < ·)) {x y : Holder}
    (hx : x ∈ hs) (hy : y ∈ hs) (same : x.station.toNat = y.station.toNat) : x = y :=
  List.inj_on_of_nodup_map (sorted.imp fun lt => Nat.ne_of_lt lt) hx hy same

/-- The oldest dead holder, the lowest station between equals. -/
theorem oldestDead_of_oldest {s : State} {hs : List Holder} {y : Holder}
    (sorted : (hs.map fun z => z.station.toNat).Pairwise (· < ·)) (hy : y ∈ hs) (dead : s.holderDead y = true)
    (best : ∀ z ∈ hs, s.holderDead z = true → holderAge s.fwd.period z < holderAge s.fwd.period y
      ∨ (holderAge s.fwd.period z = holderAge s.fwd.period y ∧ y.station.toNat ≤ z.station.toNat)) :
    oldestDead s hs = some y := by
  have order : ((hs.filter s.holderDead).map (Holder.candidate s.fwd.period)).Pairwise fun a b => a.1 < b.1 :=
    List.pairwise_map.2 ((List.pairwise_map.1 sorted).sublist List.filter_sublist)
  have chosen : (oldestDead s hs).map (Holder.candidate s.fwd.period) = some (y.candidate s.fwd.period) := by
    rw [oldestDead_eq, foldl_olderDead]
    refine foldl_olderOf_eq order (List.mem_map_of_mem (List.mem_filter.2 ⟨hy, dead⟩)) (fun c hc => ?_)
      fun _ none => by cases none
    obtain ⟨z, hz, rfl⟩ := List.mem_map.1 hc
    obtain ⟨mem, gone⟩ := List.mem_filter.1 hz
    exact best z mem gone
  obtain ⟨z, hz, same⟩ := Option.map_eq_some_iff.1 chosen
  rw [hz, eq_of_station sorted (mem_of_oldestDead hz) hy (congrArg Prod.fst same)]

theorem any_station_iff {hs : List Holder} {st : Station} :
    hs.any (fun x => x.station == st) = true ↔ ∃ y ∈ hs, y.station = st :=
  List.any_eq_true.trans (exists_congr fun _ => and_congr_right fun _ => beq_iff_eq)

theorem joinHolders_known {s : State} {h : Holder} {hs : List Holder} (k : ∃ y ∈ hs, y.station = h.station) :
    joinHolders s h hs = hs.map fun y => if y.station = h.station then h else y := by
  refine (if_pos (any_station_iff.2 k)).trans (List.map_congr_left fun x _ => ?_)
  simp only [beq_iff_eq]

section

variable {s : State} {h : Holder} {hs : List Holder} (new : ∀ y ∈ hs, y.station ≠ h.station)
include new

theorem joinHolders_new : joinHolders s h hs = if hs.length < 5 then insertHolder h hs
    else match oldestDead s hs with
      | some d => insertHolder h (hs.filter fun x => x != d)
      | none => hs := by
  refine if_neg fun k => ?_
  obtain ⟨y, hy, same⟩ := any_station_iff.1 k
  exact new y hy same

theorem joinHolders_room (room : hs.length < 5) : joinHolders s h hs = insertHolder h hs :=
  (joinHolders_new new).trans (if_pos room)

theorem joinHolders_full (full : 5 ≤ hs.length) (old : oldestDead s hs = none) : joinHolders s h hs = hs := by
  rw [joinHolders_new new, if_neg (by omega), old]

theorem joinHolders_replaces (full : 5 ≤ hs.length) {d : Holder} (old : oldestDead s hs = some d) :
    joinHolders s h hs = insertHolder h (hs.filter fun x => x != d) := by
  rw [joinHolders_new new, if_neg (by omega), old]

end

/-! ## One item at the entry of its key -/

theorem mapInsert_self {α : Type} {m : List (Nat × α)} (wf : mapWf m = true) {i : Nat} {x : α} (h : mapFind m i = some x) :
    mapInsert m i x = m := by
  obtain ⟨before, after, rfl⟩ := List.append_of_mem (mem_of_mapFind h)
  exact mapInsert_middle wf

section

variable {s : State} {t : Tenant} {a : Addr} {i : Nat} {e : FwdEntry}

theorem entryAt_eq_some (h : s.entryAt t a = some e) : ∃ i, keyIndex s.fwd.table t a = some i ∧ mapFind s.fwd.table i = some e :=
  Option.bind_eq_some_iff.1 h

theorem entryAt_of_table {u : State} {f : FwdEntry} (hi : keyIndex s.fwd.table t a = some i)
    (key : f.tenant = t ∧ f.addr = a) (table : u.fwd.table = mapInsert s.fwd.table i f) : u.entryAt t a = some f := by
  unfold State.entryAt
  rw [table, keyIndex_insert_self hi key]
  exact mapFind_mapInsert _ _ _

theorem joinKey_known (hi : keyIndex s.fwd.table t a = some i) (he : mapFind s.fwd.table i = some e) (h : Holder) :
    joinKey h t a s = { s with fwd := { s.fwd with
      table := mapInsert s.fwd.table i { e with holders := joinHolders s h e.holders } } } := by
  unfold joinKey
  rw [hi]
  dsimp only
  rw [mapModify_of_find he]

theorem joinKey_new (absent : keyIndex s.fwd.table t a = none) (free : freeSlot s.fwd.table (bucketOf t a) = some i) (h : Holder) :
    joinKey h t a s = putEntry i (freshEntry t a none [h]) s := by
  unfold joinKey
  rw [absent]
  dsimp only
  rw [free]

theorem joinKey_refused (absent : keyIndex s.fwd.table t a = none) (full : freeSlot s.fwd.table (bucketOf t a) = none)
    (h : Holder) : joinKey h t a s = { s with fwd := { s.fwd with reachRefused := satInc s.fwd.reachRefused } } := by
  unfold joinKey
  rw [absent]
  dsimp only
  rw [full]

theorem leaveKey_absent (src : Station) (absent : keyIndex s.fwd.table t a = none) : leaveKey src t a s = s := by
  unfold leaveKey
  rw [absent]

theorem leaveKey_stranger {src : Station} (hi : keyIndex s.fwd.table t a = some i) (he : mapFind s.fwd.table i = some e)
    (new : ∀ y ∈ e.holders, y.station ≠ src) : leaveKey src t a s = s := by
  unfold leaveKey
  rw [hi]
  dsimp only
  rw [he]
  refine if_neg fun k => ?_
  obtain ⟨y, hy, same⟩ := any_station_iff.1 k
  exact new y hy same

theorem leaveKey_holder {src : Station} (hi : keyIndex s.fwd.table t a = some i) (he : mapFind s.fwd.table i = some e)
    (holds : ∃ y ∈ e.holders, y.station = src) : leaveKey src t a s =
      removeEmpty i (putEntry i { e with holders := e.holders.filter fun y => y.station != src } s) := by
  unfold leaveKey
  rw [hi]
  dsimp only
  rw [he]
  exact if_pos (any_station_iff.2 holds)

theorem removeEmpty_put (i : Nat) (e : FwdEntry) (s : State) : removeEmpty i (putEntry i e s) =
    if e.origin = .learned ∧ e.localPort = none ∧ e.holders = [] then dropEntry i (putEntry i e s) else putEntry i e s := by
  have found : mapFind (putEntry i e s).fwd.table i = some e := mapFind_mapInsert _ _ _
  unfold removeEmpty
  rw [found]

end

/-- Settles O34: the notice as a whole, the faulty entries of an item's bucket, and the item at a sound bucket. -/
theorem reachItemsChangeTheHolders : Obligations.ReachItemsChangeTheHolders := by
  unfold Obligations.ReachItemsChangeTheHolders
  refine ⟨fun s src dst l hears length => ?_, fun s src it wf => ?_, fun s src x t a peer sound wf => ?_⟩
  · intro s1
    have received : exec (.reachReceived src dst l) s = done (withPayload (readReach l) (takeReach src) s1) :=
      congrArg done (receive_of_hearsFrom hears (by decide) length _)
    refine ⟨fun bad => ?_, fun r read => ⟨fun strange => ?_, fun x hx live same => ?_⟩⟩
    · rw [received, withPayload_none bad]
      exact done_of _
    · have ignored : ¬ s1.takesNotice src r.serial := fun takes => by
        obtain ⟨n, x, slot, hx, live, same⟩ := takesNotice_refreshHeard takes
        exact (strange x (Option.bind_eq_some_iff.2 ⟨n, slot, hx⟩)).elim live (· same)
      rw [received, withPayload_some read, takeReach_ignored ignored]
      exact done_of _
    · rw [received, withPayload_some read, takeReach_taken (same ▸ takesNotice_of_peer hx live)]
      rfl
  · intro b o
    have tested : SlotsTested (bucketSlots b) s o :=
      testSlots_tested ((bucketSlots_sorted b).imp fun lt => Nat.ne_of_lt lt) wf
    have sound : bucketFaulty b o.st = false := bucketFaulty_eq_false_iff.2 fun i hi => by
      have left := tested.here i hi
      rw [unannounced_eq, unannounced_eq] at left
      unfold State.faultyAt
      cases now : mapFind o.st.fwd.table i with
      | none => rfl
      | some e =>
        rw [now] at left
        have good : e.plain.checkGood = true := (Option.filter_eq_some_iff.1 left.symm).2
        rw [Option.any_some, show e.checkGood = true from good]
        rfl
    refine ⟨?_, sound, (testBucket_frame b s).peers (by decide), tested.evs, tested.here, tested.away⟩
    rw [applyItem_of_sound sound]
    exact (congrArg (Out.mk _) (List.append_nil _)).symm
  · intro h joined left inserted dead age
    have join : joined = .of (joinKey h t a s) := by
      refine (applyItem_of_sound (it := ⟨t, a, .join⟩) sound).trans (congrArg Out.of ?_)
      unfold itemAt
      dsimp only
      rw [peer]
    have leave : left = .of (leaveKey src t a s) := by
      refine (applyItem_of_sound (it := ⟨t, a, .leave⟩) sound).trans (congrArg Out.of ?_)
      unfold itemAt
      rfl
    have deadIff {y : Holder} : s.holderDead y = true ↔ dead y := holderDead_iff
    clear_value joined left
    subst join leave
    have known {e : FwdEntry} {hs : List Holder} (he : s.entryAt t a = some e) (after : joinHolders s h e.holders = hs) :
        (joinKey h t a s).entryAt t a = some { e with holders := hs } := by
      obtain ⟨i, hi, here⟩ := entryAt_eq_some he
      obtain ⟨-, f, hf, key⟩ := entry_of_keyIndex hi
      cases here.symm.trans hf
      rw [joinKey_known hi here, after]
      exact entryAt_of_table hi key rfl
    have inserts {e : FwdEntry} {others : List Holder} (he : s.entryAt t a = some e)
        (after : joinHolders s h e.holders = insertHolder h others) : inserted e others := by
      obtain ⟨before, rest, parts, insertion, low, high⟩ := insertHolder_split h others
      exact ⟨before, rest, parts, known he (after.trans insertion), low, high⟩
    refine ⟨rfl, rfl, joinKey_frame _ _ _ _, leaveKey_frame _ _ _ _, fun e he holds => known he (joinHolders_known holds),
      fun e he new => ⟨fun room => inserts he (joinHolders_room new room), fun full => ⟨fun none => ?_,
        fun y hy gone best sorted => ?_⟩⟩, fun absent i hi free low => ?_, fun absent full => ?_, fun strange => ?_,
      fun e he holds => ?_⟩
    · obtain ⟨i, hi, here⟩ := entryAt_eq_some he
      have alive : ∀ y ∈ e.holders, s.holderDead y = false := fun y hy => Bool.eq_false_of_not_eq_true (mt deadIff.1 (none y hy))
      show joinKey h t a s = s
      rw [joinKey_known hi here, joinHolders_full new full (oldestDead_none alive), mapInsert_self wf here]
    · have oldest : oldestDead s e.holders = some y :=
        oldestDead_of_oldest sorted hy (deadIff.2 gone) fun z hz k => best z hz (deadIff.1 k)
      exact inserts he (joinHolders_replaces new full oldest)
    · exact joinKey_new (keyIndex_of_entryAt_none absent) (freeSlot_of_lowest hi free low) h
    · exact joinKey_refused (keyIndex_of_entryAt_none absent) (freeSlot_eq_none_iff.2 full) h
    · show leaveKey src t a s = s
      cases he : s.entryAt t a with
      | none => exact leaveKey_absent src (keyIndex_of_entryAt_none he)
      | some e =>
        obtain ⟨i, hi, here⟩ := entryAt_eq_some he
        exact leaveKey_stranger hi here (strange e he)
    · intro hs
      obtain ⟨i, hi, here⟩ := entryAt_eq_some he
      obtain ⟨-, f, hf, key⟩ := entry_of_keyIndex hi
      cases here.symm.trans hf
      have now := (leaveKey_holder hi here holds).trans (removeEmpty_put _ _ _)
      refine ⟨fun stays => ?_, fun j hj learned noPort empty => ?_⟩
      · show (leaveKey src t a s).entryAt t a = _
        rw [now, if_neg fun ⟨learned, noPort, empty⟩ => stays.elim (· learned) fun k => k.elim (· noPort) (· empty)]
        exact entryAt_of_table hi key rfl
      · cases hi.symm.trans hj
        show mapFind (leaveKey src t a s).fwd.table i = none
        rw [now, if_pos ⟨learned, noPort, empty⟩]
        exact mapFind_mapErase (mapInsert_wf wf _ _) _

end Sys2Proof.Machine
end


section
/-! The aging walk's visit to a bucket (O22): the four slots are aged one after another. Tables are compared without the
announced flags, which a REACH composed on the way may set. -/

namespace Sys2Proof.Machine

/-! ## What the operations on the reach queue leave of the walk -/

/-- The period and the walk's place are the same. -/
def SamePlace (s t : State) : Prop :=
  t.fwd.period = s.fwd.period ∧ t.fwd.agingPos = s.fwd.agingPos ∧ t.fwd.agingOn = s.fwd.agingOn

/-- The walk's place and all that lies outside table and line are the same. -/
structure WalkKept (s t : State) : Prop where
  frame : Frame [.fwd, .line] s t
  place : SamePlace s t

namespace WalkKept

theorem refl (s : State) : WalkKept s s := ⟨Frame.refl _ s, rfl, rfl, rfl⟩

theorem trans {s t u : State} (h : WalkKept s t) (k : WalkKept t u) : WalkKept s u := by
  obtain ⟨frame, period, pos, on⟩ := h
  obtain ⟨frame', period', pos', on'⟩ := k
  exact ⟨frame.trans frame', period'.trans period, pos'.trans pos, on'.trans on⟩

theorem putEntry (i : Nat) (e : FwdEntry) (s : State) : WalkKept s (putEntry i e s) :=
  ⟨(putEntry_frame i e s).mono (by decide), rfl, rfl, rfl⟩

theorem enqueueReach (op : ReachOp) (t : Tenant) (a : Addr) (s : State) : WalkKept s (enqueueReach op t a s) := by
  refine ⟨(enqueueReach_frame op t a s).mono (by decide), ?_⟩
  unfold Machine.enqueueReach
  split
  · exact ⟨rfl, rfl, rfl⟩
  · split
    · exact ⟨rfl, rfl, rfl⟩
    · split <;> exact ⟨rfl, rfl, rfl⟩

theorem composeReach (s : State) : WalkKept s (composeReach s) := by
  refine ⟨composeReach_frame s, ?_⟩
  unfold Machine.composeReach
  split <;> exact ⟨rfl, rfl, rfl⟩

theorem withdrawKey (t : Tenant) (a : Addr) (x : Bool) (s : State) : WalkKept s (withdrawKey t a x s) := by
  unfold Machine.withdrawKey
  split
  · exact (enqueueReach _ _ _ _).trans (composeReach _)
  · exact refl s

end WalkKept

/-! ## What a visit makes of an entry (R33 to R35) -/

/-- The entry loses its local port at the visit (R34). -/
def State.portLost (s : State) (e : FwdEntry) : Bool :=
  decide (e.origin = .learned) && e.localPort.any fun p =>
    decide (s.params.ageLimit ≤ min (e.age + 1) 4095) || !s.usable (sPort p)

theorem portLost_iff {s : State} {e : FwdEntry} : s.portLost e = true ↔ s.losesPort e := by
  unfold State.portLost State.losesPort
  rw [Bool.and_eq_true, decide_eq_true_iff, Option.any_eq_true]
  refine and_congr_right fun _ => exists_congr fun p => and_congr_right fun _ => ?_
  rw [Bool.or_eq_true, decide_eq_true_iff, Bool.not_eq_true', not_usable_iff]

/-- The entry after local aging (R34). -/
def State.localAged (s : State) (e : FwdEntry) : FwdEntry :=
  if s.portLost e then { e with localPort := none, age := 0 }
  else if e.origin = .learned ∧ e.localPort.isSome = true then { e with age := min (e.age + 1) 4095 }
  else e

/-- The entry after the visit, where one is left (R33). -/
def State.aged (s : State) (e : FwdEntry) : Option FwdEntry :=
  let f := { s.localAged e with holders := (s.localAged e).holders.filter s.keepsHolder }
  if f.origin = .learned ∧ f.localPort = none ∧ f.holders = [] then none else some f

section

variable {s : State} {e : FwdEntry}

theorem localAged_of_lost (lost : s.portLost e = true) : s.localAged e = { e with localPort := none, age := 0 } := if_pos lost

theorem localAged_of_kept (kept : ¬ s.portLost e = true) (has : e.origin = .learned ∧ e.localPort.isSome = true) :
    s.localAged e = { e with age := min (e.age + 1) 4095 } := (if_neg kept).trans (if_pos has)

theorem localAged_of_other (other : ¬ (e.origin = .learned ∧ e.localPort.isSome = true)) : s.localAged e = e := by
  have kept : ¬ s.portLost e = true := fun lost => by
    obtain ⟨learned, p, port, -⟩ := portLost_iff.1 lost
    exact other ⟨learned, by rw [port]; rfl⟩
  exact (if_neg kept).trans (if_neg other)

theorem aged_of_empty (h : (s.localAged e).origin = .learned ∧ (s.localAged e).localPort = none
    ∧ (s.localAged e).holders.filter s.keepsHolder = []) : s.aged e = none := if_pos h

theorem aged_of_left (h : ¬ ((s.localAged e).origin = .learned ∧ (s.localAged e).localPort = none
    ∧ (s.localAged e).holders.filter s.keepsHolder = [])) :
    s.aged e = some { s.localAged e with holders := (s.localAged e).holders.filter s.keepsHolder } := if_neg h

theorem localAged_plain : s.localAged e.plain = (s.localAged e).plain := by
  by_cases has : e.origin = .learned ∧ e.localPort.isSome = true
  · by_cases lost : s.portLost e = true
    · rw [localAged_of_lost lost, localAged_of_lost (e := e.plain) lost]
      rfl
    · rw [localAged_of_kept lost has, localAged_of_kept (e := e.plain) lost has]
      rfl
  · rw [localAged_of_other has, localAged_of_other (e := e.plain) has]

theorem aged_plain : s.aged e.plain = (s.aged e).map FwdEntry.plain := by
  by_cases empty : (s.localAged e).origin = .learned ∧ (s.localAged e).localPort = none
      ∧ (s.localAged e).holders.filter s.keepsHolder = []
  · rw [aged_of_empty empty, aged_of_empty (e := e.plain) (by rw [localAged_plain]; exact empty)]
    rfl
  · rw [aged_of_left empty, aged_of_left (e := e.plain) (by rw [localAged_plain]; exact empty), localAged_plain]
    rfl

end

section

variable {s t : State} (h : WalkKept s t)
include h

theorem WalkKept.portLost : t.portLost = s.portLost := by
  funext e
  unfold State.portLost State.usable State.port
  rw [h.frame.params (by decide), h.frame.ports (by decide)]

theorem WalkKept.keepsHolder : t.keepsHolder = s.keepsHolder := by
  funext x
  unfold State.keepsHolder State.peer State.slotOf State.slot
  rw [h.frame.peers (by decide), h.place.1]

theorem WalkKept.aged : t.aged = s.aged := by
  funext e
  unfold State.aged State.localAged
  rw [h.portLost, h.keepsHolder]

end

theorem keepsHolder_eq (s : State) (h : Holder) : (!s.holderExpired h) = s.keepsHolder h := by
  unfold State.holderExpired State.holderDead State.keepsHolder holderAge
  rw [Bool.not_or, Bool.not_not, ← decide_not]
  simp only [Nat.not_le]

/-! ## One slot -/

section

variable {i : Nat} {s : State} {e : FwdEntry} (found : mapFind s.fwd.table i = some e)
include found

theorem ageLocal_loses (lost : s.portLost e = true) :
    ageLocal i s = withdrawKey e.tenant e.addr e.announced (putEntry i (s.localAged e) s) := by
  obtain ⟨learned, p, port, why⟩ := portLost_iff.1 lost
  unfold ageLocal
  rw [found]
  dsimp only
  rw [learned, port]
  dsimp only
  rw [if_pos (why.imp_right not_usable_iff.2), localAged_of_lost lost, learned]

theorem ageLocal_stays (kept : ¬ s.portLost e = true) :
    ageLocal i s = if e.origin = .learned ∧ e.localPort.isSome = true then putEntry i (s.localAged e) s else s := by
  unfold ageLocal
  rw [found]
  dsimp only
  cases learned : e.origin with
  | fixed n => exact (if_neg fun h => by cases h.1).symm
  | learned =>
    cases port : e.localPort with
    | none => exact (if_neg fun h => by cases h.2).symm
    | some p =>
      have stands : ¬ (s.params.ageLimit ≤ min (e.age + 1) 4095 ∨ s.usable (sPort p) = false) := fun why =>
        kept (portLost_iff.2 ⟨learned, p, port, why.imp_right not_usable_iff.1⟩)
      refine (if_neg stands).trans (Eq.symm ((if_pos ⟨rfl, rfl⟩).trans ?_))
      rw [localAged_of_kept kept ⟨learned, by rw [port]; rfl⟩, learned, port]

end

/-- The table after local aging, but for flags. -/
theorem ageLocal_unannounced {i : Nat} {s : State} {e : FwdEntry} (found : mapFind s.fwd.table i = some e) (j : Nat) :
    (ageLocal i s).unannounced j = if j = i then some (s.localAged e).plain else s.unannounced j := by
  have put : (putEntry i (s.localAged e) s).unannounced j = if j = i then some (s.localAged e).plain else s.unannounced j := by
    rw [unannounced_eq]
    split
    next here =>
      rw [here]
      exact congrArg _ (mapFind_mapInsert _ _ _)
    next other => exact congrArg _ (mapFind_mapInsert_ne _ other _)
  by_cases lost : s.portLost e = true
  · rw [ageLocal_loses found lost, ← put]
    refine unannounced_of_same ?_ j
    unfold withdrawKey
    split
    · exact queueReach_same _ _ _ _
    · exact .refl _
  · rw [ageLocal_stays found lost]
    split
    next => exact put
    next other =>
      split
      next here =>
        rw [here, unannounced_eq, found, localAged_of_other other]
        rfl
      next => rfl

theorem ageLocal_wf {i : Nat} {s : State} (wf : mapWf s.fwd.table = true) : mapWf (ageLocal i s).fwd.table = true := by
  cases found : mapFind s.fwd.table i with
  | none =>
    unfold ageLocal
    rw [found]
    exact wf
  | some e =>
    have put : mapWf (putEntry i (s.localAged e) s).fwd.table = true := mapInsert_wf wf _ _
    by_cases lost : s.portLost e = true
    · rw [ageLocal_loses found lost]
      unfold withdrawKey
      split
      · exact queueReach_wf put _ _ _
      · exact put
    · rw [ageLocal_stays found lost]
      split
      · exact put
      · exact wf

theorem ageLocal_kept {i : Nat} {s : State} : WalkKept s (ageLocal i s) := by
  cases found : mapFind s.fwd.table i with
  | none =>
    unfold ageLocal
    rw [found]
    exact .refl s
  | some e =>
    by_cases lost : s.portLost e = true
    · rw [ageLocal_loses found lost]
      exact (WalkKept.putEntry _ _ _).trans (WalkKept.withdrawKey _ _ _ _)
    · rw [ageLocal_stays found lost]
      split
      · exact WalkKept.putEntry _ _ _
      · exact .refl s

/-- The visit to a slot after local aging: its holders expire, and an empty LEARNED entry goes. -/
def settleSlot (i : Nat) (s : State) : State := removeEmpty i (expireHolders i s)

theorem settleSlot_eq {i : Nat} {s : State} {f : FwdEntry} (found : mapFind s.fwd.table i = some f) :
    settleSlot i s = removeEmpty i (putEntry i { f with holders := f.holders.filter s.keepsHolder } s) := by
  unfold settleSlot expireHolders
  rw [mapModify_of_find found, show s.keepsHolder = fun h => !s.holderExpired h from funext fun h => (keepsHolder_eq s h).symm]
  rfl

theorem settleSlot_kept (i : Nat) (s : State) : WalkKept s (settleSlot i s) := by
  have frame : Frame [.fwd] s (settleSlot i s) := (expireHolders_frame i s).trans (removeEmpty_frame i _)
  refine ⟨frame.mono (by decide), ?_⟩
  unfold settleSlot removeEmpty
  split
  · split <;> exact ⟨rfl, rfl, rfl⟩
  · exact ⟨rfl, rfl, rfl⟩

theorem settleSlot_wf {i : Nat} {s : State} (wf : mapWf s.fwd.table = true) : mapWf (settleSlot i s).fwd.table = true := by
  have modified : mapWf (expireHolders i s).fwd.table = true := mapModify_wf wf _ _
  unfold settleSlot removeEmpty
  split
  · split
    · exact mapErase_wf modified _
    · exact modified
  · exact modified

theorem settleSlot_queue (i : Nat) (s : State) : (settleSlot i s).fwd.queue = s.fwd.queue := removeEmpty_queue i _

theorem settleSlot_line (i : Nat) (s : State) : (settleSlot i s).line = s.line :=
  ((expireHolders_frame i s).trans (removeEmpty_frame i _)).line (by decide)

theorem mapFind_settleSlot_ne {i j : Nat} (h : j ≠ i) (s : State) :
    mapFind (settleSlot i s).fwd.table j = mapFind s.fwd.table j := by
  have first : mapFind (expireHolders i s).fwd.table j = mapFind s.fwd.table j := mapFind_mapModify_ne _ h _
  unfold settleSlot removeEmpty
  split
  · split
    · exact (mapFind_mapErase_ne _ h).trans first
    · exact first
  · exact first

theorem mapFind_settleSlot {i : Nat} {s : State} {f : FwdEntry} (wf : mapWf s.fwd.table = true)
    (found : mapFind s.fwd.table i = some f) : mapFind (settleSlot i s).fwd.table i =
      if f.origin = .learned ∧ f.localPort = none ∧ f.holders.filter s.keepsHolder = [] then none
      else some { f with holders := f.holders.filter s.keepsHolder } := by
  rw [settleSlot_eq found, removeEmpty_put]
  split
  · exact mapFind_mapErase (mapInsert_wf wf _ _) _
  · exact mapFind_mapInsert _ _ _

/-- A slot after its visit. -/
structure SlotAged (i : Nat) (s t : State) : Prop where
  kept : WalkKept s t
  wf : mapWf t.fwd.table = true
  here : t.unannounced i = (s.unannounced i).bind s.aged
  away : ∀ j, j ≠ i → t.unannounced j = s.unannounced j

theorem ageSlot_good {i : Nat} {s : State} {e : FwdEntry} (found : mapFind s.fwd.table i = some e) (good : e.checkGood = true) :
    ageSlot i s = .of (settleSlot i (ageLocal i s)) := by
  unfold ageSlot
  rw [found]
  exact if_pos good

theorem ageSlot_empty {i : Nat} {s : State} (found : mapFind s.fwd.table i = none) : ageSlot i s = .of s := by
  unfold ageSlot
  rw [found]

theorem ageSlot_aged {i : Nat} {s : State} (wf : mapWf s.fwd.table = true) (sound : s.faultyAt i = false) :
    ∃ t, ageSlot i s = .of t ∧ SlotAged i s t := by
  cases found : mapFind s.fwd.table i with
  | none =>
    refine ⟨s, ageSlot_empty found, .refl s, wf, ?_, fun _ _ => rfl⟩
    rw [unannounced_eq, found]
    rfl
  | some e =>
    have good : e.checkGood = true := by
      rw [State.faultyAt, found] at sound
      simpa using sound
    have wf1 := ageLocal_wf (i := i) wf
    have kept1 : WalkKept s (ageLocal i s) := ageLocal_kept
    refine ⟨_, ageSlot_good found good, kept1.trans (settleSlot_kept i _), settleSlot_wf wf1, ?_, fun j other => ?_⟩
    · have here := ageLocal_unannounced found i
      rw [if_pos rfl] at here
      obtain ⟨f, hf, plain⟩ := Option.map_eq_some_iff.1 here
      have result : (s.unannounced i).bind s.aged = (s.aged e).map FwdEntry.plain := by
        rw [unannounced_eq, found]
        exact aged_plain
      have settled := congrArg (Option.map FwdEntry.plain) (mapFind_settleSlot wf1 hf)
      have plain : f.plain = (s.localAged e).plain := plain
      have origin : f.origin = (s.localAged e).origin := (congrArg FwdEntry.origin plain :)
      have port : f.localPort = (s.localAged e).localPort := (congrArg FwdEntry.localPort plain :)
      have holders : f.holders = (s.localAged e).holders := (congrArg FwdEntry.holders plain :)
      have rest : FwdEntry.plain { f with holders := f.holders.filter s.keepsHolder }
          = FwdEntry.plain { s.localAged e with holders := (s.localAged e).holders.filter s.keepsHolder } :=
        congrArg (fun x : FwdEntry => { x with holders := x.holders.filter s.keepsHolder }) plain
      rw [result, unannounced_eq]
      refine settled.trans ?_
      rw [kept1.keepsHolder, apply_ite (Option.map FwdEntry.plain), Option.map_some, rest, origin, port, holders,
        State.aged, apply_ite (Option.map FwdEntry.plain)]
      rfl
    · have first := ageLocal_unannounced found j
      rw [if_neg other] at first
      exact (congrArg (Option.map FwdEntry.plain) (mapFind_settleSlot_ne other _)).trans first

/-! ## The slots of a bucket -/

/-- Several slots after their visits. -/
structure SlotsAged (is : List Nat) (s t : State) : Prop where
  kept : WalkKept s t
  here : ∀ i ∈ is, t.unannounced i = (s.unannounced i).bind s.aged
  away : ∀ j, j ∉ is → t.unannounced j = s.unannounced j

theorem ageSlots_aged {is : List Nat} (nodup : is.Nodup) {s : State} (wf : mapWf s.fwd.table = true)
    (sound : ∀ i ∈ is, s.faultyAt i = false) : ∃ t, eachOut ageSlot is s = .of t ∧ SlotsAged is s t := by
  induction is generalizing s with
  | nil => exact ⟨s, rfl, .refl s, fun _ h => (List.not_mem_nil h).elim, fun _ _ => rfl⟩
  | cons i is ih =>
    obtain ⟨new, nodup⟩ := List.nodup_cons.1 nodup
    have ne {j : Nat} (hj : j ∈ is) : j ≠ i := fun e => new (e ▸ hj)
    obtain ⟨t, first, aged⟩ := ageSlot_aged wf (sound i List.mem_cons_self)
    obtain ⟨u, rest, more⟩ := ih nodup aged.wf fun j hj =>
      (faultyAt_of_unannounced (aged.away j (ne hj))).trans (sound j (List.mem_cons_of_mem _ hj))
    refine ⟨u, ?_, aged.kept.trans more.kept, fun j hj => ?_, fun j hj => ?_⟩
    · rw [eachOut, first, Out.of_andThen, rest]
    · rcases List.mem_cons.1 hj with rfl | hj
      · exact (more.away _ new).trans aged.here
      · rw [more.here j hj, aged.away j (ne hj), aged.kept.aged]
    · obtain ⟨other, absent⟩ := not_or.1 (mt List.mem_cons.2 hj)
      exact (more.away j absent).trans (aged.away j other)

/-! ## The LEAVEs of a visit while no REACH can be composed (R25) -/

/-- What stands in a reach queue that has only taken LEAVEs since. -/
structure LeavesAdded (n : Nat) (q q' : List ReachItem) : Prop where
  leaves : ∀ t a, (⟨t, a, .leave⟩ : ReachItem) ∈ q → (⟨t, a, .leave⟩ : ReachItem) ∈ q'
  keys : ∀ t a, keyQueued t a q = true → keyQueued t a q' = true
  length : q'.length ≤ q.length + n

theorem LeavesAdded.refl (n : Nat) (q : List ReachItem) : LeavesAdded n q q := ⟨fun _ _ => id, fun _ _ => id, Nat.le_add_right _ _⟩

theorem keyQueued_iff {t : Tenant} {a : Addr} {q : List ReachItem} :
    keyQueued t a q = true ↔ ∃ x ∈ q, x.tenant = t ∧ x.addr = a := by
  unfold keyQueued
  simp only [List.any_eq_true, Bool.and_eq_true, beq_iff_eq]

theorem reachAfter_leavesAdded (t : Tenant) (a : Addr) (q : List ReachItem) : LeavesAdded 1 q (reachAfter .leave t a q) := by
  by_cases queued : keyQueued t a q = true
  · rw [reachAfter_of_queued queued]
    refine ⟨fun u b mem => ?_, fun u b has => ?_, by rw [List.length_map]; exact Nat.le_succ _⟩
    · refine List.mem_map.2 ⟨_, mem, ?_⟩
      split <;> rfl
    · obtain ⟨x, mem, tenant, addr⟩ := keyQueued_iff.1 has
      refine keyQueued_iff.2 ⟨_, List.mem_map_of_mem mem, ?_, ?_⟩
      · split <;> exact tenant
      · split <;> exact addr
  · rw [reachAfter_of_new queued]
    split
    · refine ⟨fun u b mem => List.mem_append_left _ mem, fun u b has => ?_, by rw [List.length_append]; rfl⟩
      obtain ⟨x, mem, key⟩ := keyQueued_iff.1 has
      exact keyQueued_iff.2 ⟨x, List.mem_append_left _ mem, key⟩
    · exact .refl 1 q

theorem leave_mem_reachAfter {t : Tenant} {a : Addr} {q : List ReachItem} (room : q.length < 512) :
    (⟨t, a, .leave⟩ : ReachItem) ∈ reachAfter .leave t a q := by
  by_cases queued : keyQueued t a q = true
  · obtain ⟨x, mem, tenant, addr⟩ := keyQueued_iff.1 queued
    rw [reachAfter_of_queued queued]
    refine List.mem_map.2 ⟨x, mem, ?_⟩
    rw [if_pos (ReachItem.isFor_iff.2 (by rw [tenant, addr])), ← tenant, ← addr]
  · rw [reachAfter_of_new queued, if_pos room]
    exact List.mem_append_right _ List.mem_cons_self

theorem withdrawKey_busy {t : Tenant} {a : Addr} {x : Bool} {s : State} (busy : ¬ s.reachFree) :
    withdrawKey t a x s = if keyQueued t a s.fwd.queue = true ∨ x = true then enqueueReach .leave t a s else s := by
  unfold withdrawKey
  rw [queueReach_of_not_free busy]
  exact if_congr (Bool.or_eq_true_iff) rfl rfl

/-- A slot's visit while no REACH can be composed. -/
structure SlotBusy (i : Nat) (s t : State) : Prop where
  line : t.line = s.line
  queue : LeavesAdded 1 s.fwd.queue t.fwd.queue
  away : ∀ j, j ≠ i → mapFind t.fwd.table j = mapFind s.fwd.table j
  leave : s.fwd.queue.length < 512 → ∀ e, mapFind s.fwd.table i = some e → s.portLost e = true →
    (keyQueued e.tenant e.addr s.fwd.queue = true ∨ e.announced = true) →
    (⟨e.tenant, e.addr, .leave⟩ : ReachItem) ∈ t.fwd.queue

theorem ageLocal_busy {i : Nat} {s : State} (busy : ¬ s.reachFree) : SlotBusy i s (ageLocal i s) := by
  cases found : mapFind s.fwd.table i with
  | none =>
    unfold ageLocal
    rw [found]
    refine ⟨rfl, .refl 1 _, fun _ _ => rfl, fun _ e he => ?_⟩
    cases he.symm.trans found
  | some e =>
    have away : ∀ j, j ≠ i → mapFind (putEntry i (s.localAged e) s).fwd.table j = mapFind s.fwd.table j :=
      fun j other => mapFind_mapInsert_ne _ other _
    by_cases lost : s.portLost e = true
    · rw [ageLocal_loses found lost, withdrawKey_busy (s := putEntry i (s.localAged e) s) busy]
      split
      next wanted =>
        refine ⟨(enqueueReach_frame _ _ _ _).line (by decide), ?_, fun j other => ?_, fun room f hf _ _ => ?_⟩
        · rw [enqueueReach_queue]
          exact reachAfter_leavesAdded _ _ _
        · rw [enqueueReach_table]
          exact away j other
        · cases hf.symm.trans found
          rw [enqueueReach_queue]
          exact leave_mem_reachAfter room
      next unwanted =>
        refine ⟨rfl, .refl 1 _, away, fun _ f hf _ wanted => ?_⟩
        cases hf.symm.trans found
        exact absurd wanted unwanted
    · rw [ageLocal_stays found lost]
      have kept : s.fwd.queue.length < 512 → ∀ f, mapFind s.fwd.table i = some f → s.portLost f = true →
          (keyQueued f.tenant f.addr s.fwd.queue = true ∨ f.announced = true) →
          (⟨f.tenant, f.addr, .leave⟩ : ReachItem) ∈ s.fwd.queue := fun _ f hf gone => by
        cases hf.symm.trans found
        exact absurd gone lost
      split
      · exact ⟨rfl, .refl 1 _, away, kept⟩
      · exact ⟨rfl, .refl 1 _, fun _ _ => rfl, kept⟩

theorem ageSlot_busy {i : Nat} {s : State} (busy : ¬ s.reachFree) (sound : s.faultyAt i = false) :
    SlotBusy i s (ageSlot i s).st := by
  cases found : mapFind s.fwd.table i with
  | none =>
    rw [ageSlot_empty found]
    refine ⟨rfl, .refl 1 _, fun _ _ => rfl, fun _ e he => ?_⟩
    cases he.symm.trans found
  | some e =>
    have good : e.checkGood = true := by
      rw [State.faultyAt, found] at sound
      simpa using sound
    obtain ⟨line, queue, away, leave⟩ := ageLocal_busy (i := i) busy
    rw [ageSlot_good found good, Out.of_st]
    refine ⟨(settleSlot_line i _).trans line, ?_, fun j other => (mapFind_settleSlot_ne other _).trans (away j other), ?_⟩
    · rwa [settleSlot_queue]
    · rwa [settleSlot_queue]

theorem ageSlots_busy {is : List Nat} (nodup : is.Nodup) {s : State} (wf : mapWf s.fwd.table = true)
    (sound : ∀ i ∈ is, s.faultyAt i = false) (busy : ¬ s.reachFree) (room : s.fwd.queue.length + is.length ≤ 512) :
    (∀ t a, (⟨t, a, .leave⟩ : ReachItem) ∈ s.fwd.queue → (⟨t, a, .leave⟩ : ReachItem) ∈ (eachOut ageSlot is s).st.fwd.queue)
      ∧ ∀ i ∈ is, ∀ e, mapFind s.fwd.table i = some e → s.portLost e = true →
          (keyQueued e.tenant e.addr s.fwd.queue = true ∨ e.announced = true) →
          (⟨e.tenant, e.addr, .leave⟩ : ReachItem) ∈ (eachOut ageSlot is s).st.fwd.queue := by
  induction is generalizing s with
  | nil => exact ⟨fun _ _ => id, fun _ h => (List.not_mem_nil h).elim⟩
  | cons i is ih =>
    obtain ⟨new, nodup⟩ := List.nodup_cons.1 nodup
    have ne {j : Nat} (hj : j ∈ is) : j ≠ i := fun e => new (e ▸ hj)
    obtain ⟨line, queue, away, leave⟩ := ageSlot_busy busy (sound i List.mem_cons_self)
    obtain ⟨t, first, aged⟩ := ageSlot_aged wf (sound i List.mem_cons_self)
    rw [first, Out.of_st] at line queue away leave
    have loader : t.loader = s.loader := aged.kept.frame.loader (by decide)
    have length := queue.length
    rw [List.length_cons] at room
    obtain ⟨leaves, more⟩ := ih nodup aged.wf
      (fun j hj => (faultyAt_of_unannounced (aged.away j (ne hj))).trans (sound j (List.mem_cons_of_mem _ hj)))
      (mt (reachFree_congr loader line).1 busy) (by omega)
    rw [eachOut, first, Out.of_andThen]
    refine ⟨fun u b mem => leaves u b (queue.leaves u b mem), fun j hj e he lost wanted => ?_⟩
    rcases List.mem_cons.1 hj with rfl | hj
    · exact leaves _ _ (leave (by omega) e he lost wanted)
    · exact more j hj e ((away j (ne hj)).trans he) (by rwa [aged.kept.portLost]) (wanted.imp_left (queue.keys _ _))

/-! ## The visit -/

/-- The walk goes on to the next bucket, or ends (R33). -/
def passBucket (s : State) : State :=
  if s.fwd.agingPos + 1 < 4096 then { s with fwd := { s.fwd with agingPos := s.fwd.agingPos + 1 } }
  else { s with fwd := { s.fwd with agingPos := 0, agingOn := false } }

theorem passBucket_frame (s : State) : Frame [.fwd] s (passBucket s) := by
  unfold passBucket
  intro b hb
  split <;> cases b <;> first | rfl | simp at hb

theorem passBucket_table (s : State) : (passBucket s).fwd.table = s.fwd.table := by
  unfold passBucket
  split <;> rfl

theorem passBucket_queue (s : State) : (passBucket s).fwd.queue = s.fwd.queue := by
  unfold passBucket
  split <;> rfl

theorem find_of_unannounced {s : State} {i : Nat} {e : FwdEntry} (h : s.unannounced i = some e.plain) :
    ∃ a, mapFind s.fwd.table i = some { e with announced := a } := by
  obtain ⟨f, hf, plain⟩ := Option.map_eq_some_iff.1 h
  refine ⟨f.announced, hf.trans (congrArg _ ?_)⟩
  cases e
  cases f
  cases plain
  rfl

theorem find_none_of_unannounced {s : State} {i : Nat} (h : s.unannounced i = none) : mapFind s.fwd.table i = none :=
  Option.map_eq_none_iff.1 h

/-- Settles O22: the slots of the bucket are aged in order (`ageSlots_aged`), and the walk passes it. -/
theorem agingVisitAgesOneBucket : Obligations.AgingVisitAgesOneBucket := by
  unfold Obligations.AgingVisitAgesOneBucket
  intro s on wf good
  have nodup : (bucketSlots s.fwd.agingPos).Nodup := (bucketSlots_sorted _).imp fun lt => Nat.ne_of_lt lt
  have sound : ∀ i ∈ bucketSlots s.fwd.agingPos, s.faultyAt i = false := fun i hi => by
    unfold State.faultyAt
    cases found : mapFind s.fwd.table i with
    | none => rfl
    | some e => rw [Option.any_some, good i hi e found]; rfl
  obtain ⟨u, walked, aged⟩ := ageSlots_aged nodup wf sound
  obtain ⟨frame, -, pos, running⟩ := aged.kept
  have visit : visitAging s = .of (passBucket u) := by
    unfold visitAging passBucket
    rw [if_pos on, pos]
    dsimp only
    rw [walked, Out.of_also]
  have table (i : Nat) : (passBucket u).unannounced i = u.unannounced i := unannounced_of_fwd (passBucket_table u) i
  refine ⟨passBucket u, (congrArg done visit).trans (done_of _), frame.trans ((passBucket_frame u).mono (by decide)),
    fun short => ?_, fun last => ?_, fun i away => (table i).trans (aged.away i away), fun i hi free => ?_,
    fun i hi e he => ?_⟩
  · unfold passBucket
    rw [if_pos (by omega), pos]
    exact ⟨rfl, running.trans on⟩
  · unfold passBucket
    rw [if_neg (by omega)]
    exact ⟨rfl, rfl⟩
  · refine find_none_of_unannounced ((table i).trans ((aged.here i hi).trans ?_))
    rw [unannounced_eq, free]
    rfl
  · intro hs
    have result : (passBucket u).unannounced i = (s.aged e).map FwdEntry.plain := by
      rw [table, aged.here i hi, unannounced_eq, he]
      exact aged_plain
    have left {f : FwdEntry} (h : s.aged e = some f) : ∃ a, mapFind (passBucket u).fwd.table i = some { f with announced := a } :=
      find_of_unannounced (by rw [result, h]; rfl)
    have gone (h : s.aged e = none) : mapFind (passBucket u).fwd.table i = none :=
      find_none_of_unannounced (by rw [result, h]; rfl)
    refine ⟨fun loses => ⟨fun empty => gone ?_, fun some => left (f := { e with localPort := none, age := 0, holders := hs }) ?_,
      fun busy room wanted => ?_⟩,
      fun keeps learned has => left (f := { e with age := min (e.age + 1) 4095, holders := hs }) ?_,
      fun learned noPort => ⟨fun empty => gone ?_, fun some => left (f := { e with holders := hs }) ?_⟩,
      fun fixed => left (f := { e with holders := hs }) ?_⟩
    · refine aged_of_empty ?_
      rw [localAged_of_lost (portLost_iff.2 loses)]
      exact ⟨loses.1, rfl, empty⟩
    · rw [aged_of_left (by rw [localAged_of_lost (portLost_iff.2 loses)]; exact fun h => some h.2.2),
        localAged_of_lost (portLost_iff.2 loses)]
    · have leave := (ageSlots_busy nodup wf sound busy room).2 i hi e he (portLost_iff.2 loses) wanted
      rw [walked] at leave
      rw [passBucket_queue]
      exact leave
    · have aging := localAged_of_kept (mt portLost_iff.1 keeps) ⟨learned, has⟩
      have present : e.localPort ≠ none := Option.isSome_iff_ne_none.1 has
      rw [aged_of_left (by rw [aging]; exact fun h => present h.2.1), aging]
    · refine aged_of_empty ?_
      rw [localAged_of_other (by rw [noPort]; exact fun h => by cases h.2)]
      exact ⟨learned, noPort, empty⟩
    · have same : s.localAged e = e := localAged_of_other (by rw [noPort]; exact fun h => by cases h.2)
      rw [aged_of_left (by rw [same]; exact fun h => some h.2.2), same]
    · have same : s.localAged e = e := localAged_of_other fun h => fixed h.1
      rw [aged_of_left (by rw [same]; exact fun h => fixed h.1), same]

end Sys2Proof.Machine
end


section
/-! A restored FIXED entry at its bucket (R23): the place that it takes, and the reach operations that follow (R24, R26, R137). -/

namespace Sys2Proof.Machine

/-! ## Reach operations in a row -/

/-- Queues operations one after another. -/
def queueAll (ops : List (ReachOp × Tenant × Addr)) (s : State) : State :=
  eachState (fun o => queueReach o.1 o.2.1 o.2.2) ops s

theorem queueAll_append (os ps : List (ReachOp × Tenant × Addr)) (s : State) :
    queueAll (os ++ ps) s = queueAll ps (queueAll os s) := by
  induction os generalizing s with
  | nil => rfl
  | cons o os ih => exact ih _

theorem queueAll_same (ops : List (ReachOp × Tenant × Addr)) (s : State) :
    SameButFlags s.fwd.table (queueAll ops s).fwd.table := by
  induction ops generalizing s with
  | nil => exact .refl _
  | cons o ops ih => exact (queueReach_same _ _ _ _).trans (ih _)

/-- The queue after an operation. -/
def reachNext (q : List ReachItem) (o : ReachOp × Tenant × Addr) : List ReachItem := reachAfter o.1 o.2.1 o.2.2 q

theorem queueAll_busy {s : State} (busy : ¬ s.reachFree) (ops : List (ReachOp × Tenant × Addr)) :
    (queueAll ops s).fwd.queue = ops.foldl reachNext s.fwd.queue ∧ (queueAll ops s).line = s.line := by
  induction ops generalizing s with
  | nil => exact ⟨rfl, rfl⟩
  | cons o ops ih =>
    have step : queueReach o.1 o.2.1 o.2.2 s = enqueueReach o.1 o.2.1 o.2.2 s := queueReach_of_not_free busy
    have frame := enqueueReach_frame o.1 o.2.1 o.2.2 s
    have line : (enqueueReach o.1 o.2.1 o.2.2 s).line = s.line := frame.line (by decide)
    have loader : (enqueueReach o.1 o.2.1 o.2.2 s).loader = s.loader := frame.loader (by decide)
    have still : ¬ (enqueueReach o.1 o.2.1 o.2.2 s).reachFree := mt (reachFree_congr loader line).1 busy
    obtain ⟨queue, after⟩ := ih still
    have whole : queueAll (o :: ops) s = queueAll ops (enqueueReach o.1 o.2.1 o.2.2 s) := congrArg (queueAll ops) step
    rw [whole, queue, after, line, enqueueReach_queue]
    exact ⟨rfl, rfl⟩

/-- The first operation is taken by a REACH at once where one can be composed; slot 5 is then taken. -/
theorem queueAll_queues (ops : List (ReachOp × Tenant × Addr)) (s : State) : QueuesReach ops s (queueAll ops s) := by
  refine ⟨fun busy => queueAll_busy busy ops, ?_, ?_⟩
  · rintro rfl
    exact ⟨rfl, rfl⟩
  · rintro o os rfl free
    obtain ⟨queue, line⟩ := queueReach_notice (op := o.1) (t := o.2.1) (a := o.2.2) free
    have taken : ¬ (queueReach o.1 o.2.1 o.2.2 s).reachFree := fun k => by
      have empty := k.2.2.1
      rw [line] at empty
      cases empty
    obtain ⟨rest, still⟩ := queueAll_busy taken os
    refine ⟨rest.trans ?_, still.trans line⟩
    rw [queue]
    rfl

/-- What follows a state that differs outside the reach queue, the line and the start state. -/
theorem QueuesReach.congr {ops : List (ReachOp × Tenant × Addr)} {s s' t : State} (h : QueuesReach ops s t)
    (queue : s'.fwd.queue = s.fwd.queue) (line : s'.line = s.line) (phase : s'.loader.phase = s.loader.phase)
    (params : s'.params = s.params) : QueuesReach ops s' t := by
  have free : s'.reachFree ↔ s.reachFree := by
    unfold State.reachFree
    rw [line, phase]
  unfold QueuesReach
  rw [free, queue, line, params]
  exact h

/-! ## The operations of a reinsertion -/

/-- The JOIN of a fixed entry with a local port. -/
def joinOps (f : FixedCfg) : List (ReachOp × Tenant × Addr) := if f.localPort.isSome = true then [(.join, f.tenant, f.addr)] else []

/-- The LEAVE of an entry that loses its local port (R25). -/
def State.leaveOps (s : State) (g : FwdEntry) : List (ReachOp × Tenant × Addr) :=
  if g.localPort.isSome = true ∧ (g.announced = true ∨ keyQueued g.tenant g.addr s.fwd.queue = true) then
    [(.leave, g.tenant, g.addr)]
  else []

theorem announceFixed_eq (f : FixedCfg) (s : State) : announceFixed f s = queueAll (joinOps f) s := by
  unfold announceFixed joinOps
  split <;> rfl

theorem withdraw_eq (g : FwdEntry) (s : State) :
    (if g.localPort.isSome then withdrawKey g.tenant g.addr g.announced s else s) = queueAll (s.leaveOps g) s := by
  have queued : (s.fwd.queue.any fun i => i.isFor g.tenant g.addr) = keyQueued g.tenant g.addr s.fwd.queue := rfl
  unfold withdrawKey State.leaveOps
  rw [queued]
  by_cases has : g.localPort.isSome = true
  · by_cases wanted : g.announced = true ∨ keyQueued g.tenant g.addr s.fwd.queue = true
    · rw [if_pos has, if_pos (by rw [Bool.or_eq_true]; exact wanted.symm), if_pos ⟨has, wanted⟩]
      rfl
    · rw [if_pos has, if_neg (by rw [Bool.or_eq_true]; exact fun h => wanted h.symm), if_neg fun h => wanted h.2]
      rfl
  · rw [if_neg has, if_neg fun h => has h.1]
    rfl

section

variable {n i : Nat} {f : FixedCfg} {e : FwdEntry} {s : State}

/-- The entry of the key as the restored FIXED entry takes it over. -/
def FwdEntry.takenOver (n : Nat) (f : FixedCfg) (e : FwdEntry) : FwdEntry :=
  { e with origin := .fixed n, localPort := f.localPort, age := 0, entry := f.entry }

theorem reinsertFixed_known (hi : keyIndex s.fwd.table f.tenant f.addr = some i) (he : mapFind s.fwd.table i = some e) :
    reinsertFixed n f s =
      queueAll (if f.localPort.isSome = true then joinOps f else s.leaveOps e) (putEntry i (e.takenOver n f) s) := by
  obtain ⟨-, g, hg, tenant, addr⟩ := entry_of_keyIndex hi
  cases he.symm.trans hg
  unfold reinsertFixed
  rw [hi]
  dsimp only
  rw [he]
  dsimp only
  by_cases has : f.localPort.isSome = true
  · rw [if_pos has, if_pos has, announceFixed_eq]
    rfl
  · have withdrawn := withdraw_eq e (putEntry i (e.takenOver n f) s)
    rw [tenant, addr] at withdrawn
    rw [if_neg has, if_neg has]
    exact withdrawn

theorem reinsertFixed_free (absent : keyIndex s.fwd.table f.tenant f.addr = none)
    (free : freeSlot s.fwd.table (bucketOf f.tenant f.addr) = some i) :
    reinsertFixed n f s = queueAll (joinOps f) (putEntry i (fixedEntry n f) s) := by
  unfold reinsertFixed
  rw [absent]
  dsimp only
  rw [free]
  exact announceFixed_eq _ _

theorem reinsertFixed_full (absent : keyIndex s.fwd.table f.tenant f.addr = none)
    (full : freeSlot s.fwd.table (bucketOf f.tenant f.addr) = none)
    (place : ((victimSlot (bucketOf f.tenant f.addr) s).orElse fun _ => oldestLocal (bucketOf f.tenant f.addr) s) = some i)
    (he : mapFind s.fwd.table i = some e) :
    reinsertFixed n f s = queueAll (s.leaveOps e ++ joinOps f) (putEntry i (fixedEntry n f) s) := by
  unfold reinsertFixed
  rw [absent]
  dsimp only
  rw [full]
  dsimp only
  rw [place]
  dsimp only
  unfold displaceFixed
  rw [he]
  dsimp only
  rw [withdraw_eq e (putEntry i (fixedEntry n f) s), announceFixed_eq, queueAll_append]
  rfl

end

/-! ## The oldest LEARNED entry of a full bucket (R23) -/

/-- The measure of R23: a LEARNED entry by its age. -/
def ageMeasure (e : FwdEntry) : Option Nat := if e.origin = .learned then some e.age else none

theorem oldestLocal_eq (b : Nat) (s : State) :
    oldestLocal b s = ((candidates s.fwd.table b ageMeasure).foldl olderOf none).map Prod.fst := by
  unfold oldestLocal candidates ageMeasure
  congr 2
  refine List.filterMap_congr fun i _ => ?_
  cases mapFind s.fwd.table i with
  | none => rfl
  | some e => by_cases h : e.origin = .learned <;> simp [h]

theorem oldestLocal_of_oldest {s : State} {b k : Nat} {g : FwdEntry} (hk : k ∈ bucketSlots b)
    (hg : mapFind s.fwd.table k = some g) (learned : g.origin = .learned)
    (best : ∀ j ∈ bucketSlots b, ∀ h, mapFind s.fwd.table j = some h → h.origin = .learned →
      h.age < g.age ∨ (h.age = g.age ∧ k ≤ j)) : oldestLocal b s = some k := by
  rw [oldestLocal_eq, foldl_olderOf_eq (x := (k, g.age)) (candidates_sorted _ _ _)
    (mem_candidates.2 ⟨hk, g, hg, if_pos learned⟩) (fun y hy => ?_) (fun _ none => by cases none)]
  · rfl
  · obtain ⟨hj, h, hh, val⟩ := mem_candidates.1 hy
    have learned' : h.origin = .learned := by
      by_contra no
      rw [ageMeasure, if_neg no] at val
      cases val
    have age : h.age = y.2 := Option.some.inj ((if_pos learned').symm.trans val)
    rw [← age]
    exact best y.1 hj h hh learned'

end Sys2Proof.Machine
end


section
/-! The end of a refetch read (O51): the integrity states of the entries, the WAITING entry that is queued next, and the entry
restored. -/

namespace Sys2Proof.Machine

/-! ## Integrity states under the loader's writes (R193, R194) -/

/-- The integrity state of a configuration entry that is listed in its table. -/
def State.listedInteg (s : State) (i : CfgItem) : Option Integrity :=
  match i.kind with
  | .rule => (mapFind s.rules i.number).map Rule.integ
  | .tenant => (mapFind s.tenants i.number).map TenantEntry.integ
  | .tariff => (mapFind s.tariffs i.number).map Tariff.integ
  | .fixed => (mapFind s.fixed i.number).map FixedCfg.integ

theorem listedInteg_waiting_iff {s : State} {i : CfgItem} :
    s.listedInteg i = some .waiting ↔ s.integOf i = some .waiting := by
  obtain ⟨kind, n⟩ := i
  cases kind with
  | rule => exact Iff.rfl
  | tenant => exact Iff.rfl
  | fixed => exact Iff.rfl
  | tariff =>
    unfold State.listedInteg State.integOf State.tariff mapGet
    dsimp only
    cases mapFind s.tariffs n <;> simp

theorem tablesWf_setInteg {s : State} (wf : s.tablesWf) (i : CfgItem) (v : Integrity) : (setInteg i v s).tablesWf := by
  obtain ⟨rules, tenants, tariffs, fixed⟩ := wf
  unfold setInteg
  cases i.kind with
  | rule => exact ⟨mapModify_wf rules _ _, tenants, tariffs, fixed⟩
  | tenant => exact ⟨rules, mapModify_wf tenants _ _, tariffs, fixed⟩
  | tariff => exact ⟨rules, tenants, mapSet_wf tariffs _ _, fixed⟩
  | fixed => exact ⟨rules, tenants, tariffs, mapModify_wf fixed _ _⟩

theorem tablesWf_restoreEntry {s : State} (wf : s.tablesWf) (i : CfgItem) (e : List Byte) : (restoreEntry i e s).tablesWf := by
  obtain ⟨rules, tenants, tariffs, fixed⟩ := wf
  unfold restoreEntry
  cases i.kind with
  | rule => exact ⟨mapInsert_wf rules _ _, tenants, tariffs, fixed⟩
  | tenant => exact ⟨rules, mapInsert_wf tenants _ _, tariffs, fixed⟩
  | tariff => exact ⟨rules, tenants, mapSet_wf tariffs _ _, fixed⟩
  | fixed => exact ⟨rules, tenants, tariffs, mapInsert_wf fixed _ _⟩

/-- All that is known of the entries of one place of each table. -/
structure SameEntry (i : CfgItem) (s t : State) : Prop where
  rule : i.kind = .rule → mapFind t.rules i.number = mapFind s.rules i.number
  tenant : i.kind = .tenant → mapFind t.tenants i.number = mapFind s.tenants i.number
  tariff : i.kind = .tariff → t.tariff i.number = s.tariff i.number
  fixed : i.kind = .fixed → mapFind t.fixed i.number = mapFind s.fixed i.number

namespace SameEntry

variable {i : CfgItem} {s t u : State}

theorem refl (i : CfgItem) (s : State) : SameEntry i s s := ⟨fun _ => rfl, fun _ => rfl, fun _ => rfl, fun _ => rfl⟩

theorem of_tables (rules : t.rules = s.rules) (tenants : t.tenants = s.tenants) (tariffs : t.tariffs = s.tariffs)
    (fixed : t.fixed = s.fixed) : SameEntry i s t := by
  refine ⟨fun _ => by rw [rules], fun _ => by rw [tenants], fun _ => ?_, fun _ => by rw [fixed]⟩
  unfold State.tariff
  rw [tariffs]

theorem trans (h : SameEntry i s t) (k : SameEntry i t u) : SameEntry i s u :=
  ⟨fun e => (k.rule e).trans (h.rule e), fun e => (k.tenant e).trans (h.tenant e), fun e => (k.tariff e).trans (h.tariff e),
    fun e => (k.fixed e).trans (h.fixed e)⟩

theorem integOf (h : SameEntry i s t) : t.integOf i = s.integOf i := by
  obtain ⟨kind, n⟩ := i
  cases kind with
  | rule => exact congrArg (Option.map fun r : Rule => r.integ) (h.rule rfl)
  | tenant => exact congrArg (Option.map fun e : TenantEntry => e.integ) (h.tenant rfl)
  | tariff => exact congrArg (fun f : Tariff => some f.integ) (h.tariff rfl)
  | fixed => exact congrArg (Option.map fun f : FixedCfg => f.integ) (h.fixed rfl)

end SameEntry

theorem CfgItem.number_ne {i j : CfgItem} (h : i ≠ j) (kind : i.kind = j.kind) : i.number ≠ j.number := fun number =>
  h (by cases i; cases j; cases kind; cases number; rfl)

theorem setInteg_other {i j : CfgItem} (h : j ≠ i) (v : Integrity) (s : State) : SameEntry j s (setInteg i v s) := by
  have ne := CfgItem.number_ne h
  unfold setInteg
  cases kind : i.kind with
  | rule => exact ⟨fun e => mapFind_mapModify_ne _ (ne (e.trans kind.symm)) _, fun _ => rfl, fun _ => rfl, fun _ => rfl⟩
  | tenant => exact ⟨fun _ => rfl, fun e => mapFind_mapModify_ne _ (ne (e.trans kind.symm)) _, fun _ => rfl, fun _ => rfl⟩
  | tariff => exact ⟨fun _ => rfl, fun _ => rfl, fun e => mapGet_mapSet_ne _ (ne (e.trans kind.symm)) _, fun _ => rfl⟩
  | fixed => exact ⟨fun _ => rfl, fun _ => rfl, fun _ => rfl, fun e => mapFind_mapModify_ne _ (ne (e.trans kind.symm)) _⟩

theorem restoreEntry_other {i j : CfgItem} (h : j ≠ i) (e : List Byte) (s : State) : SameEntry j s (restoreEntry i e s) := by
  have ne := CfgItem.number_ne h
  unfold restoreEntry
  cases kind : i.kind with
  | rule => exact ⟨fun e => mapFind_mapInsert_ne _ (ne (e.trans kind.symm)) _, fun _ => rfl, fun _ => rfl, fun _ => rfl⟩
  | tenant => exact ⟨fun _ => rfl, fun e => mapFind_mapInsert_ne _ (ne (e.trans kind.symm)) _, fun _ => rfl, fun _ => rfl⟩
  | tariff => exact ⟨fun _ => rfl, fun _ => rfl, fun e => mapGet_mapSet_ne _ (ne (e.trans kind.symm)) _, fun _ => rfl⟩
  | fixed => exact ⟨fun _ => rfl, fun _ => rfl, fun _ => rfl, fun e => mapFind_mapInsert_ne _ (ne (e.trans kind.symm)) _⟩

theorem setInteg_self {i : CfgItem} {s : State} (wf : s.tablesWf) (listed : s.integOf i ≠ none) (v : Integrity) :
    (setInteg i v s).integOf i = some v := by
  obtain ⟨kind, n⟩ := i
  have modified {α : Type} {m : List (Nat × α)} {g : α → Integrity} {f : α → α} (h : (mapFind m n).map g ≠ none)
      (set : ∀ x, g (f x) = v) : (mapFind (mapModify m n f) n).map g = some v := by
    rw [mapFind_mapModify]
    cases found : mapFind m n with
    | none => exact absurd (by rw [found]; rfl) h
    | some x => exact congrArg some (set x)
  cases kind with
  | rule => exact modified listed fun _ => rfl
  | tenant => exact modified listed fun _ => rfl
  | tariff => exact congrArg (fun f : Tariff => some f.integ) (mapGet_mapSet wf.2.2.1 n _)
  | fixed => exact modified listed fun _ => rfl

theorem restoreEntry_rule {i : CfgItem} (kind : i.kind = .rule) (e : List Byte) (s : State) :
    mapFind (restoreEntry i e s).rules i.number = some (readRule e).1 := by
  unfold restoreEntry
  rw [kind]
  exact mapFind_mapInsert _ _ _

theorem restoreEntry_tenant {i : CfgItem} (kind : i.kind = .tenant) (e : List Byte) (s : State) :
    mapFind (restoreEntry i e s).tenants i.number = some (readTenantEntry e).1 := by
  unfold restoreEntry
  rw [kind]
  exact mapFind_mapInsert _ _ _

theorem restoreEntry_tariff {i : CfgItem} (kind : i.kind = .tariff) (e : List Byte) {s : State} (wf : s.tablesWf) :
    (restoreEntry i e s).tariff i.number = readTariffEntry e := by
  unfold restoreEntry
  rw [kind]
  exact mapGet_mapSet wf.2.2.1 _ _

theorem restoreEntry_fixed {i : CfgItem} (kind : i.kind = .fixed) (e : List Byte) (s : State) :
    mapFind (restoreEntry i e s).fixed i.number = some (readFixedEntry e).1 := by
  unfold restoreEntry
  rw [kind]
  exact mapFind_mapInsert _ _ _

theorem restoreEntry_self (i : CfgItem) (e : List Byte) {s : State} (wf : s.tablesWf) :
    (restoreEntry i e s).integOf i = some .good := by
  unfold State.integOf
  cases kind : i.kind with
  | rule => exact congrArg (Option.map fun r : Rule => r.integ) (restoreEntry_rule kind e s)
  | tenant => exact congrArg (Option.map fun e : TenantEntry => e.integ) (restoreEntry_tenant kind e s)
  | tariff => exact congrArg (fun f : Tariff => some f.integ) (restoreEntry_tariff kind e wf)
  | fixed => exact congrArg (Option.map fun f : FixedCfg => f.integ) (restoreEntry_fixed kind e s)

/-! ## The WAITING entry that is queued next (R194) -/

section

variable {α : Type} {f : α → Integrity} {v : Integrity} {m : List (Nat × α)}

theorem firstIn_some (wf : mapWf m = true) {n : Nat} (h : firstIn f v m = some n) :
    (mapFind m n).map f = some v ∧ ∀ k, (mapFind m k).map f = some v → n ≤ k := by
  obtain ⟨x, hx, rfl⟩ := Option.map_eq_some_iff.1 h
  have is : f x.2 = v := by simpa using List.find?_some hx
  refine ⟨by rw [mapFind_of_mem wf (List.mem_of_find?_eq_some hx)]; exact congrArg some is, fun k hk => ?_⟩
  obtain ⟨y, hy, isv⟩ := Option.map_eq_some_iff.1 hk
  obtain ⟨-, before, after, parts, none⟩ := List.find?_eq_some_iff_append.1 hx
  have mem := mem_of_mapFind hy
  have sorted := List.pairwise_map.1 (keys_sorted wf)
  rw [parts] at mem sorted
  rcases List.mem_append.1 mem with early | late
  · have := none _ early
    simp [isv] at this
  · rcases List.mem_cons.1 late with here | later
    · exact (congrArg Prod.fst here).ge
    · exact ((List.pairwise_cons.1 (List.pairwise_append.1 sorted).2.1).1 _ later).le

theorem firstIn_none (h : firstIn f v m = none) (k : Nat) : (mapFind m k).map f ≠ some v := fun hk => by
  obtain ⟨y, hy, isv⟩ := Option.map_eq_some_iff.1 hk
  have := List.find?_eq_none.1 (Option.map_eq_none_iff.1 h) _ (mem_of_mapFind hy)
  simp [isv] at this

end

/-- The number of the first WAITING entry of a kind. -/
def State.firstOfKind (s : State) (k : CfgKind) : Option Nat :=
  match k with
  | .rule => firstIn Rule.integ .waiting s.rules
  | .tenant => firstIn TenantEntry.integ .waiting s.tenants
  | .tariff => firstIn Tariff.integ .waiting s.tariffs
  | .fixed => firstIn FixedCfg.integ .waiting s.fixed

theorem firstOfKind_some {s : State} (wf : s.tablesWf) {k : CfgKind} {n : Nat} (h : s.firstOfKind k = some n) :
    s.integOf ⟨k, n⟩ = some .waiting ∧ ∀ m, s.integOf ⟨k, m⟩ = some .waiting → n ≤ m := by
  have listed : s.listedInteg ⟨k, n⟩ = some .waiting ∧ ∀ m, s.listedInteg ⟨k, m⟩ = some .waiting → n ≤ m := by
    obtain ⟨rules, tenants, tariffs, fixed⟩ := wf
    cases k with
    | rule => exact firstIn_some rules h
    | tenant => exact firstIn_some tenants h
    | tariff => exact firstIn_some tariffs h
    | fixed => exact firstIn_some fixed h
  exact ⟨listedInteg_waiting_iff.1 listed.1, fun m hm => listed.2 m (listedInteg_waiting_iff.2 hm)⟩

theorem firstOfKind_none {s : State} {k : CfgKind} (h : s.firstOfKind k = none) (n : Nat) :
    s.integOf ⟨k, n⟩ ≠ some .waiting := fun waits => by
  have listed := listedInteg_waiting_iff.2 waits
  cases k with
  | rule => exact firstIn_none h n listed
  | tenant => exact firstIn_none h n listed
  | tariff => exact firstIn_none h n listed
  | fixed => exact firstIn_none h n listed

/-- The kinds in the order of R194. -/
def cfgKinds : List CfgKind := [.rule, .tenant, .tariff, .fixed]

theorem firstWaiting_eq (s : State) :
    s.firstWaiting = cfgKinds.findSome? fun k => (s.firstOfKind k).map (CfgItem.mk k) := by
  unfold State.firstWaiting cfgKinds State.firstOfKind
  simp only [List.findSome?_cons, List.findSome?_nil]
  cases firstIn Rule.integ .waiting s.rules with
  | some n => rfl
  | none =>
    cases firstIn TenantEntry.integ .waiting s.tenants with
    | some n => rfl
    | none =>
      cases firstIn Tariff.integ .waiting s.tariffs with
      | some n => rfl
      | none => cases firstIn FixedCfg.integ .waiting s.fixed <;> rfl

theorem firstWaiting_none {s : State} (h : s.firstWaiting = none) (j : CfgItem) : s.integOf j ≠ some .waiting := by
  rw [firstWaiting_eq, List.findSome?_eq_none_iff] at h
  have mem : j.kind ∈ cfgKinds := by cases j.kind <;> decide
  exact firstOfKind_none (Option.map_eq_none_iff.1 (h _ mem)) j.number

theorem cfgKinds_sorted : cfgKinds.Pairwise fun a b => kindRank a < kindRank b := by decide

theorem firstWaiting_some {s : State} (wf : s.tablesWf) {i : CfgItem} (h : s.firstWaiting = some i) : s.isFirstWaiting i := by
  rw [firstWaiting_eq, List.findSome?_eq_some_iff] at h
  obtain ⟨before, kind, after, parts, found, none⟩ := h
  obtain ⟨n, first, rfl⟩ := Option.map_eq_some_iff.1 found
  obtain ⟨waits, least⟩ := firstOfKind_some wf first
  refine ⟨waits, fun j hj => ?_⟩
  have mem : j.kind ∈ cfgKinds := by cases j.kind <;> decide
  have sorted := cfgKinds_sorted
  rw [parts] at mem sorted
  rcases List.mem_append.1 mem with early | late
  · exact absurd hj (firstOfKind_none (Option.map_eq_none_iff.1 (none _ early)) j.number)
  · rcases List.mem_cons.1 late with here | later
    · refine .inr ⟨here.symm, least _ ?_⟩
      rw [← here]
      exact hj
    · exact .inl ((List.pairwise_cons.1 (List.pairwise_append.1 sorted).2.1).1 _ later)

theorem isFirstWaiting_unique {s : State} {i j : CfgItem} (hi : s.isFirstWaiting i) (hj : s.isFirstWaiting j) : i = j := by
  have ij := hi.2 j hj.1
  have ji := hj.2 i hi.1
  have kind : i.kind = j.kind := by
    rcases ij with lt | ⟨same, -⟩
    · rcases ji with gt | ⟨same, -⟩
      · omega
      · exact same.symm
    · exact same
  have number : i.number = j.number := by
    rw [kind] at ij ji
    omega
  cases i
  cases j
  cases kind
  cases number
  rfl

theorem isFirstWaiting_congr {s t : State} (h : ∀ k, t.integOf k = some .waiting ↔ s.integOf k = some .waiting) {i : CfgItem} :
    t.isFirstWaiting i ↔ s.isFirstWaiting i := by
  unfold State.isFirstWaiting
  simp only [h]

/-! ## An item leaves the refetch queue -/

/-- What the departure of the front item leaves. -/
structure Left (i : CfgItem) (is : List CfgItem) (s t : State) : Prop where
  frame : Frame [.rules, .tenants, .tariffs, .fixed, .loader] s t
  loader : t.loader = { s.loader with refetch := t.loader.refetch, failures := 0 }
  here : SameEntry i s t
  still : (∀ j, s.integOf j ≠ some .waiting) → t.loader.refetch = is ∧ ∀ k, t.integOf k = s.integOf k
  queued : ∀ j, s.isFirstWaiting j → t.loader.refetch = is ++ [j] ∧ t.integOf j = some .queued
    ∧ ∀ k, k ≠ j → t.integOf k = s.integOf k

theorem leaveRefetch_none {s : State} (h : s.firstWaiting = none) :
    leaveRefetch s = { s with loader := { s.loader with refetch := s.loader.refetch.drop 1, failures := 0 } } := by
  unfold leaveRefetch
  dsimp only
  split
  next => rfl
  next j hj => cases h.symm.trans hj

theorem leaveRefetch_some {s : State} {j : CfgItem} (h : s.firstWaiting = some j) :
    leaveRefetch s = setInteg j .queued
      { s with loader := { s.loader with refetch := s.loader.refetch.drop 1 ++ [j], failures := 0 } } := by
  unfold leaveRefetch
  dsimp only
  split
  next none => cases h.symm.trans none
  next k hk =>
    cases h.symm.trans hk
    rfl

theorem leaveRefetch_left {i : CfgItem} {is : List CfgItem} {s : State} (wf : s.tablesWf) (front : s.loader.refetch = i :: is)
    (settled : s.integOf i ≠ some .waiting) : Left i is s (leaveRefetch s) := by
  have rest : s.loader.refetch.drop 1 = is := by rw [front]; rfl
  have frame (l : Loader) : Frame [.rules, .tenants, .tariffs, .fixed, .loader] s { s with loader := l } := by
    intro b hb
    cases b <;> first | rfl | simp at hb
  cases first : s.firstWaiting with
  | none =>
    rw [leaveRefetch_none first]
    exact ⟨frame _, rfl, .of_tables rfl rfl rfl rfl, fun _ => ⟨rest, fun _ => rfl⟩,
      fun j hj => absurd hj.1 (firstWaiting_none first j)⟩
  | some j =>
    have this := firstWaiting_some wf first
    have ne : i ≠ j := fun e => settled (e ▸ this.1)
    have listed : s.integOf j ≠ none := by rw [this.1]; exact Option.some_ne_none _
    rw [leaveRefetch_some first]
    generalize hu : { s with loader := { s.loader with refetch := s.loader.refetch.drop 1 ++ [j], failures := 0 } } = u
    have same (k : CfgItem) : SameEntry k s u := hu ▸ .of_tables rfl rfl rfl rfl
    have wfu : u.tablesWf := hu ▸ wf
    have loader : u.loader = { s.loader with refetch := is ++ [j], failures := 0 } := by rw [← hu, rest]
    have kept : (setInteg j .queued u).loader = u.loader := setInteg_loader _ _ _
    refine ⟨(hu ▸ frame _).trans ((setInteg_frame j .queued u).mono (by decide)), ?_, (same i).trans (setInteg_other ne _ _),
      fun nobody => absurd this.1 (nobody j), fun k hk => ?_⟩
    · rw [kept, loader]
    · cases isFirstWaiting_unique this hk
      refine ⟨by rw [kept, loader], setInteg_self wfu ?_ _, fun k ne => ((same k).trans (setInteg_other ne _ _)).integOf⟩
      rw [(same j).integOf]
      exact listed

/-- The front item's own change, then its departure. -/
theorem Left.promoted {i : CfgItem} {is : List CfgItem} {s u t : State} (h : Left i is u t)
    (queued : s.integOf i = some .queued) (settled : u.integOf i ≠ some .waiting)
    (others : ∀ k, k ≠ i → u.integOf k = s.integOf k) : Promoted i is s t := by
  have waits (k : CfgItem) : u.integOf k = some .waiting ↔ s.integOf k = some .waiting := by
    by_cases e : k = i
    · subst e
      rw [queued]
      exact iff_of_false settled (by decide)
    · rw [others k e]
  refine ⟨fun none => ?_, fun j first => ?_⟩
  · obtain ⟨refetch, same⟩ := h.still fun j hj => none j ((waits j).1 hj)
    exact ⟨refetch, fun k ne => (same k).trans (others k ne)⟩
  · obtain ⟨refetch, now, same⟩ := h.queued j ((isFirstWaiting_congr waits).2 first)
    exact ⟨refetch, now, fun k ne other => (same k other).trans (others k ne)⟩

/-! ## The end of a read -/

section

variable {s : State} {e : List Byte} {i : CfgItem} {is : List CfgItem}

theorem exec_refetchReadComplete (s : State) (e : List Byte) : exec (.refetchReadComplete e) s = done (completeRead e s) := rfl

theorem completeRead_idle (h : s.loader.refetch = [] ∨ s.acting = false) : completeRead e s = .of s := by
  unfold completeRead
  cases front : s.loader.refetch with
  | nil => rfl
  | cons i is =>
    rcases h with empty | rests
    · cases front.symm.trans empty
    · exact if_neg (by rw [rests]; decide)

theorem completeRead_acting (acts : s.acting = true) (front : s.loader.refetch = i :: is) : completeRead e s = endRead i e s := by
  unfold completeRead
  rw [front]
  exact if_pos acts

theorem entryGood_iff {n : Nat} : entryGood n e = true ↔ e.length = n ∧ fieldNat e (n - 2) 2 = crc16 (e.take (n - 2)) := by
  unfold entryGood
  rw [Bool.and_eq_true, beq_iff_eq, beq_iff_eq]

theorem size_eq (k : CfgKind) : k.size = cfgOctets k := by cases k <;> rfl

/-- The front item is restored and leaves the queue. -/
theorem restored_left (front : s.loader.refetch = i :: is) (wf : s.tablesWf) (e : List Byte) :
    Left i is (restoreEntry i e s) (leaveRefetch (restoreEntry i e s)) := by
  refine leaveRefetch_left (tablesWf_restoreEntry wf i e) ?_ ?_
  · unfold restoreEntry
    cases i.kind <;> exact front
  · rw [restoreEntry_self i e wf]
    decide

theorem restoreEntry_frame (i : CfgItem) (e : List Byte) (s : State) :
    Frame [.rules, .tenants, .tariffs, .fixed] s (restoreEntry i e s) := by
  unfold restoreEntry
  intro b hb
  cases i.kind <;> cases b <;> first | rfl | simp at hb

theorem reinsertRestored_other (kind : i.kind ≠ .fixed) (e : List Byte) (u : State) : reinsertRestored i e u = .of u := by
  unfold reinsertRestored
  cases k : i.kind with
  | rule => rfl
  | tenant => rfl
  | tariff => rfl
  | fixed => exact absurd k kind

theorem reinsertRestored_fixed (kind : i.kind = .fixed) {u : State}
    (sound : bucketFaulty (bucketOf (readFixedEntry e).1.tenant (readFixedEntry e).1.addr) u = false) :
    reinsertRestored i e u = .of (reinsertFixed i.number (readFixedEntry e).1 u) := by
  unfold reinsertRestored
  rw [kind]
  dsimp only
  rw [testBucket_of_sound sound, Out.of_also]

end

/-! ## A restored FIXED entry at the table -/

section

variable {i : CfgItem} {is : List CfgItem} {e : List Byte} {s u t : State} {ops : List (ReachOp × Tenant × Addr)} {k : Nat}
  {x : FwdEntry}

/-- A state that holds the tables of another, with a write at one place and operations queued. -/
theorem queueAll_put_unannounced (fwd : u.fwd = s.fwd) (j : Nat) :
    (queueAll ops (putEntry k x u)).unannounced j = if j = k then some x.plain else s.unannounced j := by
  refine (unannounced_of_same (queueAll_same ops (putEntry k x u)) j).trans ?_
  rw [unannounced_eq, unannounced_eq, ← fwd]
  split
  next here =>
    rw [here]
    exact congrArg _ (mapFind_mapInsert _ _ _)
  next other => exact congrArg _ (mapFind_mapInsert_ne _ other _)

theorem queueAll_put_takes (fwd : u.fwd = s.fwd) (plain : x.plain = x) :
    (queueAll ops (putEntry k x u)).unannounced k = some x
      ∧ ∀ j, j ≠ k → (queueAll ops (putEntry k x u)).unannounced j = s.unannounced j := by
  refine ⟨?_, fun j other => ?_⟩
  · rw [queueAll_put_unannounced fwd, if_pos rfl, plain]
  · rw [queueAll_put_unannounced fwd, if_neg other]

theorem queueAll_put_queues (fwd : u.fwd = s.fwd) (line : u.line = s.line) (phase : u.loader.phase = s.loader.phase)
    (params : u.params = s.params) : QueuesReach ops s (queueAll ops (putEntry k x u)) :=
  (queueAll_queues ops (putEntry k x u)).congr (congrArg Forwarding.queue fwd).symm line.symm phase.symm params.symm

theorem queueAll_put_entryAt (fwd : u.fwd = s.fwd) (hk : keyIndex s.fwd.table x.tenant x.addr = some k) :
    ∃ a, (queueAll ops (putEntry k x u)).entryAt x.tenant x.addr = some { x with announced := a } := by
  have same := queueAll_same ops (putEntry k x u)
  obtain ⟨a, ha⟩ := same.some (mapFind_mapInsert u.fwd.table k x)
  refine ⟨a, ?_⟩
  unfold State.entryAt
  rw [same.keyIndex, show (putEntry k x u).fwd.table = mapInsert s.fwd.table k x from congrArg
    (fun f : Forwarding => mapInsert f.table k x) fwd, keyIndex_insert_self hk ⟨rfl, rfl⟩]
  exact ha

end

/-- Settles O51: a failed read, the third failure, and an entry restored, of each kind. -/
theorem refetchReadRestoresOrFails : Obligations.RefetchReadRestoresOrFails := by
  unfold Obligations.RefetchReadRestoresOrFails
  refine ⟨fun s e idle => ?_, fun s e i is acts front => ?_⟩
  · rw [exec_refetchReadComplete, completeRead_idle idle, done_of]
  intro n good
  have goodIff : entryGood i.kind.size e = true ↔ good := by
    rw [size_eq]
    exact entryGood_iff
  have runs : exec (.refetchReadComplete e) s = done (endRead i e s) := by
    rw [exec_refetchReadComplete, completeRead_acting acts front]
  refine ⟨fun bad again => ?_, fun bad last wf queued => ?_, fun right wf queued => ?_⟩
  · rw [runs, endRead, if_neg (mt goodIff.1 bad), if_pos again, done_of]
  · have ends : endRead i e s = .of (leaveRefetch (setInteg i .failed
        { s with loader := { s.loader with refetchFailed := satInc s.loader.refetchFailed } })) := by
      rw [endRead, if_neg (mt goodIff.1 bad), if_neg (by omega)]
    generalize hs : { s with loader := { s.loader with refetchFailed := satInc s.loader.refetchFailed } } = s1 at ends
    have same (k : CfgItem) : SameEntry k s s1 := hs ▸ .of_tables rfl rfl rfl rfl
    have frame : Frame [.loader] s s1 := by
      rw [← hs]
      intro b hb
      cases b <;> first | rfl | simp at hb
    have listed : s1.integOf i ≠ none := by rw [(same i).integOf, queued]; exact Option.some_ne_none _
    have failed : (setInteg i .failed s1).integOf i = some .failed := setInteg_self (hs ▸ wf) listed _
    have loader : (setInteg i .failed s1).loader = { s.loader with refetchFailed := satInc s.loader.refetchFailed } := by
      rw [setInteg_loader, ← hs]
    have settled : (setInteg i .failed s1).integOf i ≠ some .waiting := by rw [failed]; decide
    have left : Left i is (setInteg i .failed s1) (leaveRefetch (setInteg i .failed s1)) :=
      leaveRefetch_left (tablesWf_setInteg (hs ▸ wf) _ _) (by rw [loader]; exact front) settled
    refine ⟨_, by rw [runs, ends, done_of], ?_, left.here.integOf.trans failed, left.promoted queued settled fun k ne =>
      ((same k).trans (setInteg_other ne _ _)).integOf, ?_⟩
    · exact ((frame.mono (by decide)).trans ((setInteg_frame _ _ _).mono (by decide))).trans left.frame
    · rw [left.loader, loader]
  · intro f b sound
    have ends : endRead i e s = reinsertRestored i e (leaveRefetch (restoreEntry i e s)) := by
      rw [endRead, if_pos (goodIff.2 right)]
    have left := restored_left front wf e
    have first := restoreEntry_frame i e s
    have self := restoreEntry_self i e wf
    have settled : (restoreEntry i e s).integOf i ≠ some .waiting := by rw [self]; decide
    have promoted := left.promoted queued settled fun k ne => (restoreEntry_other ne e s).integOf
    have loader := left.loader
    rw [first.loader (by decide)] at loader
    have frame : Frame [.rules, .tenants, .tariffs, .fixed, .loader] s (leaveRefetch (restoreEntry i e s)) :=
      (first.mono (by decide)).trans left.frame
    have here := left.here
    generalize hu : leaveRefetch (restoreEntry i e s) = u at ends promoted loader frame here
    by_cases kind : i.kind = .fixed
    · obtain ⟨whole, wft⟩ := sound kind
      have fwd : u.fwd = s.fwd := frame.fwd (by decide)
      have line : u.line = s.line := frame.line (by decide)
      have phase : u.loader.phase = s.loader.phase := by rw [loader]
      have params : u.params = s.params := frame.params (by decide)
      have faultless : bucketFaulty b u = false := by
        unfold bucketFaulty
        rw [fwd]
        exact whole
      rw [reinsertRestored_fixed kind faultless] at ends
      have after := reinsertFixed_frame i.number f u
      have tables (k : CfgItem) : SameEntry k u (reinsertFixed i.number f u) :=
        .of_tables (after.rules (by decide)) (after.tenants (by decide)) (after.tariffs (by decide)) (after.fixed (by decide))
      have same : (reinsertFixed i.number f u).loader = u.loader := after.loader (by decide)
      generalize ht : reinsertFixed i.number f u = t at ends after tables same
      have absent {P : Prop} (h : i.kind ≠ .fixed) : P := absurd kind h
      have restored : FwdEntry.plain (fixedEntry i.number f) = fixedEntry i.number f := rfl
      refine ⟨_, by rw [runs, ends, done_of], ⟨fun nobody => ?_, fun j waits => ?_⟩, ((tables i).integOf.trans here.integOf).trans self,
        by rw [same]; exact loader, absent, fun k => absent (by rw [k]; decide), fun k => absent (by rw [k]; decide),
        fun k => absent (by rw [k]; decide), fun _ => ?_⟩
      · obtain ⟨refetch, others⟩ := promoted.1 nobody
        exact ⟨by rw [same]; exact refetch, fun k ne => (tables k).integOf.trans (others k ne)⟩
      · obtain ⟨refetch, now, others⟩ := promoted.2 j waits
        exact ⟨by rw [same]; exact refetch, (tables j).integOf.trans now, fun k ne other => (tables k).integOf.trans (others k ne other)⟩
      · intro restoredEntry join leave takes full
        have leaves (g : FwdEntry) : u.leaveOps g = leave g := by
          unfold State.leaveOps
          rw [fwd]
          exact if_congr (and_congr_right fun _ => or_congr_right keyQueued_iff) rfl rfl
        have table : u.fwd.table = s.fwd.table := congrArg Forwarding.table fwd
        refine ⟨(frame.mono (by decide)).trans (after.mono (by decide)), ?_, fun g hg => ?_, fun nobody =>
          have displaces {k : Nat} {g : FwdEntry} (full : full)
              (place : ((victimSlot b u).orElse fun _ => oldestLocal b u) = some k) (hg : mapFind s.fwd.table k = some g) :
              reinsertFixed i.number f u = queueAll (u.leaveOps g ++ joinOps f) (putEntry k (fixedEntry i.number f) u) :=
            reinsertFixed_full (by rw [table]; exact keyIndex_of_entryAt_none nobody)
              (by rw [table]; exact freeSlot_eq_none_iff.2 full) place (by rw [table]; exact hg)
          ⟨fun k hk free low => ?_, fun k g full victim => ?_, fun k g full others hk hg learned oldest => ?_⟩⟩
        · exact ((tables i).fixed kind).trans ((here.fixed kind).trans (restoreEntry_fixed kind e s))
        · obtain ⟨k, hk, hkg⟩ := entryAt_eq_some hg
          obtain ⟨-, g', hg', key⟩ := entry_of_keyIndex hk
          cases hkg.symm.trans hg'
          rw [reinsertFixed_known (by rw [table]; exact hk) (by rw [table]; exact hkg), leaves] at ht
          subst ht
          refine ⟨?_, queueAll_put_queues fwd line phase params⟩
          obtain ⟨tenant, addr⟩ := key
          have found := queueAll_put_entryAt (ops := if f.localPort.isSome = true then joinOps f else leave g)
            (x := g.takenOver i.number f) fwd (k := k) (by rw [← tenant, ← addr] at hk; exact hk)
          rw [← tenant, ← addr]
          exact found
        · have new := keyIndex_of_entryAt_none nobody
          rw [reinsertFixed_free (by rw [table]; exact new) (by rw [table]; exact freeSlot_of_lowest hk free low)] at ht
          subst ht
          exact ⟨queueAll_put_takes fwd restored, queueAll_put_queues fwd line phase params⟩
        · obtain ⟨-, hg, -, noPort, -⟩ := id victim
          have place : ((victimSlot b u).orElse fun _ => oldestLocal b u) = some k := by
            rw [victimSlot_of_isVictim (by unfold State.isVictim; rw [fwd]; exact victim)]
            rfl
          have silent : u.leaveOps g = [] := by
            unfold State.leaveOps
            rw [noPort]
            exact if_neg fun h => by cases h.1
          rw [displaces full place hg, silent] at ht
          subst ht
          exact ⟨queueAll_put_takes fwd restored, queueAll_put_queues fwd line phase params⟩
        · have noVictim : victimSlot b u = none := victimSlot_eq_none fun j hj h hh => by
            rw [table] at hh
            refine Bool.eq_false_of_not_eq_true fun only => ?_
            obtain ⟨learned', noPort⟩ := holderOnly_iff.1 only
            exact others j hj h hh learned' noPort
          have place : ((victimSlot b u).orElse fun _ => oldestLocal b u) = some k := by
            rw [noVictim]
            exact oldestLocal_of_oldest hk (by rw [table]; exact hg) learned fun j hj h hh => oldest j hj h (by rw [← table]; exact hh)
          rw [displaces full place hg, leaves] at ht
          subst ht
          exact ⟨queueAll_put_takes fwd restored, queueAll_put_queues fwd line phase params⟩
    · rw [reinsertRestored_other kind] at ends
      refine ⟨u, by rw [runs, ends, done_of], promoted, here.integOf.trans self, loader, fun _ => frame, fun k => ?_, fun k => ?_,
        fun k => ?_, fun k => absurd k kind⟩
      · rw [here.rule k]
        exact restoreEntry_rule k e s
      · rw [here.tenant k]
        exact restoreEntry_tenant k e s
      · rw [here.tariff k]
        exact restoreEntry_tariff k e wf

end Sys2Proof.Machine
end


section
/-! The end of LOADING (O46): what each step of the filling of the tables touches, the entry to JOINING, and the entry to
FAILSAFE. -/

namespace Sys2Proof.Machine

/-! ## Steps of the loader (R188, R190) -/

/-- A step of the loader on some blocks that counts `n` clamps. -/
structure Loads (l : List Block) (n : Nat) (s t : State) : Prop where
  frame : Frame (.loader :: l) s t
  loader : t.loader = { s.loader with clamps := t.loader.clamps }
  clamps : t.loader.clamps.toNat = min (s.loader.clamps.toNat + n) (2 ^ 32 - 1)

namespace Loads

variable {l m : List Block} {n k : Nat} {s t u : State}

theorem of_frame (h : Frame l s t) (k : Block.loader ∉ l) : Loads l 0 s t := by
  have same : t.loader = s.loader := h.loader k
  refine ⟨h.mono (List.subset_cons_self _ _), by rw [same], ?_⟩
  have := s.loader.clamps.isLt
  rw [same]
  omega

theorem refl (l : List Block) (s : State) : Loads l 0 s s := by
  have := s.loader.clamps.isLt
  exact ⟨Frame.refl _ s, rfl, by omega⟩

theorem trans (h : Loads l n s t) (h' : Loads l k t u) : Loads l (n + k) s u := by
  refine ⟨h.frame.trans h'.frame, ?_, ?_⟩
  · rw [h'.loader, h.loader]
  · rw [h'.clamps, h.clamps]
    omega

theorem mono (h : Loads l n s t) (k : l ⊆ m) : Loads m n s t :=
  ⟨h.frame.mono (List.cons_subset_cons _ k), h.loader, h.clamps⟩

theorem addClamps (h : Frame l s t) (k : Block.loader ∉ l) (n : Nat) : Loads l n s (addClamps n t) := by
  have same : t.loader = s.loader := h.loader k
  refine ⟨(h.mono (List.subset_cons_self _ _)).trans ((addClamps_frame n t).mono (by simp)), ?_, ?_⟩
  · have clamped : (Machine.addClamps n t).loader = { t.loader with clamps := (Machine.addClamps n t).loader.clamps } := rfl
    rw [clamped, same]
  · show (satAdd t.loader.clamps n).1.toNat = _
    rw [satAdd_toNat, same]

theorem eachState {α : Type} {f : α → State → State} {c : α → Nat} (step : ∀ a t, Loads l (c a) t (f a t)) (as : List α)
    (s : State) : Loads l (as.map c).sum s (eachState f as s) := by
  induction as generalizing s with
  | nil => exact refl l s
  | cons a as ih =>
    rw [List.map_cons, List.sum_cons]
    exact (step a s).trans (ih _)

theorem phase (h : Loads l n s t) : t.loader.phase = s.loader.phase := by rw [h.loader]

theorem station (h : Loads l n s t) : t.loader.station = s.loader.station := by rw [h.loader]

end Loads

/-- The clamps of a PORTS entry. -/
def portClamps (e : List Byte) : Nat := if octetNat e 0 < 24 then (clampTo 0 63 (octetNat e 1)).2 else 1

/-- The clamps of a COLLECTORS entry at a station. -/
def collectorClamp (own : Station) (e : List Byte) : Nat := if 15 ≤ octetNat e 0 ∨ octetNat e 0 = own.toNat then 1 else 0

theorem fillParams_loads (pairs : List (List Byte)) (s : State) : Loads [.params] (readParams pairs).2 s (fillParams pairs s) :=
  .addClamps (fun b hb => by cases b <;> first | rfl | simp at hb) (by decide) _

theorem fillPort_loads (e : List Byte) (s : State) : Loads [.ports] (portClamps e) s (fillPort e s) := by
  unfold fillPort portClamps
  split
  · exact .addClamps (setPort_frame _ _ s) (by decide) _
  · exact .addClamps (Frame.refl _ s) (by decide) 1

theorem fillRule_loads (e : List Byte) (s : State) : Loads [.rules] (readRule e).2 s (fillRule e s) :=
  .addClamps (fun b hb => by cases b <;> first | rfl | simp at hb) (by decide) _

theorem fillTenant_loads (e : List Byte) (s : State) :
    Loads [.tenants, .restraint] (readTenantEntry e).2 s (fillTenant e s) :=
  .addClamps (fun b hb => by cases b <;> first | rfl | simp at hb) (by decide) _

theorem fillTariff_loads (e : List Byte) (s : State) : Loads [.tariffs] 0 s (fillTariff e s) :=
  .of_frame (fun b hb => by cases b <;> first | rfl | simp at hb) (by decide)

theorem fillLink_loads (e : List Byte) (s : State) : Loads [.links] (readLinkEntry e).2 s (fillLink e s) := by
  unfold fillLink
  split
  · exact .addClamps (fun b hb => by cases b <;> first | rfl | simp at hb) (by decide) _
  · exact .addClamps (Frame.refl _ s) (by decide) _

theorem fillCollector_loads (own : Station) (e : List Byte) {s : State} (h : s.loader.station = own) :
    Loads [.orders] (collectorClamp own e) s (fillCollector e s) := by
  unfold fillCollector collectorClamp
  rw [h]
  dsimp only
  split
  · exact .addClamps (Frame.refl _ s) (by decide) 1
  · split
    · exact .refl _ s
    · exact .of_frame (fun b hb => by cases b <;> first | rfl | simp at hb) (by decide)

theorem fillCollectors_loads (own : Station) (es : List (List Byte)) {s : State} (h : s.loader.station = own) :
    Loads [.orders] (es.map (collectorClamp own)).sum s (eachState fillCollector es s) := by
  induction es generalizing s with
  | nil => exact .refl _ s
  | cons e es ih =>
    have first := fillCollector_loads own e h
    rw [List.map_cons, List.sum_cons]
    exact first.trans (ih (first.station.trans h))

/-- The FIXED entry finds no place: its key is known, or its bucket is full (R22). -/
def State.noRoomFor (s : State) (f : FixedCfg) : Prop :=
  (keyIndex s.fwd.table f.tenant f.addr).isSome = true ∨ freeSlot s.fwd.table (bucketOf f.tenant f.addr) = none

theorem fillFixed_dropped {s : State} {e : List Byte} (h : s.noRoomFor (readFixedEntry e).1) (n : Nat) :
    fillFixed n e s = addClamps 1 (addClamps (readFixedEntry e).2 s) := by
  have fwd : (addClamps (readFixedEntry e).2 s).fwd = s.fwd := rfl
  unfold fillFixed
  dsimp only
  rw [fwd]
  by_cases known : (keyIndex s.fwd.table (readFixedEntry e).1.tenant (readFixedEntry e).1.addr).isSome = true
  · rw [if_pos known]
  · rw [if_neg known, h.resolve_left known]

theorem fillFixed_kept {s : State} {e : List Byte} {i : Nat}
    (absent : keyIndex s.fwd.table (readFixedEntry e).1.tenant (readFixedEntry e).1.addr = none)
    (free : freeSlot s.fwd.table (bucketOf (readFixedEntry e).1.tenant (readFixedEntry e).1.addr) = some i) (n : Nat) :
    fillFixed n e s = addClamps (readFixedEntry e).2 (putEntry i (fixedEntry n (readFixedEntry e).1)
      { s with fixed := mapInsert s.fixed n (readFixedEntry e).1 }) := by
  have fwd : (addClamps (readFixedEntry e).2 s).fwd = s.fwd := rfl
  unfold fillFixed
  dsimp only
  rw [fwd, absent, if_neg (by decide), free]
  rfl

theorem fillFixed_loads (n : Nat) (e : List Byte) (s : State) : ∃ k, Loads [.fwd, .fixed] k s (fillFixed n e s) := by
  by_cases h : s.noRoomFor (readFixedEntry e).1
  · rw [fillFixed_dropped h]
    have first : Loads [.fwd, .fixed] _ s (addClamps (readFixedEntry e).2 s) := .addClamps (Frame.refl _ s) (by decide) _
    exact ⟨_, first.trans (.addClamps (Frame.refl _ _) (by decide) 1)⟩
  · obtain ⟨absent, free⟩ := not_or.1 h
    obtain ⟨i, hi⟩ := Option.ne_none_iff_exists'.1 free
    rw [fillFixed_kept (Option.not_isSome_iff_eq_none.1 absent) hi]
    exact ⟨_, .addClamps ((setFixed_frame _ s).seq (putEntry_frame _ _ _) (by decide) (by decide)) (by decide) _⟩

theorem fillFixedAll_loads (n : Nat) (es : List (List Byte)) (s : State) :
    ∃ k, Loads [.fwd, .fixed] k s (fillFixedAll n es s) := by
  induction es generalizing n s with
  | nil => exact ⟨0, .refl _ s⟩
  | cons e es ih =>
    obtain ⟨k, first⟩ := fillFixed_loads n e s
    obtain ⟨m, rest⟩ := ih (n + 1) (fillFixed n e s)
    exact ⟨k + m, first.trans rest⟩

/-! ## The stages of the filling, in the order of R188 -/

def withParams (img : List Byte) (s : State) : State :=
  fillParams (sectionEntries img 1 5) (addClamps (unknownSects img) s)

def withPorts (img : List Byte) (s : State) : State := eachState fillPort (sectionEntries img 2 2) (withParams img s)

def withRules (img : List Byte) (s : State) : State := eachState fillRule (sectionEntries img 3 16) (withPorts img s)

def withTenants (img : List Byte) (s : State) : State := eachState fillTenant (sectionEntries img 4 18) (withRules img s)

def withTariffs (img : List Byte) (s : State) : State := eachState fillTariff (sectionEntries img 5 13) (withTenants img s)

def withLinks (img : List Byte) (s : State) : State := eachState fillLink (sectionEntries img 7 6) (withTariffs img s)

def withCollectors (img : List Byte) (s : State) : State :=
  eachState fillCollector (sectionEntries img 8 1) (withLinks img s)

def withFixed (img : List Byte) (s : State) : State := fillFixedAll 0 (sectionEntries img 6 10) (withCollectors img s)

theorem fillTables_eq (img : List Byte) (s : State) : fillTables img s = announceAllFixed (withFixed img s) := rfl

section

variable (img : List Byte) (s : State)

theorem withParams_loads : Loads [.params] (unknownSects img + (readParams (sectionEntries img 1 5)).2) s (withParams img s) :=
  .trans (.addClamps (Frame.refl _ s) (by decide) _) (fillParams_loads _ _)

theorem withPorts_loads :
    Loads [.ports] ((sectionEntries img 2 2).map portClamps).sum (withParams img s) (withPorts img s) :=
  .eachState fillPort_loads _ _

theorem withRules_loads :
    Loads [.rules] ((sectionEntries img 3 16).map fun e => (readRule e).2).sum (withPorts img s) (withRules img s) :=
  .eachState fillRule_loads _ _

theorem withTenants_loads : Loads [.tenants, .restraint] ((sectionEntries img 4 18).map fun e => (readTenantEntry e).2).sum
    (withRules img s) (withTenants img s) := .eachState fillTenant_loads _ _

theorem withTariffs_loads :
    Loads [.tariffs] ((sectionEntries img 5 13).map fun _ => 0).sum (withTenants img s) (withTariffs img s) :=
  .eachState fillTariff_loads _ _

theorem withLinks_loads :
    Loads [.links] ((sectionEntries img 7 6).map fun e => (readLinkEntry e).2).sum (withTariffs img s) (withLinks img s) :=
  .eachState fillLink_loads _ _

theorem withLinks_station : (withLinks img s).loader.station = s.loader.station :=
  (withLinks_loads img s).station.trans ((withTariffs_loads img s).station.trans ((withTenants_loads img s).station.trans
    ((withRules_loads img s).station.trans ((withPorts_loads img s).station.trans (withParams_loads img s).station))))

theorem withCollectors_loads : Loads [.orders] ((sectionEntries img 8 1).map (collectorClamp s.loader.station)).sum
    (withLinks img s) (withCollectors img s) := fillCollectors_loads _ _ (withLinks_station img s)

theorem withFixed_loads : ∃ k, Loads [.fwd, .fixed] k (withCollectors img s) (withFixed img s) := fillFixedAll_loads _ _ _

theorem announceAllFixed_frame : Frame [.fwd, .line] s (announceAllFixed s) :=
  .eachState (f := fun x => announceFixed x.2) (fun x t => announceFixed_frame x.2 t) s.fixed s

/-- The blocks that the filling writes. -/
abbrev tableFill : List Block := [.params, .ports, .rules, .tenants, .restraint, .tariffs, .links, .orders, .fwd, .fixed, .line]

theorem withFixed_total : ∃ k, Loads tableFill k s (withFixed img s) := by
  obtain ⟨k, fixed⟩ := withFixed_loads img s
  have base := ((((((withParams_loads img s).mono (m := tableFill) (by decide)).trans ((withPorts_loads img s).mono (by decide))).trans
    ((withRules_loads img s).mono (by decide))).trans ((withTenants_loads img s).mono (by decide))).trans
    ((withTariffs_loads img s).mono (by decide))).trans ((withLinks_loads img s).mono (by decide))
  exact ⟨_, (base.trans ((withCollectors_loads img s).mono (by decide))).trans (fixed.mono (by decide))⟩

theorem fillTables_loads : ∃ k, Loads tableFill k s (fillTables img s) := by
  obtain ⟨k, fixed⟩ := withFixed_total img s
  exact ⟨_, fixed.trans ((Loads.of_frame (announceAllFixed_frame _) (by decide)).mono (by decide))⟩

theorem fillTables_params : (fillTables img s).params = (readParams (sectionEntries img 1 5)).1 := by
  obtain ⟨k, fixed⟩ := withFixed_loads img s
  rw [fillTables_eq, (announceAllFixed_frame _).params (by decide), fixed.frame.params (by decide),
    (withCollectors_loads img s).frame.params (by decide), (withLinks_loads img s).frame.params (by decide),
    (withTariffs_loads img s).frame.params (by decide), (withTenants_loads img s).frame.params (by decide),
    (withRules_loads img s).frame.params (by decide), (withPorts_loads img s).frame.params (by decide)]
  rfl

theorem fillTables_portsOf : (fillTables img s).ports = (withPorts img s).ports := by
  obtain ⟨k, fixed⟩ := withFixed_loads img s
  rw [fillTables_eq, (announceAllFixed_frame _).ports (by decide), fixed.frame.ports (by decide),
    (withCollectors_loads img s).frame.ports (by decide), (withLinks_loads img s).frame.ports (by decide),
    (withTariffs_loads img s).frame.ports (by decide), (withTenants_loads img s).frame.ports (by decide),
    (withRules_loads img s).frame.ports (by decide)]

end

/-- The port with the bond of a PORTS entry (R109). -/
def PortUnit.bonded (e : List Byte) (u : PortUnit) : PortUnit :=
  { u with bond := if (clampTo 0 63 (octetNat e 1)).1 = 0 then none else some (clampTo 0 63 (octetNat e 1)).1 }

theorem fillPort_edge {e : List Byte} (h : octetNat e 0 < 24) (s : State) : fillPort e s =
    addClamps (clampTo 0 63 (octetNat e 1)).2 (setPort (sPort ⟨octetNat e 0, h⟩) (PortUnit.bonded e) s) := by
  unfold fillPort
  exact dif_pos h

theorem fillPort_port (e : List Byte) (s : State) (p : Port) :
    (fillPort e s).port p = if octetNat e 0 = p.val ∧ p.val < 24 then (s.port p).bonded e else s.port p := by
  by_cases h : octetNat e 0 < 24
  · have kept (u : State) (n : Nat) : (addClamps n u).port p = u.port p := rfl
    rw [fillPort_edge h, kept]
    by_cases same : octetNat e 0 = p.val
    · have here : p = sPort ⟨octetNat e 0, h⟩ := Fin.ext same.symm
      rw [if_pos ⟨same, same ▸ h⟩, here]
      exact port_setPort _ _ s
    · rw [if_neg (not_and_of_not_left _ same)]
      exact port_setPort_ne (fun k => same (congrArg Fin.val k).symm) _ s
  · rw [if_neg (by omega)]
    unfold fillPort
    rw [dif_neg h]
    rfl

theorem fillPorts_link (es : List (List Byte)) (s : State) (p : Port) :
    ((eachState fillPort es s).port p).link = (s.port p).link
      ∧ ((eachState fillPort es s).port p).carrier = (s.port p).carrier := by
  induction es generalizing s with
  | nil => exact ⟨rfl, rfl⟩
  | cons e es ih =>
    obtain ⟨link, carrier⟩ := ih (fillPort e s)
    rw [eachState, link, carrier, fillPort_port]
    split <;> exact ⟨rfl, rfl⟩

theorem fillTables_link (img : List Byte) (s : State) (p : Port) :
    ((fillTables img s).port p).link = (s.port p).link ∧ ((fillTables img s).port p).carrier = (s.port p).carrier := by
  have same : (withParams img s).port p = s.port p := rfl
  have now : (fillTables img s).port p = (withPorts img s).port p := by
    unfold State.port
    rw [fillTables_portsOf]
  rw [now, ← same]
  exact fillPorts_link _ _ p

theorem announceFixed_conflict (f : FixedCfg) (s : State) : (announceFixed f s).line.conflict = s.line.conflict := by
  unfold announceFixed
  split
  · exact queueReach_conflict _ _ _ _
  · rfl

theorem fillTables_conflict (img : List Byte) (s : State) : (fillTables img s).line.conflict = s.line.conflict := by
  have each (as : List (Nat × FixedCfg)) (t : State) :
      (eachState (fun x => announceFixed x.2) as t).line.conflict = t.line.conflict := by
    induction as generalizing t with
    | nil => rfl
    | cons a as ih => exact (ih _).trans (announceFixed_conflict a.2 t)
  obtain ⟨k, fixed⟩ := withFixed_loads img s
  rw [fillTables_eq]
  refine (each _ _).trans ?_
  rw [fixed.frame.line (by decide), (withCollectors_loads img s).frame.line (by decide),
    (withLinks_loads img s).frame.line (by decide), (withTariffs_loads img s).frame.line (by decide),
    (withTenants_loads img s).frame.line (by decide), (withRules_loads img s).frame.line (by decide),
    (withPorts_loads img s).frame.line (by decide), (withParams_loads img s).frame.line (by decide)]

/-! ## The entry to JOINING (R191) -/

/-- The link state of a port at the entry to JOINING (R116). -/
def PortUnit.startLink (u : PortUnit) : LinkState := if u.carrier ∧ u.link = .down then .up else u.link

theorem startPort_port (p q : Port) (s : State) : (((startPort p s).st.port q).carrier = (s.port q).carrier)
    ∧ ((startPort p s).st.port q).link = if q = p then (s.port q).startLink else (s.port q).link := by
  unfold startPort PortUnit.startLink
  by_cases same : q = p
  · subst same
    rw [if_pos rfl]
    by_cases starts : (s.port q).carrier ∧ (s.port q).link = .down
    · rw [if_pos starts, if_pos starts]
      unfold portToUp raise
      dsimp only
      rw [port_setPort]
      exact ⟨rfl, rfl⟩
    · rw [if_neg starts, if_neg starts]
      exact ⟨rfl, rfl⟩
  · rw [if_neg same]
    split
    · unfold portToUp raise
      dsimp only
      rw [port_setPort_ne same]
      exact ⟨rfl, rfl⟩
    · exact ⟨rfl, rfl⟩

theorem startPorts_port (ps : List Port) (q : Port) (s : State) :
    (((eachOut startPort ps s).st.port q).carrier = (s.port q).carrier)
      ∧ ((eachOut startPort ps s).st.port q).link = if q ∈ ps then (s.port q).startLink else (s.port q).link := by
  induction ps generalizing s with
  | nil => exact ⟨rfl, rfl⟩
  | cons p ps ih =>
    obtain ⟨carrier, link⟩ := startPort_port p q s
    obtain ⟨carrier', link'⟩ := ih (startPort p s).st
    rw [eachOut, Out.andThen_st]
    refine ⟨carrier'.trans carrier, link'.trans ?_⟩
    unfold PortUnit.startLink at *
    rw [carrier, link]
    by_cases here : q = p
    · subst here
      rw [if_pos rfl, if_pos List.mem_cons_self]
      by_cases starts : (s.port q).carrier ∧ (s.port q).link = .down
      · simp [starts]
      · rw [if_neg starts, if_neg starts]
        exact ite_self _
    · rw [if_neg here]
      exact if_congr (by rw [List.mem_cons, or_iff_right here]) rfl rfl

/-- ISOLATED at the entry to JOINING (R191). -/
def judgeStart (s : State) : Out := if s.uCount = 0 then turnIsolated true s else .of s

/-- The notices of the entry to JOINING (R191). -/
def startNotices (s : State) : State := composeReach (composeLink (composeHello s))

theorem enterJoining_eq (s : State) : enterJoining s =
    ((eachOut startPort allPorts (openJoining (restartGenerators (enterPhase .joining s)))).andThen judgeStart).also
      startNotices := rfl

theorem judgeStart_frame (s : State) : Frame [.peers, .load] s (judgeStart s).st := by
  unfold judgeStart
  split
  · exact turnIsolated_frame true s
  · exact .refl _ s

theorem judgeStart_isolated {s : State} (h : s.uCount = 0) : (judgeStart s).st.peers.isolated = true := by
  unfold judgeStart
  rw [if_pos h, turnIsolated_st, (isolationTurned_frame true _).peers (by decide)]

theorem startNotices_frame (s : State) : Frame [.fwd, .line] s (startNotices s) :=
  (((composeHello_frame s).mono (by decide)).trans ((composeLink_frame _).mono (by decide))).trans (composeReach_frame _)

theorem composeReach_waiting (s : State) : (composeReach s).line = { s.line with wReach := (composeReach s).line.wReach } := by
  unfold composeReach
  split <;> rfl

theorem composeLink_waiting (s : State) : (composeLink s).line = { s.line with wLink := (composeLink s).line.wLink } := by
  unfold composeLink
  split <;> rfl

theorem startNotices_conflict (s : State) : (startNotices s).line.conflict = s.line.conflict := by
  unfold startNotices
  rw [composeReach_waiting, composeLink_waiting]
  unfold composeHello
  split <;> rfl

theorem helloNow_congr {l : List Block} {s t : State} (h : Frame l s t)
    (k : ∀ b ∈ [Block.peers, .params], b ∉ l) (phase : t.loader.phase = s.loader.phase)
    (conflict : t.line.conflict = s.line.conflict) : t.helloNow = s.helloNow := by
  unfold State.helloNow
  rw [h.params (k _ (by decide)), h.peers (k _ (by decide)), phase, conflict]

theorem startNotices_wHello {s : State} (started : s.lineStarted = true) :
    (startNotices s).line.wHello = some (startNotices s).helloNow := by
  have frame := startNotices_frame s
  rw [helloNow_congr frame (by decide) (by rw [frame.loader (by decide)]) (startNotices_conflict s)]
  unfold startNotices
  rw [composeReach_waiting, composeLink_waiting, composeHello_of_started started]
  rfl

theorem startNotices_wLink {s : State} (notify : s.mayNotify = true) :
    (startNotices s).line.wLink = some (startNotices s).linkNow := by
  have frame := startNotices_frame s
  obtain ⟨-, same⟩ := composeHello_wLink s
  have notify' : (composeHello s).mayNotify = true := by
    have conflict : (composeHello s).line.conflict = s.line.conflict := by
      unfold composeHello
      split <;> rfl
    unfold State.mayNotify State.acting at notify ⊢
    rw [(composeHello_frame s).loader (by decide), conflict]
    exact notify
  rw [linkNow_congr frame (by decide) (by rw [frame.loader (by decide)]) (startNotices_conflict s), ← same]
  unfold startNotices
  rw [composeReach_waiting, composeLink_linkNow notify']

end Sys2Proof.Machine
end


section
/-! The end of LOADING settled (O46): the state at the entry to JOINING, at the entry to FAILSAFE, and after its events. -/

namespace Sys2Proof.Machine

/-! ## JOINING -/

/-- The state as JOINING opens, before ports, ISOLATED and notices. -/
def openedJoining (s : State) : State := openJoining (restartGenerators (enterPhase .joining s))

theorem openedJoining_frame (s : State) : Frame [.loader, .time, .meter] s (openedJoining s) := by
  intro b hb
  cases b <;> first | rfl | simp at hb

theorem openedJoining_line (s : State) : (openedJoining s).line = s.line := rfl

/-- What the entry to JOINING leaves, before its events are taken. -/
structure Joined (s t : State) : Prop where
  frame : Frame [.ports, .peers, .load, .fwd, .line] (openedJoining s) t
  conflict : t.line.conflict = s.line.conflict
  links : ∀ p, (t.port p).link = (s.port p).startLink
  isolated : t.uCount = 0 → t.peers.isolated = true
  hello : s.loader.station ≠ 15#4 → t.line.wHello = some t.helloNow
  link : s.line.conflict = false → t.line.wLink = some t.linkNow

theorem enterJoining_joined (s : State) : Joined s (enterJoining s).st := by
  have opened := openedJoining_line s
  have loader : (openedJoining s).loader = { s.loader with phase := .joining, enteredAt := s.time.now } := rfl
  have base (p : Port) : (openedJoining s).port p = s.port p := rfl
  rw [enterJoining_eq, Out.also_st, Out.andThen_st]
  have started : Frame [.ports] (openedJoining s) (eachOut startPort allPorts (openedJoining s)).st :=
    .eachOut startPort_frame allPorts _
  have links (p : Port) : ((eachOut startPort allPorts (openedJoining s)).st.port p).link = (s.port p).startLink := by
    rw [(startPorts_port allPorts p _).2, if_pos (mem_allPorts p), base]
  change Joined s (startNotices (judgeStart (eachOut startPort allPorts (openedJoining s)).st).st)
  generalize (eachOut startPort allPorts (openedJoining s)).st = u at started links
  have judged := judgeStart_frame u
  have cut : u.uCount = 0 → (judgeStart u).st.peers.isolated = true := judgeStart_isolated
  generalize (judgeStart u).st = v at judged cut
  have notices := startNotices_frame v
  have vLoader : v.loader = { s.loader with phase := .joining, enteredAt := s.time.now } :=
    (judged.loader (by decide)).trans ((started.loader (by decide)).trans loader)
  have vLine : v.line = s.line := (judged.line (by decide)).trans ((started.line (by decide)).trans opened)
  refine ⟨((started.mono (by decide)).trans (judged.mono (by decide))).trans (notices.mono (by decide)), ?_, fun p => ?_,
    fun none => ?_, fun numbered => startNotices_wHello ?_, fun quiet => startNotices_wLink ?_⟩
  · rw [startNotices_conflict, vLine]
  · unfold State.port at links ⊢
    rw [notices.ports (by decide), judged.ports (by decide)]
    exact links p
  · rw [notices.peers (by decide)]
    refine cut (Eq.trans ?_ none)
    exact (uCount_of_ports ((notices.ports (by decide)).trans (judged.ports (by decide)))).symm
  · rw [lineStarted_iff, vLoader]
    exact ⟨Phase.noConfusion, numbered⟩
  · rw [mayNotify_iff, acting_iff, vLoader, vLine]
    exact ⟨.inl rfl, quiet⟩

/-- The end of LOADING with a sound image, its events taken. -/
theorem completeLoad_sound {s : State} {img : List Byte} (loading : s.loader.phase = .loading)
    (sound : structuralFault s.loader.station img = none) : completeLoad img s = enterJoining (fillTables img s) := by
  unfold completeLoad endLoading
  rw [if_pos loading, sound]

theorem completeLoad_faulty {s : State} {img : List Byte} {r : Nat} (loading : s.loader.phase = .loading)
    (fault : structuralFault s.loader.station img = some r) : completeLoad img s = .of (enterFailsafe r img s) := by
  unfold completeLoad endLoading
  rw [if_pos loading, fault]

theorem exec_imageLoadComplete (s : State) (img : List Byte) :
    exec (.imageLoadComplete img) s = .next (conclude (completeLoad img s)) := rfl

theorem conclude_port (o : Out) (p : Port) : (conclude o).port p = o.st.port p := by
  unfold State.port
  rw [(conclude_frame o).ports (by decide)]

/-! ## FAILSAFE (R189) -/

theorem salvageParams_none {img : List Byte} (h : salvageSect img 1 = none) : salvageParams img = ({}, 0) := by
  unfold salvageParams
  rw [h]

/-- FAILSAFE after the values that it takes from the image. -/
def failsafeFrom (r : Nat) (s : State) : State :=
  composeHello (restartGenerators (enterPhase .failsafe { s with loader := { s.loader with failReason := some r } }))

/-- The values that FAILSAFE takes from the image. -/
def salvaged (r : Nat) (img : List Byte) (s : State) : State :=
  salvageCollectors img (addClamps ((salvageParams img).2 + if 5 ≤ r then unknownSects img else 0)
    { s with params := (salvageParams img).1 })

theorem enterFailsafe_eq (r : Nat) (img : List Byte) (s : State) :
    enterFailsafe r img s = failsafeFrom r (salvaged r img s) := rfl

theorem salvageCollectors_loads (img : List Byte) (s : State) : ∃ k, Loads [.orders] k s (salvageCollectors img s) := by
  unfold salvageCollectors
  split
  · exact ⟨0, .of_frame (fun b hb => by cases b <;> first | rfl | simp at hb) (by decide)⟩
  · exact ⟨_, fillCollectors_loads s.loader.station _ rfl⟩

theorem salvaged_loads (r : Nat) (img : List Byte) (s : State) : ∃ k, Loads [.params, .orders] k s (salvaged r img s) := by
  have params : Frame [.params] s { s with params := (salvageParams img).1 } := fun b hb => by
    cases b <;> first | rfl | simp at hb
  obtain ⟨k, collectors⟩ := salvageCollectors_loads img (addClamps ((salvageParams img).2 + if 5 ≤ r then unknownSects img else 0)
    { s with params := (salvageParams img).1 })
  exact ⟨_, ((Loads.addClamps params (by decide) _).mono (by decide)).trans (collectors.mono (by decide))⟩

theorem failsafeFrom_frame (r : Nat) (s : State) : Frame [.loader, .time, .line] s (failsafeFrom r s) := by
  have first : Frame [.loader, .time] s
      (restartGenerators (enterPhase .failsafe { s with loader := { s.loader with failReason := some r } })) := by
    intro b hb
    cases b <;> first | rfl | simp at hb
  exact (first.mono (by decide)).trans ((composeHello_frame _).mono (by decide))

theorem failsafeFrom_loader (r : Nat) (s : State) : (failsafeFrom r s).loader =
    { s.loader with phase := .failsafe, enteredAt := s.time.now, failReason := some r } :=
  (composeHello_frame _).loader (by decide)

theorem failsafeFrom_time (r : Nat) (s : State) : (failsafeFrom r s).time = { s.time with
    sampleDue := later s.time.now s.params.samplePeriod, loadDue := some (later s.time.now (loadUs s))
    helloDue := some (later s.time.now (helloUs s)) } :=
  (composeHello_frame _).time (by decide)

theorem failsafeFrom_wHello (r : Nat) {s : State} (numbered : s.loader.station ≠ 15#4) :
    (failsafeFrom r s).line.wHello = some (failsafeFrom r s).helloNow :=
  composeHello_wHello (lineStarted_iff.2 ⟨Phase.noConfusion, numbered⟩)

/-- Settles O46. -/
theorem imageLoadEndsLoading : Obligations.ImageLoadEndsLoading := by
  unfold Obligations.ImageLoadEndsLoading
  refine fun s img => ⟨fun other => ?_, fun loading => ⟨conclude (completeLoad img s), exec_imageLoadComplete s img, ?_⟩⟩
  · have idle : completeLoad img s = .of s := if_neg other
    rw [exec_imageLoadComplete, idle]
    exact done_of s
  cases fault : structuralFault s.loader.station img with
  | some r =>
    have ends : conclude (completeLoad img s) = enterFailsafe r img s := by
      rw [completeLoad_faulty loading fault]
      exact Host.Outcome.next.inj (done_of _)
    rw [ends, enterFailsafe_eq]
    obtain ⟨k, loads⟩ := salvaged_loads r img s
    generalize salvaged r img s = u at loads
    have frame := failsafeFrom_frame r u
    have loader := failsafeFrom_loader r u
    have time := failsafeFrom_time r u
    have now : u.time = s.time := loads.frame.time (by decide)
    have params : (failsafeFrom r u).params = u.params := frame.params (by decide)
    have whole : Frame [.loader, .params, .orders, .time, .line] s (failsafeFrom r u) :=
      (loads.frame.mono (by decide)).trans (frame.mono (by decide))
    have kept : ∀ {P : Prop}, (some r = none → P) := fun h => by cases h
    refine ⟨?_, ?_, ?_, ?_, ?_, ?_, fun numbered => failsafeFrom_wHello r (loads.station ▸ numbered), fun q hq => ?_, kept⟩
    · rw [loader]
      exact loads.station
    · rw [loader, now]
    · rw [time, now]
    · rw [time, now, params]
      rfl
    · rw [time, now, params]
      rfl
    · rw [time, now, params]
      rfl
    · cases hq
      rw [loader]
      exact ⟨rfl, rfl, whole.rules (by decide), whole.tenants (by decide), whole.tariffs (by decide), whole.fwd (by decide),
        whole.links (by decide), whole.ports (by decide)⟩
  | none =>
    rw [completeLoad_sound loading fault]
    have filled := fillTables_params img s
    have conflict := fillTables_conflict img s
    have link := fillTables_link img s
    obtain ⟨k, loads⟩ := fillTables_loads img s
    generalize fillTables img s = u at filled conflict link loads
    have joined := enterJoining_joined u
    generalize enterJoining u = o at joined
    have after := conclude_frame o
    have refetch := conclude_refetchOnly o
    have kept := lineKept_keptByLinks.conclude o
    have wLink : o.st.line.wLink = some o.st.linkNow → (conclude o).line.wLink = some (conclude o).linkNow := conclude_wLink
    have ports : (conclude o).ports = o.st.ports := after.ports (by decide)
    have loader : o.st.loader = { u.loader with phase := .joining, enteredAt := u.time.now } := joined.frame.loader (by decide)
    have params : (conclude o).params = (readParams (sectionEntries img 1 5)).1 :=
      (after.params (by decide)).trans ((joined.frame.params (by decide)).trans filled)
    have time : (conclude o).time = (openedJoining u).time := (after.time (by decide)).trans (joined.frame.time (by decide))
    have now : u.time = s.time := loads.frame.time (by decide)
    have due : (openedJoining u).time = { s.time with
        sampleDue := later s.time.now u.params.samplePeriod, loadDue := some (later s.time.now (u.params.loadPeriod * 1000))
        helloDue := some (later s.time.now (u.params.helloPeriod * 1000))
        refreshDue := some (later s.time.now (u.params.refreshPeriod * 1000000))
        intervalDue := some (later s.time.now (u.params.billing * 1000000)) } := by
      rw [← now]
      rfl
    have entered : (conclude o).loader.enteredAt = s.time.now := by
      obtain ⟨a, b, c, d, same⟩ := refetch
      rw [same, loader, now]
    rw [due, show u.params = (conclude o).params from filled.trans params.symm] at time
    refine ⟨?_, entered, by rw [time], by rw [time]; rfl, by rw [time]; rfl, by rw [time]; rfl, fun numbered => ?_,
      fun r none => (by cases none), fun _ => ⟨?_, params, by rw [time]; rfl, by rw [time]; rfl, fun p down => ?_, fun cut => ?_,
      fun quiet => wLink (joined.link (conflict.trans quiet))⟩⟩
    · rw [refetch.station, loader]
      exact loads.station
    · have hello := joined.hello (loads.station ▸ numbered)
      rw [kept.line, helloNow_congr after (by decide) refetch.phase (by rw [kept.line])]
      exact hello
    · rw [refetch.phase, loader]
    · obtain ⟨link, carrier⟩ := link p
      rw [conclude_port, joined.links, PortUnit.startLink, link, carrier, down]
      by_cases has : (s.port p).carrier = true
      · rw [if_pos ⟨has, rfl⟩, if_pos has]
      · rw [if_neg (not_and_of_not_left _ has), if_neg has]
    · rw [after.peers (by decide)]
      refine joined.isolated ((uCount_of_ports ports).symm.trans ?_)
      exact uCount_eq_zero_iff.2 cut

end Sys2Proof.Machine
end


section
/-! The STATION parameters (O48, Tables 12-6 and 12-7): each from its last pair, clamped, and the clamps counted. -/

namespace Sys2Proof.Machine

/-! ## One pair -/

theorem clampTo_fst (lo hi v : Nat) : (clampTo lo hi v).1 = nearest lo hi v := by
  unfold clampTo nearest
  split
  · rfl
  · split <;> rfl

theorem clampTo_snd (lo hi v : Nat) : (clampTo lo hi v).2 = if v = nearest lo hi v then 0 else 1 := by
  unfold clampTo nearest
  split
  next low => rw [if_neg (by omega)]
  next =>
    split
    next high => rw [if_neg (by omega)]
    next => exact (if_pos rfl).symm

/-- The parameters with the value of an identifier (Table 12-7). -/
def Params.put (p : Params) (id v : Nat) : Params :=
  { serial := if id = 1 then BitVec.ofNat 32 v else p.serial
    bitRate := if id = 2 then (clampRate v).1 else p.bitRate
    deepHash := if id = 3 then v != 0 else p.deepHash
    samplePeriod := if id = 4 then (clampSample v).1 else p.samplePeriod
    loadShift := if id = 5 then (clampTo 0 7 v).1 else p.loadShift
    loadPeriod := if id = 6 then (clampTo 1 100 v).1 else p.loadPeriod
    helloPeriod := if id = 7 then (clampTo 100 2000 v).1 else p.helloPeriod
    refreshPeriod := if id = 8 then (clampTo 10 600 v).1 else p.refreshPeriod
    basis := if id = 9 then (clampTo 64 12288 v).1 else p.basis
    margin := if id = 10 then (clampTo 0 32767 v).1 else p.margin
    cap := if id = 11 then (clampTo 0 512 v).1 else p.cap
    slew := if id = 12 then (clampTo 1 256 v).1 else p.slew
    xl := if id = 13 then (clampTo 0 32767 v).1 else p.xl
    tp := if id = 14 then (clampTo 0 32767 v).1 else p.tp
    onLevel := if id = 15 then (clampTo 0 12288 v).1 else p.onLevel
    offLevel := if id = 16 then v else p.offLevel
    window := if id = 17 then (clampTo 1 32 v).1 else p.window
    ageLimit := if id = 18 then (clampTo 10 4095 v).1 else p.ageLimit
    billing := if id = 19 then (clampTo 1 3600 v).1 else p.billing
    holdBase := if id = 20 then (clampTo 1 8 v).1 else p.holdBase
    degrade := if id = 21 then (clampTo 1 65535 v).1 else p.degrade
    decay := if id = 22 then (clampTo 10 600 v).1 else p.decay
    classLimit := if id = 23 then (clampTo 16 4096 v).1 else p.classLimit }

theorem setParam_put (p : Params) (id v : Nat) : (setParam p id v).1 = p.put id v := by
  by_cases known : id < 24
  · interval_cases id <;> rfl
  · have other : setParam p id v = (p, 1) := by
      unfold setParam
      split <;> first | omega | rfl
    have ne (k : Nat) (h : k < 24) : id ≠ k := by omega
    rw [other]
    unfold Params.put
    simp only [if_neg (ne _ _), Nat.reduceLT]

/-- The clamps of a value do not depend on the other parameters. -/
theorem setParam_clamps (p : Params) (id v : Nat) : (setParam p id v).2 = (setParam {} id v).2 := by
  unfold setParam
  split <;> rfl

/-- A parameter that is set by one identifier. -/
def OwnParam {α : Type} (id : Nat) (g : Params → α) (c : Nat → α) : Prop :=
  ∀ p k v, g (Params.put p k v) = if k = id then c v else g p

/-! ## All pairs -/

/-- The clamps of the last pair of an identifier. -/
def pairClamps (pairs : List (List Byte)) (id : Nat) : Nat :=
  ((lastPair pairs id).map fun v => (setParam {} id v).2).getD 0

theorem takeParams_of_other {α : Type} {id : Nat} {g : Params → α} {c : Nat → α} (own : OwnParam id g c)
    {pairs : List (List Byte)} {ids : List Nat} (h : id ∉ ids) (p : Clamped Params) :
    g (takeParams pairs ids p).1 = g p.1 := by
  induction ids generalizing p with
  | nil => rfl
  | cons k ids ih =>
    obtain ⟨ne, rest⟩ := not_or.1 (mt List.mem_cons.2 h)
    unfold takeParams
    split
    · exact ih rest p
    · rw [ih rest, setParam_put, own, if_neg (Ne.symm ne)]

theorem takeParams_value {α : Type} {id : Nat} {g : Params → α} {c : Nat → α} (own : OwnParam id g c)
    {pairs : List (List Byte)} {ids : List Nat} (nodup : ids.Nodup) (h : id ∈ ids) (p : Clamped Params) :
    g (takeParams pairs ids p).1 = ((lastPair pairs id).map c).getD (g p.1) := by
  induction ids generalizing p with
  | nil => cases h
  | cons k ids ih =>
    obtain ⟨new, nodup⟩ := List.nodup_cons.1 nodup
    unfold takeParams
    by_cases here : id = k
    · subst here
      split
      next absent => rw [takeParams_of_other own new, absent]; rfl
      next v found => rw [takeParams_of_other own new, setParam_put, own, if_pos rfl, found]; rfl
    · have later : id ∈ ids := (List.mem_cons.1 h).resolve_left here
      split
      next => exact ih nodup later p
      next => rw [ih nodup later, setParam_put, own, if_neg (Ne.symm here)]

theorem takeParams_clamps (pairs : List (List Byte)) (ids : List Nat) (p : Clamped Params) :
    (takeParams pairs ids p).2 = p.2 + (ids.map (pairClamps pairs)).sum := by
  induction ids generalizing p with
  | nil => rfl
  | cons k ids ih =>
    have here (o : Option Nat) (h : lastPair pairs k = o) :
        pairClamps pairs k = (o.map fun v => (setParam {} k v).2).getD 0 := by
      unfold pairClamps
      rw [h]
    unfold takeParams
    rw [List.map_cons, List.sum_cons]
    split
    next absent =>
      rw [ih, here _ absent]
      exact congrArg (p.2 + ·) (Nat.zero_add _).symm
    next v found =>
      rw [ih, here _ found, setParam_clamps]
      exact Nat.add_assoc _ _ _

theorem paramIds_nodup : paramIds.Nodup := by decide

theorem readParams_eq (pairs : List (List Byte)) : ∃ p : Params,
    (∀ {α : Type} {id : Nat} {g : Params → α} {c : Nat → α}, OwnParam id g c → id ∈ paramIds →
        g p = ((lastPair pairs id).map c).getD (g {}))
      ∧ (readParams pairs).1 = { p with offLevel := nearest (p.onLevel + 256) 12544 p.offLevel }
      ∧ (readParams pairs).2 = (pairs.filter fun e => !paramIds.contains (octetNat e 0)).length
          + (paramIds.map (pairClamps pairs)).sum
          + if p.offLevel = nearest (p.onLevel + 256) 12544 p.offLevel then 0 else 1 := by
  refine ⟨(takeParams pairs paramIds ({}, (pairs.filter fun e => !paramIds.contains (octetNat e 0)).length)).1,
    fun own mem => takeParams_value own paramIds_nodup mem _, ?_, ?_⟩
  · unfold readParams clampOff
    dsimp only
    rw [clampTo_fst]
  · unfold readParams clampOff
    dsimp only
    rw [clampTo_snd, takeParams_clamps]

theorem length_filter_eq_sum {α : Type} (l : List α) (f : α → Bool) :
    (l.filter f).length = (l.map fun x => if f x = true then 1 else 0).sum := by
  induction l with
  | nil => rfl
  | cons x l ih =>
    rw [List.map_cons, List.sum_cons, List.filter_cons]
    split
    · rw [List.length_cons, ih, Nat.add_comm]
    · rw [ih, Nat.zero_add]

/-- The clamp of a parameter counts exactly when the value changed. -/
theorem pairClamps_eq {pairs : List (List Byte)} {id final dflt : Nat} {near : Nat → Nat}
    (clamps : ∀ v, (setParam {} id v).2 = if v = near v then 0 else 1)
    (value : final = ((lastPair pairs id).map near).getD dflt) :
    pairClamps pairs id = if ((lastPair pairs id).any fun v => v != final) = true then 1 else 0 := by
  unfold pairClamps
  cases found : lastPair pairs id with
  | none => rfl
  | some v =>
    rw [found] at value
    have final : final = near v := value
    rw [Option.map_some, Option.getD_some, clamps, Option.any_some, final]
    by_cases same : v = near v
    · rw [if_pos same, if_neg (by simpa using same)]
    · rw [if_neg same, if_pos (by simpa using same)]

/-! ## Bit rate and sample period (R130, R184) -/

/-- The sample period that is taken for a value. -/
def sampleNear (v : Nat) : Nat := nearest 50 1000 v / 50 * 50

theorem clampSample_fst (v : Nat) : (clampSample v).1 = sampleNear v := by
  unfold clampSample sampleNear nearest
  split
  · rfl
  · split
    · rfl
    · split
      · omega
      · rfl

theorem clampSample_snd (v : Nat) : (clampSample v).2 = if v = sampleNear v then 0 else 1 := by
  unfold clampSample sampleNear nearest
  split
  · rw [if_neg (by omega)]
  · split
    · rw [if_neg (by omega)]
    · split
      · rw [if_pos (by omega)]
      · rw [if_neg (by omega)]

theorem clampRate_above {v : Nat} (h : 10 < v) : clampRate v = (10, 1) := by
  unfold clampRate
  split <;> first | omega | rfl

theorem clampRate_snd (v : Nat) : (clampRate v).2 = if v = (clampRate v).1 then 0 else 1 := by
  by_cases h : 10 < v
  · rw [clampRate_above h, if_neg (by omega)]
  · interval_cases v <;> rfl

theorem clampRate_mem (v : Nat) : (clampRate v).1 ∈ [1, 2, 5, 10] := by
  unfold clampRate
  split <;> decide

theorem clampRate_nearest (v : Nat) : ∀ r ∈ [1, 2, 5, 10],
    (v - (clampRate v).1) + ((clampRate v).1 - v) ≤ (v - r) + (r - v) := by
  by_cases h : 10 < v
  · rw [clampRate_above h]
    intro r hr
    simp only [List.mem_cons, List.not_mem_nil, or_false] at hr
    omega
  · interval_cases v <;> decide

/-! ## The values of a STATION section (Table 12-7) -/

/-- A parameter with a range: its value and its clamps, of a row of identifier, range, default and value. -/
def RangeRow (pairs : List (List Byte)) (r : Nat × Nat × Nat × Nat × Nat) : Prop :=
  r.2.2.2.2 = ((lastPair pairs r.1).map (nearest r.2.1 r.2.2.1)).getD r.2.2.2.1
    ∧ ∀ v, (setParam {} r.1 v).2 = if v = nearest r.2.1 r.2.2.1 v then 0 else 1

/-- The parameters with a range, with their identifiers, ranges and defaults. -/
def Params.rows (q : Params) : List (Nat × Nat × Nat × Nat × Nat) :=
  [(5, 0, 7, 3, q.loadShift), (6, 1, 100, 10, q.loadPeriod), (7, 100, 2000, 500, q.helloPeriod),
   (8, 10, 600, 30, q.refreshPeriod), (9, 64, 12288, 2048, q.basis), (10, 0, 32767, 2048, q.margin),
   (11, 0, 512, 256, q.cap), (12, 1, 256, 64, q.slew), (13, 0, 32767, 24576, q.xl), (14, 0, 32767, 16384, q.tp),
   (15, 0, 12288, 1536, q.onLevel), (17, 1, 32, 8, q.window), (18, 10, 4095, 300, q.ageLimit),
   (19, 1, 3600, 300, q.billing), (20, 1, 8, 1, q.holdBase), (21, 1, 65535, 16, q.degrade),
   (22, 10, 600, 60, q.decay), (23, 16, 4096, 1024, q.classLimit)]

section

variable {pairs : List (List Byte)} {p : Params} (value : ∀ {α : Type} {id : Nat} {g : Params → α} {c : Nat → α},
  OwnParam id g c → id ∈ paramIds → g p = ((lastPair pairs id).map c).getD (g {}))
include value

theorem rangeRow {id lo hi : Nat} (g : Params → Nat) (own : OwnParam id g fun v => (clampTo lo hi v).1) (mem : id ∈ paramIds)
    (set : ∀ v, (setParam {} id v).2 = (clampTo lo hi v).2) : RangeRow pairs (id, lo, hi, g {}, g p) := by
  refine ⟨?_, fun v => (set v).trans (clampTo_snd lo hi v)⟩
  rw [value own mem]
  exact congrArg (fun f => ((lastPair pairs id).map f).getD (g {})) (funext (clampTo_fst lo hi))

theorem rangeRows : ∀ r ∈ p.rows, RangeRow pairs r := by
  refine List.forall_mem_cons.2 ⟨rangeRow value Params.loadShift (fun _ _ _ => rfl) (by decide) (fun _ => rfl), ?_⟩
  refine List.forall_mem_cons.2 ⟨rangeRow value Params.loadPeriod (fun _ _ _ => rfl) (by decide) (fun _ => rfl), ?_⟩
  refine List.forall_mem_cons.2 ⟨rangeRow value Params.helloPeriod (fun _ _ _ => rfl) (by decide) (fun _ => rfl), ?_⟩
  refine List.forall_mem_cons.2 ⟨rangeRow value Params.refreshPeriod (fun _ _ _ => rfl) (by decide) (fun _ => rfl), ?_⟩
  refine List.forall_mem_cons.2 ⟨rangeRow value Params.basis (fun _ _ _ => rfl) (by decide) (fun _ => rfl), ?_⟩
  refine List.forall_mem_cons.2 ⟨rangeRow value Params.margin (fun _ _ _ => rfl) (by decide) (fun _ => rfl), ?_⟩
  refine List.forall_mem_cons.2 ⟨rangeRow value Params.cap (fun _ _ _ => rfl) (by decide) (fun _ => rfl), ?_⟩
  refine List.forall_mem_cons.2 ⟨rangeRow value Params.slew (fun _ _ _ => rfl) (by decide) (fun _ => rfl), ?_⟩
  refine List.forall_mem_cons.2 ⟨rangeRow value Params.xl (fun _ _ _ => rfl) (by decide) (fun _ => rfl), ?_⟩
  refine List.forall_mem_cons.2 ⟨rangeRow value Params.tp (fun _ _ _ => rfl) (by decide) (fun _ => rfl), ?_⟩
  refine List.forall_mem_cons.2 ⟨rangeRow value Params.onLevel (fun _ _ _ => rfl) (by decide) (fun _ => rfl), ?_⟩
  refine List.forall_mem_cons.2 ⟨rangeRow value Params.window (fun _ _ _ => rfl) (by decide) (fun _ => rfl), ?_⟩
  refine List.forall_mem_cons.2 ⟨rangeRow value Params.ageLimit (fun _ _ _ => rfl) (by decide) (fun _ => rfl), ?_⟩
  refine List.forall_mem_cons.2 ⟨rangeRow value Params.billing (fun _ _ _ => rfl) (by decide) (fun _ => rfl), ?_⟩
  refine List.forall_mem_cons.2 ⟨rangeRow value Params.holdBase (fun _ _ _ => rfl) (by decide) (fun _ => rfl), ?_⟩
  refine List.forall_mem_cons.2 ⟨rangeRow value Params.degrade (fun _ _ _ => rfl) (by decide) (fun _ => rfl), ?_⟩
  refine List.forall_mem_cons.2 ⟨rangeRow value Params.decay (fun _ _ _ => rfl) (by decide) (fun _ => rfl), ?_⟩
  exact List.forall_mem_singleton.2 (rangeRow value Params.classLimit (fun _ _ _ => rfl) (by decide) (fun _ => rfl))

end

theorem contains_paramIds (n : Nat) : (!paramIds.contains n) = decide (n = 0 ∨ 23 < n) := by
  have mem : n ∈ paramIds ↔ ¬ (n = 0 ∨ 23 < n) := by
    unfold paramIds
    simp only [List.mem_cons, List.not_mem_nil, or_false]
    omega
  by_cases unknown : n = 0 ∨ 23 < n
  · rw [decide_eq_true unknown, Bool.not_eq_true', List.contains_eq_mem]
    exact decide_eq_false fun k => mem.1 k unknown
  · rw [decide_eq_false unknown, Bool.not_eq_false', List.contains_eq_mem]
    exact decide_eq_true (mem.2 unknown)

/-- Identifiers 1, 3 and 16 are never clamped when they are read. -/
theorem pairClamps_sum (pairs : List (List Byte)) (p : Params) : (paramIds.map (pairClamps pairs)).sum =
    pairClamps pairs 2 + (pairClamps pairs 4 + (p.rows.map fun r => pairClamps pairs r.1).sum) := by
  have free {id : Nat} (h : ∀ v, (setParam {} id v).2 = 0) : pairClamps pairs id = 0 := by
    unfold pairClamps
    cases lastPair pairs id with
    | none => rfl
    | some v => exact h v
  have one := free (id := 1) fun _ => rfl
  have three := free (id := 3) fun _ => rfl
  have sixteen := free (id := 16) fun _ => rfl
  simp only [paramIds, Params.rows, List.map_cons, List.map_nil, List.sum_cons, List.sum_nil, one, three, sixteen, Nat.zero_add]

theorem readParams_values (pairs : List (List Byte)) : let q := (readParams pairs).1
    q.serial = ((lastPair pairs 1).map fun v => BitVec.ofNat 32 v).getD 0
      ∧ q.bitRate = ((lastPair pairs 2).map fun v => (clampRate v).1).getD 1
      ∧ q.deepHash = ((lastPair pairs 3).map fun v => v != 0).getD false
      ∧ q.samplePeriod = ((lastPair pairs 4).map sampleNear).getD 100
      ∧ (∀ r ∈ q.rows, RangeRow pairs r)
      ∧ q.offLevel = nearest (q.onLevel + 256) 12544 ((lastPair pairs 16).getD 3072)
      ∧ (readParams pairs).2 =
          (pairs.filter fun e => decide (octetNat e 0 = 0 ∨ 23 < octetNat e 0)).length
            + (((2, q.bitRate) :: (4, q.samplePeriod) :: q.rows.map fun r => (r.1, r.2.2.2.2)).filter
                fun r : Nat × Nat => (lastPair pairs r.1).any fun v => v != r.2).length
            + (if q.offLevel = (lastPair pairs 16).getD 3072 then 0 else 1) := by
  intro q
  obtain ⟨p, value, whole, clamps⟩ := readParams_eq pairs
  have serial := value (id := 1) (g := Params.serial) (c := fun v => BitVec.ofNat 32 v) (fun _ _ _ => rfl) (by decide)
  have rate := value (id := 2) (g := Params.bitRate) (c := fun v => (clampRate v).1) (fun _ _ _ => rfl) (by decide)
  have deep := value (id := 3) (g := Params.deepHash) (c := fun v => v != 0) (fun _ _ _ => rfl) (by decide)
  have sample : p.samplePeriod = ((lastPair pairs 4).map sampleNear).getD 100 :=
    (value (id := 4) (g := Params.samplePeriod) (c := fun v => (clampSample v).1) (fun _ _ _ => rfl) (by decide)).trans
      (congrArg (fun f => ((lastPair pairs 4).map f).getD 100) (funext clampSample_fst))
  have off : p.offLevel = (lastPair pairs 16).getD 3072 :=
    (value (id := 16) (g := Params.offLevel) (c := fun v => v) (fun _ _ _ => rfl) (by decide)).trans (by rw [Option.map_id'])
  have rows := rangeRows value
  have q_eq : q = { p with offLevel := nearest (p.onLevel + 256) 12544 p.offLevel } := whole
  clear_value q
  subst q_eq
  refine ⟨serial, rate, deep, sample, rows, congrArg (nearest (p.onLevel + 256) 12544) off, ?_⟩
  have each : p.rows.map (fun r => pairClamps pairs r.1) = (p.rows.map fun r => (r.1, r.2.2.2.2)).map fun r =>
      if ((lastPair pairs r.1).any fun v => v != r.2) = true then 1 else 0 := by
    rw [List.map_map]
    exact List.map_congr_left fun r hr => pairClamps_eq (rows r hr).2 (rows r hr).1
  have second : pairClamps pairs 2 = if ((lastPair pairs 2).any fun v => v != p.bitRate) = true then 1 else 0 :=
    pairClamps_eq (dflt := 1) clampRate_snd rate
  have fourth : pairClamps pairs 4 = if ((lastPair pairs 4).any fun v => v != p.samplePeriod) = true then 1 else 0 :=
    pairClamps_eq clampSample_snd sample
  have unknown : (pairs.filter fun e => !paramIds.contains (octetNat e 0)) =
      pairs.filter fun e => decide (octetNat e 0 = 0 ∨ 23 < octetNat e 0) :=
    List.filter_congr fun e _ => contains_paramIds _
  rw [clamps, unknown, pairClamps_sum pairs p, second, fourth, each, length_filter_eq_sum (_ :: _), List.map_cons, List.sum_cons,
    List.map_cons, List.sum_cons, ← off]
  exact congrArg _ (if_congr eq_comm rfl rfl)

end Sys2Proof.Machine
end


section
/-! The fields of rules, tenants, fixed entries and links as the loader reads them (O48). -/

namespace Sys2Proof.Machine

/-! ## Entries -/

theorem octetNat_lt (e : List Byte) (i : Nat) : octetNat e i < 256 := (e.getD i 0).isLt

theorem length_filter_id_cons (b : Bool) (l : List Bool) :
    ((b :: l).filter id).length = (if b = true then 1 else 0) + (l.filter id).length := by
  cases b
  · exact (Nat.zero_add _).symm
  · exact Nat.add_comm _ _

theorem nearest_zero (hi v : Nat) : nearest 0 hi v = min v hi := by
  unfold nearest
  rw [if_neg (Nat.not_lt_zero v)]
  split <;> omega

theorem clampTo_zero_snd (hi v : Nat) : (clampTo 0 hi v).2 = if hi < v then 1 else 0 := by
  unfold clampTo
  rw [if_neg (Nat.not_lt_zero v)]
  split <;> rfl

theorem ite_decide (p : Prop) [Decidable p] : (if decide p = true then 1 else 0) = if p then 1 else 0 := by
  simp

theorem readPorts_eq (v : Nat) : readPorts v = (if v = 0 then none else some (BitVec.ofNat 28 v), if 2 ^ 28 ≤ v then 1 else 0) := by
  unfold readPorts
  split
  next h => rw [if_neg (by omega)]
  next h =>
    refine Prod.ext rfl ?_
    by_cases large : 2 ^ 28 ≤ v
    · exact (if_neg (Nat.not_lt.2 large)).trans (if_pos large).symm
    · exact (if_pos (Nat.not_le.1 large)).trans (if_neg large).symm

theorem readVlan_eq (v : Nat) (h : v < 65536) :
    readVlan v = (if v = 0xFFFF then .any else if v = 0xFFFE then .untagged else .vid (nearest 1 4094 v),
      if v = 0 ∨ (4095 ≤ v ∧ v ≤ 0xFFFD) then 1 else 0) := by
  unfold readVlan
  by_cases any : v = 0xFFFF
  · rw [if_pos any, if_pos any, if_neg (by omega)]
  · by_cases untagged : v = 0xFFFE
    · rw [if_neg any, if_pos untagged, if_neg any, if_pos untagged, if_neg (by omega)]
    · rw [if_neg any, if_neg untagged, if_neg any, if_neg untagged, clampTo_fst]
      refine Prod.ext rfl ?_
      unfold clampTo
      dsimp only
      split
      · rw [if_pos (by omega)]
      · split
        · rw [if_pos (by omega)]
        · rw [if_neg (by omega)]

theorem readPrio_eq (v : Nat) (h : v < 256) :
    readPrio v = (if v = 0xFF then none else some (min v 7), if 8 ≤ v ∧ v ≤ 0xFE then 1 else 0) := by
  unfold readPrio
  by_cases any : v = 0xFF
  · rw [if_pos any, if_pos any, if_neg (by omega)]
  · rw [if_neg any, if_neg any, clampTo_fst, nearest_zero, clampTo_zero_snd]
    exact Prod.ext rfl (if_congr (by omega) rfl rfl)

theorem readLocalPort_eq (v : Nat) : ((readLocalPort v).1.map fun p => p.val) = (if v < 24 then some v else none)
    ∧ (readLocalPort v).2 = if 24 ≤ v ∧ v ≠ 255 then 1 else 0 := by
  unfold readLocalPort
  split
  next h => exact ⟨rfl, (if_neg (by omega)).symm⟩
  next h =>
    refine ⟨rfl, ?_⟩
    by_cases none : v = 255
    · rw [if_pos none, if_neg (by omega)]
    · rw [if_neg none, if_pos (by omega)]

/-! ## Links (R185) -/

/-- The source events in the order of their codes (Table 12-8). -/
def sourceList : List EventSource := [.portDown, .portUp, .portDegraded, .peerActive, .peerSevered, .peerLost,
  .isolationOn, .isolationOff, .restraintOn, .restraintOff, .tenantDenied, .diversionStart, .diversionEnd,
  .intervalClosed, .closeDeferred, .integrityFault]

theorem readSource_eq (n : Nat) : readSource n = if n = 0 then none else sourceList[n - 1]? := by
  by_cases known : n < 17
  · interval_cases n <;> rfl
  · have beyond : sourceList.length ≤ n - 1 := by
      show 16 ≤ n - 1
      omega
    rw [if_neg (by omega), List.getElem?_eq_none beyond]
    unfold readSource
    split <;> first | omega | rfl

/-- The number of qualifier values of a source code; 0 for a source without a qualifier (Table 11-2). -/
def qualifierTop (n : Nat) : Nat := if n ≤ 3 then 33 else if n ≤ 6 then 15 else 0

theorem qualifierRange_of_code {n : Nat} {x : EventSource} (h : readSource n = some x) :
    qualifierRange x = if qualifierTop n = 0 then none else some (qualifierTop n) := by
  have known : n < 17 := by
    by_contra beyond
    rw [readSource_eq, if_neg (by omega), List.getElem?_eq_none (show sourceList.length ≤ n - 1 by
      show 16 ≤ n - 1
      omega)] at h
    cases h
  interval_cases n <;> cases h <;> rfl

theorem readAction_eq (code param : Nat) : (readAction code param).map Prod.fst =
    (if code = 1 then some .sendLoad else if code = 2 then some .sendLink
      else if code = 3 then some .closeInterval
      else if code = 4 then some (.exportEvent (if param = 0 then 0 else 1))
      else if code = 5 then some (.markInterval ⟨min param 7, by omega⟩) else none) := by
  unfold readAction
  split
  next => rfl
  next => rfl
  next => rfl
  next =>
    refine congrArg (fun c => some (LinkAction.exportEvent c)) (Fin.ext ?_)
    by_cases zero : param = 0
    · rw [if_pos zero, zero]
      rfl
    · rw [if_neg zero]
      show min param 1 = 1
      omega
  next => rfl
  next n1 n2 n3 n4 n5 => rw [if_neg n1, if_neg n2, if_neg n3, if_neg n4, if_neg n5]; rfl

theorem readAction_clamps {code param : Nat} {a : Clamped LinkAction} (h : readAction code param = some a) :
    a.2 = if (code = 4 ∧ 1 < param) ∨ (code = 5 ∧ 7 < param) then 1 else 0 := by
  unfold readAction at h
  split at h <;> cases h
  · rfl
  · rfl
  · rfl
  · rw [clampTo_zero_snd]
    exact if_congr (by omega) rfl rfl
  · rw [clampTo_zero_snd]
    exact if_congr (by omega) rfl rfl

theorem endless_iff {x : EventSource} {a : LinkAction} :
    endless x a = true ↔ (x = .intervalClosed ∨ x = .closeDeferred) ∧ a = .closeInterval := by
  unfold endless
  rw [Bool.and_eq_true, Bool.or_eq_true, beq_iff_eq, beq_iff_eq, beq_iff_eq]

section

variable {e : List Byte} {x : EventSource} {c : Clamped LinkAction} (source : readSource (octetNat e 1) = some x)
  (action : readAction (octetNat e 3) (octetNat e 4) = some c)
include source action

theorem readLinkEntry_refused (q : readQualifier x (octetNat e 2) = none) : readLinkEntry e = (none, c.2 + 1) := by
  unfold readLinkEntry
  rw [source, action]
  dsimp only
  rw [q]

theorem readLinkEntry_endless {q : Clamped (Option Nat)} (qual : readQualifier x (octetNat e 2) = some q)
    (ends : endless x c.1 = true) : readLinkEntry e = (none, q.2 + c.2 + 1) := by
  unfold readLinkEntry
  rw [source, action]
  dsimp only
  rw [qual]
  exact if_pos ends

theorem readLinkEntry_kept {q : Clamped (Option Nat)} (qual : readQualifier x (octetNat e 2) = some q)
    (ends : ¬ endless x c.1 = true) : readLinkEntry e =
      (some { source := x, qual := q.1, action := c.1, holdOff := octetNat e 5 }, q.2 + c.2) := by
  unfold readLinkEntry
  rw [source, action]
  dsimp only
  rw [qual]
  exact if_neg ends

end

theorem readLinkEntry_unread {e : List Byte} (h : readSource (octetNat e 1) = none ∨ readAction (octetNat e 3) (octetNat e 4) = none) :
    readLinkEntry e = (none, 1) := by
  unfold readLinkEntry
  rcases h with h | h
  · rw [h]
  · rw [h]
    cases readSource (octetNat e 1) <;> rfl

theorem readQualifier_refused {n q : Nat} {x : EventSource} (source : readSource n = some x) (some : 0 < qualifierTop n)
    (beyond : qualifierTop n ≤ q) (named : q ≠ 255) : readQualifier x q = none := by
  unfold readQualifier
  rw [if_neg named, qualifierRange_of_code source, if_neg (by omega)]
  exact if_neg (by omega)

theorem qualifierTop_le (n : Nat) : qualifierTop n ≤ 33 := by
  unfold qualifierTop
  split
  · decide
  · split <;> decide

theorem readQualifier_taken {n q : Nat} {x : EventSource} (source : readSource n = some x)
    (fits : q < qualifierTop n ∨ q = 255 ∨ qualifierTop n = 0) : readQualifier x q =
      some (if q < qualifierTop n then some q else none, if qualifierTop n = 0 ∧ q ≠ 255 then 1 else 0) := by
  have top := qualifierTop_le n
  unfold readQualifier
  by_cases any : q = 255
  · rw [if_pos any, if_neg (by omega), if_neg (by omega)]
  · rw [if_neg any, qualifierRange_of_code source]
    by_cases bare : qualifierTop n = 0
    · rw [if_pos bare, if_neg (show ¬ q < qualifierTop n by omega), if_pos ⟨bare, any⟩]
    · have inside : q < qualifierTop n := by omega
      rw [if_neg bare, if_neg (show ¬ (qualifierTop n = 0 ∧ q ≠ 255) from fun h => bare h.1), if_pos inside]
      exact if_pos inside

end Sys2Proof.Machine
end


section
/-! What FAILSAFE takes from an image (R189), and the image's values as a whole (O48). -/

namespace Sys2Proof.Machine

/-! ## The directory of an inconsistent image -/

theorem directory_take (img : List Byte) : directory img = (sectionsOf img).take 8 := by
  unfold directory sectionsOf sectCount
  rw [← List.map_take, List.take_range, Nat.min_comm]
  exact List.map_congr_left fun i _ => readSect_eq img i

theorem entrySize_isNone (d : Sect) : (entrySize d.kind).isNone = decide (d.kind = 0 ∨ 8 < d.kind) := by
  obtain ⟨kind, count, offset, len⟩ := d
  dsimp only
  by_cases known : kind < 9
  · interval_cases kind <;> rfl
  · rw [decide_eq_true (by omega)]
    unfold entrySize
    split <;> first | omega | rfl

theorem unknownSects_eq (img : List Byte) :
    unknownSects img = (((sectionsOf img).take 8).filter fun d => decide (d.kind = 0 ∨ 8 < d.kind)).length := by
  unfold unknownSects
  rw [directory_take]
  exact congrArg List.length (List.filter_congr fun d _ => entrySize_isNone d)

theorem unknownSects_le (img : List Byte) : unknownSects img ≤ 8 := by
  rw [unknownSects_eq]
  refine (List.length_filter_le _ _).trans ?_
  rw [List.length_take]
  exact Nat.min_le_left _ _

/-- The section of a kind that lies within the length and was delivered (R189). -/
def placedSect (img : List Byte) (kind : Nat) : Option Sect :=
  (((sectionsOf img).take 8).find? fun d => d.kind == kind).filter fun d =>
    decide (fieldNat img 0 4 = 0x4E534349 ∧ d.offset + d.len ≤ fieldNat img 6 4 ∧ d.offset + d.len ≤ img.length)

theorem salvageSect_eq (img : List Byte) (kind : Nat) : salvageSect img kind = placedSect img kind := by
  unfold salvageSect placedSect sectOf
  rw [directory_take]
  by_cases marked : fieldNat img 0 4 = Config.imageMarker
  · have same : (fun d : Sect => decide (d.offset + d.len ≤ imageLength img) && decide (d.offset + d.len ≤ img.length)) =
        fun d => decide (fieldNat img 0 4 = 0x4E534349 ∧ d.offset + d.len ≤ fieldNat img 6 4 ∧ d.offset + d.len ≤ img.length) := by
      funext d
      rw [← Bool.decide_and]
      exact decide_eq_decide.2 (iff_and_self.2 fun _ => marked)
    rw [if_pos marked, same]
  · rw [if_neg marked]
    refine (Option.filter_eq_none_iff.2 fun d _ => ?_).symm
    rw [decide_eq_true_iff]
    exact fun h => marked h.1

theorem placedSect_kind {img : List Byte} {kind : Nat} {d : Sect} (h : placedSect img kind = some d) : d.kind = kind := by
  have found := (Option.filter_eq_some_iff.1 h).1
  simpa using List.find?_some found

theorem entriesAt_eq {img : List Byte} {n : Nat} {d : Sect} (h : entryOctets d.kind = n) : entriesAt img n d = entriesOf img d := by
  subst h
  rfl

/-! ## The STATION values (R189) -/

theorem takeParams_serial (pairs : List (List Byte)) (ids : List Nat) (p : Clamped Params) : takeParams pairs (1 :: ids) p =
    takeParams pairs ids ({ p.1 with
      serial := ((lastPair pairs 1).map fun v => BitVec.ofNat 32 v).getD p.1.serial }, p.2) := by
  conv_lhs => unfold takeParams
  cases lastPair pairs 1 <;> rfl

theorem takeParams_rate (pairs : List (List Byte)) (ids : List Nat) (p : Clamped Params) : takeParams pairs (2 :: ids) p =
    takeParams pairs ids ({ p.1 with
      bitRate := ((lastPair pairs 2).map fun v => (clampRate v).1).getD p.1.bitRate }, p.2 + pairClamps pairs 2) := by
  unfold pairClamps
  conv_lhs => unfold takeParams
  cases lastPair pairs 2 <;> rfl

theorem takeParams_hello (pairs : List (List Byte)) (ids : List Nat) (p : Clamped Params) : takeParams pairs (7 :: ids) p =
    takeParams pairs ids ({ p.1 with
      helloPeriod := ((lastPair pairs 7).map fun v => (clampTo 100 2000 v).1).getD p.1.helloPeriod },
      p.2 + pairClamps pairs 7) := by
  unfold pairClamps
  conv_lhs => unfold takeParams
  cases lastPair pairs 7 <;> rfl

theorem lastPair_filter {pairs : List (List Byte)} {f : List Byte → Bool} {id : Nat}
    (h : ∀ e ∈ pairs, octetNat e 0 = id → f e = true) : lastPair (pairs.filter f) id = lastPair pairs id := by
  unfold lastPair
  rw [List.filter_filter]
  refine congrArg (fun l : List (List Byte) => l.getLast?.map fun e => fieldNat e 1 4) (List.filter_congr fun e he => ?_)
  by_cases here : octetNat e 0 = id
  · rw [beq_iff_eq.2 here, h e he here]
    rfl
  · rw [show (octetNat e 0 == id) = false from beq_eq_false_iff_ne.2 here]
    rfl

theorem lastPair_none {pairs : List (List Byte)} {id : Nat} (h : ∀ e ∈ pairs, octetNat e 0 ≠ id) : lastPair pairs id = none := by
  unfold lastPair
  rw [List.filter_eq_nil_iff.2 fun e he => by simpa using h e he]
  rfl

/-- The pair is of serial, bit rate or hello period. -/
def salvagedPair (e : List Byte) : Bool := decide (octetNat e 0 = 1 ∨ octetNat e 0 = 2 ∨ octetNat e 0 = 7)

theorem salvage_values (pairs : List (List Byte)) :
    let q := readParams (pairs.filter salvagedPair)
    takeParams pairs [1, 2, 7] ({}, 0) =
      ({ serial := q.1.serial, bitRate := q.1.bitRate, helloPeriod := q.1.helloPeriod }, q.2) := by
  intro q
  obtain ⟨p, value, whole, clamps⟩ := readParams_eq (pairs.filter salvagedPair)
  have same {id : Nat} (h : id = 1 ∨ id = 2 ∨ id = 7) : lastPair (pairs.filter salvagedPair) id = lastPair pairs id :=
    lastPair_filter fun e _ here => decide_eq_true (by omega)
  have absent {id : Nat} (h : ¬ (id = 1 ∨ id = 2 ∨ id = 7)) : lastPair (pairs.filter salvagedPair) id = none :=
    lastPair_none fun e he here => h (by have := of_decide_eq_true (List.mem_filter.1 he).2; omega)
  have quiet {id : Nat} (h : ¬ (id = 1 ∨ id = 2 ∨ id = 7)) : pairClamps (pairs.filter salvagedPair) id = 0 := by
    unfold pairClamps
    rw [absent h]
    rfl
  have heard {id : Nat} (h : id = 1 ∨ id = 2 ∨ id = 7) : pairClamps (pairs.filter salvagedPair) id = pairClamps pairs id := by
    unfold pairClamps
    rw [same h]
  have serial := value (id := 1) (g := Params.serial) (c := fun v => BitVec.ofNat 32 v) (fun _ _ _ => rfl) (by decide)
  have rate := value (id := 2) (g := Params.bitRate) (c := fun v => (clampRate v).1) (fun _ _ _ => rfl) (by decide)
  have hello := value (id := 7) (g := Params.helloPeriod) (c := fun v => (clampTo 100 2000 v).1) (fun _ _ _ => rfl) (by decide)
  have on := value (id := 15) (g := Params.onLevel) (c := fun v => (clampTo 0 12288 v).1) (fun _ _ _ => rfl) (by decide)
  have off := value (id := 16) (g := Params.offLevel) (c := fun v => v) (fun _ _ _ => rfl) (by decide)
  rw [absent (by decide)] at on off
  rw [same (by decide)] at serial rate hello
  have unknown : (pairs.filter salvagedPair).filter (fun e => !paramIds.contains (octetNat e 0)) = [] :=
    List.filter_eq_nil_iff.2 fun e he => by
      have := of_decide_eq_true (List.mem_filter.1 he).2
      rw [contains_paramIds, decide_eq_true_iff]
      omega
  have unclamped : p.offLevel = nearest (p.onLevel + 256) 12544 p.offLevel := by
    rw [on, off]
    rfl
  have second : q.2 = pairClamps pairs 2 + pairClamps pairs 7 := by
    have one : pairClamps pairs 1 = 0 := by
      unfold pairClamps
      cases lastPair pairs 1 <;> rfl
    show (readParams _).2 = _
    rw [clamps, unknown, if_pos unclamped]
    unfold paramIds
    simp only [List.map_cons, List.map_nil, List.sum_cons, List.sum_nil, List.length_nil]
    rw [heard (id := 1) (by decide), heard (id := 2) (by decide), heard (id := 7) (by decide), one]
    simp [quiet]
  rw [takeParams_serial, takeParams_rate, takeParams_hello]
  refine Prod.ext ?_ ?_
  · show _ = ({ serial := q.1.serial, bitRate := q.1.bitRate, helloPeriod := q.1.helloPeriod } : Params)
    rw [show q.1 = _ from whole]
    dsimp only
    rw [serial, rate, hello]
    rfl
  · rw [second]
    exact congrArg (· + pairClamps pairs 7) (Nat.zero_add _)

/-! ## The collectors (R168) -/

theorem fillCollector_mem (e : List Byte) (s : State) (st : Station) : st ∈ (fillCollector e s).orders.collectors ↔
    st ∈ s.orders.collectors ∨ (st ≠ 15#4 ∧ st ≠ s.loader.station ∧ octetNat e 0 = st.toNat) := by
  unfold fillCollector
  dsimp only
  split
  next out =>
    refine (or_iff_left fun h => ?_).symm
    obtain ⟨all, own, same⟩ := h
    rcases out with high | here
    · exact all (BitVec.eq_of_toNat_eq (by have := st.isLt; simp; omega))
    · exact own (BitVec.eq_of_toNat_eq (by omega))
  next fits =>
    have named : (BitVec.ofNat 4 (octetNat e 0)).toNat = octetNat e 0 := by
      rw [BitVec.toNat_ofNat]
      exact Nat.mod_eq_of_lt (by omega)
    have this : st = BitVec.ofNat 4 (octetNat e 0) ↔ st ≠ 15#4 ∧ st ≠ s.loader.station ∧ octetNat e 0 = st.toNat := by
      constructor
      · rintro rfl
        refine ⟨fun h => ?_, fun h => ?_, named.symm⟩
        · have := congrArg BitVec.toNat h
          rw [named] at this
          simp at this
          omega
        · have := congrArg BitVec.toNat h
          omega
      · rintro ⟨-, -, same⟩
        exact BitVec.eq_of_toNat_eq (named.trans same).symm
    split
    next known =>
      refine (or_iff_left_of_imp fun h => ?_).symm
      rw [this.2 h]
      exact List.contains_iff_mem.1 known
    next => rw [List.mem_append, List.mem_singleton, this]

theorem fillCollector_nodup {e : List Byte} {s : State} (h : s.orders.collectors.Nodup) :
    (fillCollector e s).orders.collectors.Nodup := by
  unfold fillCollector
  dsimp only
  split
  · exact h
  · split
    · exact h
    next new =>
      refine List.Nodup.append h (List.nodup_singleton _) fun st old here => new ?_
      rw [List.mem_singleton.1 here] at old
      exact List.contains_iff_mem.2 old

theorem fillCollector_any (e : List Byte) (s : State) : (fillCollector e s).orders.anySource = s.orders.anySource := by
  unfold fillCollector
  dsimp only
  split
  · rfl
  · split <;> rfl

/-- The collector set after its entries. -/
theorem fillCollectors_orders (es : List (List Byte)) (s : State) (nodup : s.orders.collectors.Nodup) :
    (eachState fillCollector es s).orders.collectors.Nodup
      ∧ (eachState fillCollector es s).orders.anySource = s.orders.anySource
      ∧ ∀ st, st ∈ (eachState fillCollector es s).orders.collectors ↔ st ∈ s.orders.collectors ∨ s.collectorsOf es st := by
  induction es generalizing s with
  | nil => exact ⟨nodup, rfl, fun st => (or_iff_left fun h => by obtain ⟨-, -, e, he, -⟩ := h; cases he).symm⟩
  | cons e es ih =>
    have station : (fillCollector e s).loader.station = s.loader.station := (fillCollector_loads _ e rfl).station
    obtain ⟨nodup', any, mem⟩ := ih _ (fillCollector_nodup nodup)
    refine ⟨nodup', any.trans (fillCollector_any e s), fun st => ?_⟩
    rw [eachState, mem, fillCollector_mem]
    unfold State.collectorsOf
    rw [station, or_assoc]
    refine or_congr_right ?_
    simp only [List.exists_mem_cons_iff]
    tauto

theorem collectorClamps_eq (s : State) (es : List (List Byte)) :
    (es.map (collectorClamp s.loader.station)).sum = s.collectorClamps es := by
  unfold State.collectorClamps
  rw [length_filter_eq_sum]
  refine congrArg List.sum (List.map_congr_left fun e _ => ?_)
  unfold collectorClamp
  simp only [Bool.or_eq_true, decide_eq_true_iff, beq_iff_eq]

end Sys2Proof.Machine
end


section
/-! The image's values settled (O48). -/

namespace Sys2Proof.Machine

/-! ## FAILSAFE in full (R189) -/

/-- The station before the collectors of FAILSAFE are taken. -/
def salvagedBase (r : Nat) (img : List Byte) (s : State) : State :=
  addClamps ((salvageParams img).2 + if 5 ≤ r then unknownSects img else 0) { s with params := (salvageParams img).1 }

theorem salvagedBase_loads (r : Nat) (img : List Byte) (s : State) :
    Loads [.params] ((salvageParams img).2 + if 5 ≤ r then unknownSects img else 0) s (salvagedBase r img s) :=
  .addClamps (fun b hb => by cases b <;> first | rfl | simp at hb) (by decide) _

/-- The collector section that FAILSAFE takes, of at most four entries. -/
def placedCollectors (img : List Byte) : Option Sect := (placedSect img 8).filter fun d => decide (d.count ≤ 4)

/-- The entries of a section of a known kind, as many as count and length allow. -/
def namedEntries (img : List Byte) (d : Sect) : List (List Byte) := entriesOf img { d with count := min d.count d.len }

theorem salvageCollectors_none {img : List Byte} (h : placedCollectors img = none) (s : State) :
    salvageCollectors img s = { s with orders := { s.orders with anySource := true } } := by
  unfold salvageCollectors
  rw [salvageSect_eq, show Option.filter _ (placedSect img 8) = none from h]

theorem salvageCollectors_some {img : List Byte} {d : Sect} (h : placedCollectors img = some d) (s : State) :
    salvageCollectors img s = eachState fillCollector (namedEntries img d) s := by
  have kind : d.kind = 8 := placedSect_kind (Option.filter_eq_some_iff.1 h).1
  unfold salvageCollectors
  rw [salvageSect_eq, show Option.filter _ (placedSect img 8) = some d from h]
  exact congrArg (eachState fillCollector · s) (entriesAt_eq (d := { d with count := min d.count d.len })
    (show entryOctets d.kind = 1 by rw [kind]; rfl))

theorem salvageParams_some {img : List Byte} {d : Sect} (h : placedSect img 1 = some d) :
    let q := readParams ((entriesOf img { d with count := d.len / 5 }).filter salvagedPair)
    salvageParams img = ({ serial := q.1.serial, bitRate := q.1.bitRate, helloPeriod := q.1.helloPeriod }, q.2) := by
  intro q
  have kind : d.kind = 1 := placedSect_kind h
  unfold salvageParams
  rw [salvageSect_eq, h]
  dsimp only
  rw [entriesAt_eq (d := { d with count := d.len / 5 }) (show entryOctets d.kind = 5 by rw [kind]; rfl)]
  exact salvage_values _

theorem salvageParams_absent {img : List Byte} (h : placedSect img 1 = none) : salvageParams img = ({}, 0) :=
  salvageParams_none ((salvageSect_eq img 1).trans h)

/-- The three values count at most one clamp each. -/
theorem salvageParams_clamps_le (img : List Byte) : (salvageParams img).2 ≤ 2 := by
  have one (pairs : List (List Byte)) : pairClamps pairs 2 ≤ 1 ∧ pairClamps pairs 7 ≤ 1 := by
    unfold pairClamps
    constructor
    · cases lastPair pairs 2 with
      | none => exact Nat.zero_le _
      | some v =>
        show (clampRate v).2 ≤ 1
        rw [clampRate_snd]
        split <;> decide
    · cases lastPair pairs 7 with
      | none => exact Nat.zero_le _
      | some v =>
        show (clampTo 100 2000 v).2 ≤ 1
        rw [clampTo_snd]
        split <;> decide
  unfold salvageParams
  split
  · exact Nat.zero_le _
  · next d _ =>
    obtain ⟨rate, hello⟩ := one (entriesAt img 5 { d with count := d.len / 5 })
    rw [takeParams_serial, takeParams_rate, takeParams_hello]
    show 0 + _ + _ ≤ 2
    omega

/-- The clamps of the collectors that FAILSAFE takes. -/
def State.salvageClamps (s : State) (img : List Byte) : Nat :=
  ((placedSect img 8).map fun d => if d.count ≤ 4 then s.collectorClamps (namedEntries img d) else 0).getD 0

theorem salvageCollectors_clamps (img : List Byte) (s : State) :
    Loads [.orders] (s.salvageClamps img) s (salvageCollectors img s) ∧ s.salvageClamps img ≤ 4 := by
  unfold State.salvageClamps
  have none (h : placedCollectors img = none) : Loads [.orders] 0 s (salvageCollectors img s) := by
    rw [salvageCollectors_none h]
    exact .of_frame (fun b hb => by cases b <;> first | rfl | simp at hb) (by decide)
  cases found : placedSect img 8 with
  | none => exact ⟨none (by rw [placedCollectors, found]; rfl), Nat.zero_le _⟩
  | some d =>
    rw [Option.map_some, Option.getD_some]
    by_cases few : d.count ≤ 4
    · have placed : placedCollectors img = some d := by
        rw [placedCollectors, found]
        exact if_pos (decide_eq_true few)
      rw [if_pos few, salvageCollectors_some placed, ← collectorClamps_eq]
      refine ⟨fillCollectors_loads _ _ rfl, ?_⟩
      rw [collectorClamps_eq]
      refine (List.length_filter_le _ _).trans ?_
      unfold namedEntries entriesOf
      rw [List.length_map, List.length_range]
      exact (Nat.min_le_left _ _).trans few
    · rw [if_neg few]
      refine ⟨none ?_, Nat.zero_le _⟩
      rw [placedCollectors, found]
      exact if_neg (by rw [decide_eq_true_iff]; exact few)

theorem exec_load_faulty {s : State} {img : List Byte} {r : Nat} (loading : s.loader.phase = .loading)
    (fault : structuralFault s.loader.station img = some r) :
    exec (.imageLoadComplete img) s = .next (enterFailsafe r img s) := by
  rw [exec_imageLoadComplete, completeLoad_faulty loading fault]
  exact done_of _

/-- Settles O48: each value where it is read, and what FAILSAFE takes. -/
theorem imageValuesAreClamped : Obligations.ImageValuesAreClamped := by
  unfold Obligations.ImageValuesAreClamped
  refine ⟨fun pairs => ?_, fun e => ?_, fun e => ?_, fun e => ?_, fun c => ?_, fun r e f x => ⟨rfl, rfl, rfl, rfl⟩, fun e => ?_,
    fun s img r loading fault => ?_⟩
  · intro given q rates far ranges
    obtain ⟨serial, rate, deep, sample, rows, off, clamps⟩ := readParams_values pairs
    refine ⟨?_, ?_, fun none => ?_, fun v some => ?_, ?_, sample, fun r hr => (rows r hr).1, off, clamps⟩
    · show q.serial.toNat = (lastPair pairs 1).getD 0
      rw [serial]
      cases found : lastPair pairs 1 with
      | none => rfl
      | some v =>
        obtain ⟨e, -, rfl⟩ := Option.map_eq_some_iff.1 found
        exact Nat.mod_eq_of_lt (fieldNat_lt e 1 4)
    · rw [rate]
      cases lastPair pairs 2 with
      | none => exact List.mem_cons_self
      | some v => exact clampRate_mem v
    · rw [rate, show lastPair pairs 2 = Option.none from none]
      rfl
    · rw [rate, show lastPair pairs 2 = Option.some v from some]
      exact clampRate_nearest v
    · rw [deep]
      show _ = (lastPair pairs 3).any _
      cases lastPair pairs 3 <;> rfl
  · intro set vlan r
    have vlan' : vlan < 65536 := fieldNat_lt e 5 2
    have prio := octetNat_lt e 7
    have clamps : (readRule e).2 = (readPorts set).2 + (readVlan vlan).2 + (readPrio (octetNat e 7)).2
      + (clampTo 0 1 (octetNat e 8)).2 + (clampTo 0 3 (octetNat e 12)).2 + (clampTo 0 3 (octetNat e 13)).2 := rfl
    refine ⟨congrArg Prod.fst (readPorts_eq set), congrArg Prod.fst (readVlan_eq vlan vlan'),
      congrArg Prod.fst (readPrio_eq _ prio), rfl, rfl, rfl, rfl, rfl, rfl, ?_⟩
    rw [clamps, readPorts_eq, readVlan_eq vlan vlan', readPrio_eq _ prio, clampTo_zero_snd, clampTo_zero_snd, clampTo_zero_snd]
    simp only [length_filter_id_cons, ite_decide, List.filter_nil, List.length_nil, Nat.add_zero, Nat.add_assoc]
    rfl
  · intro r
    have quota : r.quota = min (fieldNat e 9 2) 12288 := (clampTo_fst 0 12288 _).trans (nearest_zero _ _)
    have tariff (n : Nat) : (clampTo 0 15 n).1 = min n 15 := (clampTo_fst 0 15 n).trans (nearest_zero _ _)
    have clamps : (readTenantEntry e).2 = (clampTo 0 12288 (fieldNat e 9 2)).2 + (clampTo 0 15 (octetNat e 11)).2
      + (clampTo 0 15 (octetNat e 12)).2 + (clampTo 0 15 (octetNat e 13)).2 + (clampTo 0 15 (octetNat e 14)).2 := rfl
    refine ⟨rfl, rfl, quota, fun b => ?_, rfl, rfl, rfl, ?_⟩
    · fin_cases b <;> exact tariff _
    · rw [clamps]
      simp only [clampTo_zero_snd, length_filter_id_cons, ite_decide, List.filter_nil, List.length_nil, Nat.add_zero,
        Nat.add_assoc]
  · intro f port
    obtain ⟨value, clamps⟩ := readLocalPort_eq port
    exact ⟨rfl, rfl, rfl, rfl, value, clamps⟩
  · unfold EntryCheck.good
    rw [beq_iff_eq]
  · intro sources action source q top lowered
    have sourceEq : readSource (octetNat e 1) = source := readSource_eq _
    have actionEq : (readAction (octetNat e 3) (octetNat e 4)).map Prod.fst = action := readAction_eq _ _
    refine ⟨fun unread => readLinkEntry_unread (unread.imp sourceEq.trans fun none => ?_), fun x a hx ha => ?_⟩
    · rw [none] at actionEq
      exact Option.map_eq_none_iff.1 actionEq
    · have read : readSource (octetNat e 1) = some x := sourceEq.trans hx
      obtain ⟨c, acts, rfl⟩ := Option.map_eq_some_iff.1 (actionEq.trans ha)
      have lower : c.2 = lowered := readAction_clamps acts
      refine ⟨fun some beyond named => ?_, fun fits => ?_⟩
      · rw [readLinkEntry_refused read acts (readQualifier_refused read some beyond named), lower]
      · intro dropped
        have taken := readQualifier_taken read fits
        refine ⟨fun closes again => ?_, fun ends => ?_⟩
        · rw [readLinkEntry_endless read acts taken (endless_iff.2 ⟨closes, again⟩), lower]
          rfl
        · rw [readLinkEntry_kept read acts taken (mt endless_iff.1 ends), lower]
          rfl
  · intro placed known named unknown
    have ends := exec_load_faulty loading fault
    rw [enterFailsafe_eq] at ends
    have frame := failsafeFrom_frame r (salvaged r img s)
    have base := salvagedBase_loads r img s
    have station : (salvagedBase r img s).loader.station = s.loader.station := base.station
    obtain ⟨collected, few⟩ := salvageCollectors_clamps img (salvagedBase r img s)
    have params : (failsafeFrom r (salvaged r img s)).params = (salvageParams img).1 :=
      (frame.params (by decide)).trans (collected.frame.params (by decide))
    have orders : (failsafeFrom r (salvaged r img s)).orders = (salvaged r img s).orders := frame.orders (by decide)
    refine ⟨_, ends, fun none => ?_, fun d hd => ?_, fun zero => ?_, fun many => ?_, fun d hd count empty => ?_⟩
    · rw [params, salvageParams_absent none]
    · rw [params, salvageParams_some hd]
      rfl
    · have values : ((placed 1).map fun d => (readParams (known d)).2).getD 0 = (salvageParams img).2 := by
        show ((placedSect img 1).map fun d => (readParams (known d)).2).getD 0 = _
        cases found : placedSect img 1 with
        | none =>
          rw [salvageParams_absent found]
          rfl
        | some d =>
          rw [salvageParams_some found]
          rfl
      have stations (es : List (List Byte)) : (salvagedBase r img s).collectorClamps es = s.collectorClamps es := by
        unfold State.collectorClamps
        rw [station]
      have collectors : ((placed 8).map fun d => if d.count ≤ 4 then s.collectorClamps (named d) else 0).getD 0 =
          (salvagedBase r img s).salvageClamps img := by
        unfold State.salvageClamps
        simp only [stations]
        rfl
      have sections : unknown.length = unknownSects img := (unknownSects_eq img).symm
      have total := collected.clamps
      have first := base.clamps
      have two := salvageParams_clamps_le img
      have eight := unknownSects_le img
      rw [values, collectors, sections, failsafeFrom_loader]
      show (salvageCollectors img (salvagedBase r img s)).loader.clamps.toNat = _
      rw [zero] at first
      have none : (0 : Count).toNat = 0 := rfl
      by_cases late : 5 ≤ r
      · rw [if_pos late] at first ⊢
        omega
      · rw [if_neg late] at first ⊢
        omega
    · have none : placedCollectors img = none := Option.filter_eq_none_iff.2 fun d hd => by
        rw [decide_eq_true_iff]
        exact Nat.not_le.2 (many d hd)
      rw [orders]
      unfold salvaged
      rw [salvageCollectors_none none]
      rfl
    · have placed : placedCollectors img = some d := by
        rw [placedCollectors, show placedSect img 8 = some d from hd]
        exact if_pos (decide_eq_true count)
      have empty' : (salvagedBase r img s).orders.collectors = [] := empty
      obtain ⟨nodup, any, mem⟩ := fillCollectors_orders (namedEntries img d) (salvagedBase r img s) (by rw [empty']; exact List.nodup_nil)
      rw [orders, show salvaged r img s = _ from salvageCollectors_some placed (salvagedBase r img s)]
      refine ⟨any, nodup, fun st => (mem st).trans ?_⟩
      rw [empty']
      exact or_iff_right List.not_mem_nil

end Sys2Proof.Machine
end


section
/-! What a sound image leaves in the tables that are filled entry by entry (O47): of two entries for one place the later
stands (log entry 22), and every entry passes the check that came with it. -/

namespace Sys2Proof.Machine

/-! ## A sound image -/

/-- What the absence of a structural fault says of strap, directory and sections (R189). -/
theorem sound_image {strap : Station} {img : List Byte} (h : structuralFault strap img = none) :
    strap ≠ 15#4 ∧ octetNat img 10 ≤ 8 ∧ ∀ d ∈ knownSects img, overfull img d = false ∧ badEntries img d = false := by
  unfold structuralFault at h
  dsimp only at h
  have next {c : Prop} [Decidable c] {n : Nat} {x : Option Nat} (k : (if c then some n else x) = none) : ¬ c ∧ x = none := by
    by_cases yes : c
    · rw [if_pos yes] at k
      cases k
    · rw [if_neg yes] at k
      exact ⟨yes, k⟩
  obtain ⟨strapped, h⟩ := next h
  obtain ⟨-, h⟩ := next h
  obtain ⟨-, h⟩ := next h
  obtain ⟨lengths, h⟩ := next h
  obtain ⟨-, h⟩ := next h
  obtain ⟨-, h⟩ := next h
  obtain ⟨fits, h⟩ := next h
  obtain ⟨checks, -⟩ := next h
  refine ⟨strapped, ?_, fun d hd => ⟨?_, ?_⟩⟩
  · have : ¬ 8 < sectCount img := fun k => lengths (.inr (.inr (.inl k)))
    exact Nat.not_lt.1 this
  · exact Bool.eq_false_of_not_eq_true fun k => fits (List.any_eq_true.2 ⟨d, hd, k⟩)
  · exact Bool.eq_false_of_not_eq_true fun k => checks (List.any_eq_true.2 ⟨d, hd, k⟩)

section

variable {strap : Station} {img : List Byte} (h : structuralFault strap img = none)
include h

theorem sectionEntries_eq {k n : Nat} (size : entryOctets k = n) : sectionEntries img k n = entriesOfKind img k := by
  obtain ⟨-, few, -⟩ := sound_image h
  unfold sectionEntries entriesOfKind sectOf
  rw [directory_eq few]
  cases found : (sectionsOf img).find? fun d => d.kind == k with
  | none => rfl
  | some d =>
    have kind : d.kind = k := by simpa using List.find?_some found
    exact entriesAt_eq (by rw [kind, size])

theorem unknownSects_sound :
    unknownSects img = ((sectionsOf img).filter fun d => decide (d.kind = 0 ∨ 8 < d.kind)).length := by
  obtain ⟨-, few, -⟩ := sound_image h
  unfold unknownSects
  rw [directory_eq few]
  exact congrArg List.length (List.filter_congr fun d _ => entrySize_isNone d)

/-- The section of a known kind is neither overfull nor corrupt. -/
theorem section_sound {k : Nat} (known : 1 ≤ k ∧ k ≤ 8) {e : List Byte} (he : e ∈ entriesOfKind img k) :
    ∃ d, d.kind = k ∧ entriesOfKind img k = entriesOf img d ∧ ¬ sectionOverfull img d ∧ ¬ sectionCorrupt img d := by
  obtain ⟨-, few, sound⟩ := sound_image h
  unfold entriesOfKind at he ⊢
  cases found : (sectionsOf img).find? fun d => d.kind == k with
  | none =>
    rw [found] at he
    cases he
  | some d =>
    have kind : d.kind = k := by simpa using List.find?_some found
    have isKnown : d.Known := by
      unfold Sect.Known
      rw [kind]
      exact known
    have mem : d ∈ knownSects img := by
      rw [knownSects_eq few]
      exact List.mem_filter.2 ⟨List.mem_of_find?_eq_some found, decide_eq_true isKnown⟩
    obtain ⟨fits, checks⟩ := sound d mem
    refine ⟨d, kind, rfl, fun tooMany => ?_, fun corrupt => ?_⟩
    · rw [(overfull_iff isKnown).2 tooMany] at fits
      cases fits
    · rw [(badEntries_iff isKnown).2 corrupt] at checks
      cases checks

/-- An entry of a checked section comes with the check of its other octets. -/
theorem entry_checked {k n : Nat} (size : entryOctets k = n + 2) (kind : k = 3 ∨ k = 4 ∨ k = 5 ∨ k = 6) {e : List Byte}
    (he : e ∈ entriesOfKind img k) : (storedCheck n e).good = true := by
  obtain ⟨d, rfl, same, -, sound⟩ := section_sound h (by omega) he
  rw [same] at he
  have good : e.length = entryOctets d.kind
      ∧ fieldNat e (entryOctets d.kind - 2) 2 = crc16 (e.take (entryOctets d.kind - 2)) := by
    by_contra bad
    exact sound ⟨kind, e, he, bad⟩
  rw [size] at good
  exact (storedCheck_good n e).2 good.2

theorem fixedEntries_few : (entriesOfKind img 6).length ≤ 256 := by
  cases found : entriesOfKind img 6 with
  | nil => exact Nat.zero_le _
  | cons e es =>
    have mem : e ∈ entriesOfKind img 6 := by
      rw [found]
      exact List.mem_cons_self
    obtain ⟨d, kind, same, fits, -⟩ := section_sound h (by decide) mem
    rw [← found, same]
    unfold entriesOf
    rw [List.length_map, List.length_range]
    exact Nat.not_lt.1 fun tooMany => fits (.inr (.inr (.inr (.inl ⟨kind, tooMany⟩))))

end

/-! ## The last entry for a place (log entry 22) -/

/-- What an operation over entries leaves at a place that an entry of its number sets, or leaves alone. -/
theorem eachState_last {β : Type} {n : Nat} {inv : State → Prop} {look : State → β} {val : List Byte → Option β}
    {f : List Byte → State → State}
    (step : ∀ e s, inv s → inv (f e s) ∧ look (f e s) = if octetNat e 0 = n then (val e).getD (look s) else look s)
    (es : List (List Byte)) {s : State} (h : inv s) : inv (eachState f es s)
      ∧ look (eachState f es s) = (((es.filter fun e => octetNat e 0 == n).filterMap val).getLast?).getD (look s) := by
  induction es generalizing s with
  | nil => exact ⟨h, rfl⟩
  | cons e es ih =>
    obtain ⟨kept, here⟩ := step e s h
    obtain ⟨kept', rest⟩ := ih kept
    refine ⟨kept', rest.trans ?_⟩
    rw [here]
    by_cases mine : octetNat e 0 = n
    · rw [if_pos mine, List.filter_cons_of_pos (by simpa using mine)]
      cases set : val e with
      | none =>
        rw [List.filterMap_cons_none set]
        rfl
      | some v =>
        rw [List.filterMap_cons_some set]
        cases (es.filter fun e => octetNat e 0 == n).filterMap val with
        | nil => rfl
        | cons x l =>
          rw [List.getLast?_cons_cons, List.getLast?_cons, Option.getD_some, Option.getD_some]
    · rw [if_neg mine, List.filter_cons_of_neg (by simpa using mine)]

/-- The same where every entry sets its place. -/
theorem eachState_lastOf {β : Type} {n : Nat} {inv : State → Prop} {look : State → β} {val : List Byte → β}
    {f : List Byte → State → State}
    (step : ∀ e s, inv s → inv (f e s) ∧ look (f e s) = if octetNat e 0 = n then val e else look s)
    (es : List (List Byte)) {s : State} (h : inv s) : look (eachState f es s) = ((lastOf es n).map val).getD (look s) := by
  have each : (fun e => some (val e)) = some ∘ val := rfl
  rw [(eachState_last (val := fun e => some (val e)) step es h).2, each, List.filterMap_eq_map, List.getLast?_map]
  rfl

theorem mapFind_insert_if {α : Type} (m : List (Nat × α)) (k n : Nat) (x : α) :
    mapFind (mapInsert m k x) n = if k = n then some x else mapFind m n := by
  split
  next same => rw [same, mapFind_mapInsert]
  next other => exact mapFind_mapInsert_ne m (Ne.symm other) x

theorem fillRules_find (es : List (List Byte)) (s : State) (n : Nat) : mapFind (eachState fillRule es s).rules n =
    ((lastOf es n).map fun e => (readRule e).1).or (mapFind s.rules n) := by
  rw [eachState_lastOf (inv := fun _ => True) (look := fun t => mapFind t.rules n) (val := fun e => some (readRule e).1)
    (fun e t _ => ⟨trivial, mapFind_insert_if t.rules _ n _⟩) es trivial]
  cases lastOf es n <;> rfl

theorem fillTenants_find (es : List (List Byte)) (s : State) (n : Nat) : mapFind (eachState fillTenant es s).tenants n =
    ((lastOf es n).map fun e => (readTenantEntry e).1).or (mapFind s.tenants n) := by
  rw [eachState_lastOf (inv := fun _ => True) (look := fun t => mapFind t.tenants n) (val := fun e => some (readTenantEntry e).1)
    (fun e t _ => ⟨trivial, mapFind_insert_if t.tenants _ n _⟩) es trivial]
  cases lastOf es n <;> rfl

theorem mapGet_set_if {α : Type} [DecidableEq α] {d : α} {m : List (Nat × α)} (wf : mapWf m = true) (k n : Nat) (x : α) :
    mapGet d (mapSet d m k x) n = if k = n then x else mapGet d m n := by
  split
  next same => rw [same, mapGet_mapSet wf]
  next other => exact mapGet_mapSet_ne m (Ne.symm other) x

theorem fillTenants_setting (es : List (List Byte)) {s : State} (wf : mapWf s.restraint.settings = true) (x : Tenant) :
    (eachState fillTenant es s).setting x =
      ((lastOf es x.toNat).map fun e => settingOf x.toNat (readTenantEntry e).1).getD (s.setting x) := by
  refine eachState_lastOf (inv := fun t => mapWf t.restraint.settings = true) (look := fun t => t.setting x)
    (fun e t h => ⟨mapSet_wf h _ _, ?_⟩) es wf
  refine (mapGet_set_if h _ _ _).trans ?_
  split
  next same => rw [same]
  next => rfl

theorem fillTariffs_tariff (es : List (List Byte)) {s : State} (wf : mapWf s.tariffs = true) (n : Nat) :
    (eachState fillTariff es s).tariff n = ((lastOf es n).map readTariffEntry).getD (s.tariff n) :=
  eachState_lastOf (f := fillTariff) (val := readTariffEntry) (inv := fun t => mapWf t.tariffs = true)
    (look := fun t => t.tariff n)
    (fun e _ h => ⟨mapSet_wf h _ _, (mapGet_set_if h (octetNat e 0) n (readTariffEntry e) :)⟩) es wf

theorem fillLinks_find (es : List (List Byte)) (s : State) (n : Nat) : mapFind (eachState fillLink es s).links n =
    (((es.filter fun e => octetNat e 0 == n).filterMap fun e => (readLinkEntry e).1).getLast?).or (mapFind s.links n) := by
  have each (e : List Byte) (t : State) : mapFind (fillLink e t).links n =
      if octetNat e 0 = n then ((readLinkEntry e).1.map some).getD (mapFind t.links n) else mapFind t.links n := by
    unfold fillLink
    cases (readLinkEntry e).1 with
    | none => exact (ite_self _).symm
    | some l => exact mapFind_insert_if t.links _ n l
  rw [(eachState_last (inv := fun _ => True) (look := fun t => mapFind t.links n) (val := fun e => (readLinkEntry e).1.map some)
    (fun e t _ => ⟨trivial, each e t⟩) es trivial).2]
  rw [← List.map_filterMap, List.getLast?_map]
  cases ((es.filter fun e => octetNat e 0 == n).filterMap fun e => (readLinkEntry e).1).getLast? <;> rfl

theorem fillPorts_bond (es : List (List Byte)) (s : State) (p : Port) : ((eachState fillPort es s).port p).bond =
    if p.val < 24 then ((lastOf es p.val).map fun e => if octetNat e 1 = 0 then none else some (min (octetNat e 1) 63)).getD
      (s.port p).bond
    else (s.port p).bond := by
  have bond (u : PortUnit) (e : List Byte) : (u.bonded e).bond = if octetNat e 1 = 0 then none else some (min (octetNat e 1) 63) := by
    unfold PortUnit.bonded
    rw [clampTo_fst, nearest_zero]
    exact if_congr (by omega) rfl rfl
  by_cases edge : p.val < 24
  · rw [if_pos edge]
    refine eachState_lastOf (inv := fun _ => True) (look := fun t => (t.port p).bond) (fun e t _ => ⟨trivial, ?_⟩) es trivial
    rw [fillPort_port, apply_ite PortUnit.bond, bond]
    exact if_congr (and_iff_left edge) rfl rfl
  · rw [if_neg edge]
    induction es generalizing s with
    | nil => rfl
    | cons e es ih =>
      rw [eachState, ih, fillPort_port, if_neg fun h => edge h.2]

/-- A property that every entry written keeps. -/
theorem eachState_keeps {α : Type} {P : State → Prop} {f : α → State → State} {as : List α}
    (step : ∀ a ∈ as, ∀ s, P s → P (f a s)) {s : State} (h : P s) : P (eachState f as s) := by
  induction as generalizing s with
  | nil => exact h
  | cons a as ih =>
    exact ih (fun b hb => step b (List.mem_cons_of_mem _ hb)) (step a List.mem_cons_self s h)

end Sys2Proof.Machine
end


section
/-! The FIXED entries of a sound image (O47, R22): which of them the loader keeps, where they stand in the table, and the JOINs
that wait for them. -/

namespace Sys2Proof.Machine

/-! ## Entries that the loader keeps -/

/-- The bucket of a fixed entry. -/
abbrev FixedCfg.bucket (f : FixedCfg) : Nat := bucketOf f.tenant f.addr

/-- The key of a numbered fixed entry. -/
abbrev fixedKey (x : Nat × FixedCfg) : Tenant × Addr := (x.2.tenant, x.2.addr)

/-- The fixed entry is discarded: its key is kept already, or its bucket holds four (R22). -/
def discards (kept : List (Nat × FixedCfg)) (f : FixedCfg) : Bool :=
  (kept.any fun y => y.2.tenant == f.tenant && y.2.addr == f.addr)
    || decide (4 ≤ (kept.filter fun y => y.2.bucket == f.bucket).length)

/-- The kept fixed entries after one more. -/
def keepStep (kept : List (Nat × FixedCfg)) (x : Nat × FixedCfg) : List (Nat × FixedCfg) :=
  if discards kept x.2 then kept else kept ++ [x]

theorem keptFixed_eq (fs : List (Nat × FixedCfg)) : keptFixed fs = fs.foldl keepStep [] := rfl

/-- The fixed entries of some image octets, numbered from `n` on. -/
def fixedFrom (n : Nat) (es : List (List Byte)) : List (Nat × FixedCfg) :=
  (es.zipIdx n).map fun x => (x.2, (readFixedEntry x.1).1)

theorem fixedOf_eq (img : List Byte) : fixedOf img = fixedFrom 0 (entriesOfKind img 6) := rfl

theorem fixedFrom_cons (n : Nat) (e : List Byte) (es : List (List Byte)) :
    fixedFrom n (e :: es) = (n, (readFixedEntry e).1) :: fixedFrom (n + 1) es := rfl

theorem fixedFrom_length (n : Nat) (es : List (List Byte)) : (fixedFrom n es).length = es.length := by
  unfold fixedFrom
  rw [List.length_map, List.length_zipIdx]

/-! ## Writing at a new place -/

theorem mapInsert_above {α : Type} {m : List (Nat × α)} {n : Nat} (h : ∀ x ∈ m, x.1 < n) (v : α) :
    mapInsert m n v = m ++ [(n, v)] := by
  induction m with
  | nil => rfl
  | cons y m ih =>
    have lt := h y List.mem_cons_self
    rw [mapInsert, if_neg (by omega), if_neg (by omega), ih fun x hx => h x (List.mem_cons_of_mem _ hx)]
    rfl

theorem mapInsert_length_new {α : Type} {m : List (Nat × α)} {n : Nat} (h : mapFind m n = none) (v : α) :
    (mapInsert m n v).length = m.length + 1 := by
  induction m with
  | nil => rfl
  | cons y m ih =>
    obtain ⟨k, w⟩ := y
    have ne : k ≠ n := fun same => by simp [mapFind, same] at h
    rw [mapFind, if_neg ne] at h
    rw [mapInsert]
    split
    · rfl
    · rw [if_neg (Ne.symm ne), List.length_cons, ih h, List.length_cons]

/-- The slots of a bucket that are occupied. -/
def occupied (m : List (Nat × FwdEntry)) (b : Nat) : Nat := (bucketSlots b).countP fun i => (mapFind m i).isSome

theorem occupied_insert {m : List (Nat × FwdEntry)} {i : Nat} (free : mapFind m i = none) (e : FwdEntry) (b : Nat) :
    occupied (mapInsert m i e) b = occupied m b + if i / 4 = b then 1 else 0 := by
  have slot (j : Nat) : (mapFind (mapInsert m i e) j).isSome = if j = i then true else (mapFind m j).isSome := by
    split
    next same => rw [same, mapFind_mapInsert]; rfl
    next other => rw [mapFind_mapInsert_ne m other]
  have here : (mapFind m i).isSome = false := by rw [free]; rfl
  unfold occupied bucketSlots
  simp only [List.countP_cons, List.countP_nil, slot]
  by_cases mine : i / 4 = b
  · have place : i = 4 * b ∨ i = 4 * b + 1 ∨ i = 4 * b + 2 ∨ i = 4 * b + 3 := by omega
    rw [if_pos mine]
    rcases place with rfl | rfl | rfl | rfl <;> simp [here] <;> omega
  · have other : ¬ 4 * b = i ∧ ¬ 4 * b + 1 = i ∧ ¬ 4 * b + 2 = i ∧ ¬ 4 * b + 3 = i := by omega
    simp only [other, mine, if_false, Nat.add_zero]

theorem occupied_full_iff {m : List (Nat × FwdEntry)} {b : Nat} : 4 ≤ occupied m b ↔ freeSlot m b = none := by
  have most : occupied m b ≤ 4 := List.countP_le_length
  rw [freeSlot_eq_none_iff]
  have all : (∀ i ∈ bucketSlots b, (mapFind m i).isSome = true) ↔ occupied m b = 4 := List.countP_eq_length.symm
  rw [all]
  omega

/-! ## The table as the fixed entries leave it -/

/-- The table holds the kept fixed entries and nothing else; their numbers lie below `n`. -/
structure Held (kept : List (Nat × FixedCfg)) (n : Nat) (s : State) : Prop where
  fixed : s.fixed = kept
  below : ∀ x ∈ kept, x.1 < n
  once : (kept.map fixedKey).Nodup
  wf : mapWf s.fwd.table = true
  entries : ∀ {i e}, mapFind s.fwd.table i = some e → ∃ x ∈ kept, i / 4 = x.2.bucket ∧ e = fixedEntry x.1 x.2
  stands : ∀ x ∈ kept, ∃ i, i / 4 = x.2.bucket ∧ mapFind s.fwd.table i = some (fixedEntry x.1 x.2)
  size : s.fwd.table.length = kept.length
  buckets : ∀ b, (kept.filter fun y => y.2.bucket == b).length = occupied s.fwd.table b

namespace Held

variable {kept : List (Nat × FixedCfg)} {n : Nat} {s t : State}

theorem start (fixed : s.fixed = []) (table : s.fwd.table = []) : Held [] n s where
  fixed := fixed
  below := by simp
  once := by simp
  wf := by rw [table]; rfl
  entries := by simp [table, mapFind]
  stands := by simp
  size := by rw [table]; rfl
  buckets := by simp [table, occupied, mapFind]

theorem mono (h : Held kept n s) {m : Nat} (le : n ≤ m) (fixed : t.fixed = s.fixed) (table : t.fwd.table = s.fwd.table) :
    Held kept m t where
  fixed := fixed.trans h.fixed
  below x hx := (h.below x hx).trans_le le
  once := h.once
  wf := table ▸ h.wf
  entries := table ▸ h.entries
  stands := table ▸ h.stands
  size := table ▸ h.size
  buckets := table ▸ h.buckets

theorem known_iff (h : Held kept n s) (f : FixedCfg) :
    (keyIndex s.fwd.table f.tenant f.addr).isSome = true ↔ ∃ x ∈ kept, x.2.tenant = f.tenant ∧ x.2.addr = f.addr := by
  constructor
  · intro known
    obtain ⟨i, hi⟩ := Option.isSome_iff_exists.1 known
    obtain ⟨-, e, he, tenant, addr⟩ := entry_of_keyIndex hi
    obtain ⟨x, hx, -, rfl⟩ := h.entries he
    exact ⟨x, hx, tenant, addr⟩
  · rintro ⟨x, hx, tenant, addr⟩
    obtain ⟨i, hi, he⟩ := h.stands x hx
    by_contra unknown
    rw [FixedCfg.bucket, tenant, addr] at hi
    exact not_key_of_keyIndex (Option.not_isSome_iff_eq_none.1 unknown) hi he ⟨tenant, addr⟩

theorem noRoom_iff (h : Held kept n s) (f : FixedCfg) : s.noRoomFor f ↔ discards kept f = true := by
  unfold State.noRoomFor discards
  rw [h.known_iff, h.buckets, Bool.or_eq_true, decide_eq_true_eq, occupied_full_iff, List.any_eq_true]
  refine or_congr ?_ Iff.rfl
  simp

/-- One more entry, kept at a free slot of its bucket. -/
theorem keep (h : Held kept n s) {f : FixedCfg} {i : Nat} (absent : keyIndex s.fwd.table f.tenant f.addr = none)
    (free : freeSlot s.fwd.table f.bucket = some i) (fixed : t.fixed = mapInsert s.fixed n f)
    (table : t.fwd.table = mapInsert s.fwd.table i (fixedEntry n f)) : Held (kept ++ [(n, f)]) (n + 1) t := by
  obtain ⟨mine, empty⟩ := freeSlot_eq_some free
  refine ⟨?_, ?_, ?_, ?_, fun {j e} hj => ?_, ?_, ?_, fun b => ?_⟩
  · rw [fixed, h.fixed, mapInsert_above h.below]
  · intro x hx
    rcases List.mem_append.1 hx with hx | hx
    · exact (h.below x hx).trans (Nat.lt_succ_self n)
    · rw [List.mem_singleton.1 hx]
      exact Nat.lt_succ_self n
  · rw [List.map_append]
    refine List.nodup_append'.2 ⟨h.once, List.nodup_singleton _, fun key old new => ?_⟩
    rw [List.map_singleton, List.mem_singleton] at new
    obtain ⟨x, hx, same⟩ := List.mem_map.1 old
    rw [new] at same
    have known : (keyIndex s.fwd.table f.tenant f.addr).isSome = true :=
      (h.known_iff f).2 ⟨x, hx, congrArg Prod.fst same, congrArg Prod.snd same⟩
    rw [absent] at known
    cases known
  · rw [table]
    exact mapInsert_wf h.wf _ _
  · rw [table] at hj
    rcases mapFind_mapInsert_eq hj with ⟨rfl, rfl⟩ | ⟨-, hj⟩
    · exact ⟨(n, f), by simp, mine, rfl⟩
    · obtain ⟨x, hx, place⟩ := h.entries hj
      exact ⟨x, List.mem_append_left _ hx, place⟩
  · intro x hx
    rw [table]
    rcases List.mem_append.1 hx with hx | hx
    · obtain ⟨j, place, found⟩ := h.stands x hx
      have other : j ≠ i := fun same => by
        rw [same, empty] at found
        cases found
      exact ⟨j, place, (mapFind_mapInsert_ne _ other _).trans found⟩
    · rw [List.mem_singleton.1 hx]
      exact ⟨i, mine, mapFind_mapInsert _ _ _⟩
  · rw [table, mapInsert_length_new empty, h.size, List.length_append, List.length_singleton]
  · rw [table, occupied_insert empty, List.filter_append, List.length_append, h.buckets, mine]
    by_cases same : f.bucket = b
    · simp [same]
    · simp [same]

/-- What a FIXED entry of the image does, and its clamps (R22). -/
theorem fill (h : Held kept n s) (e : List Byte) :
    Held (keepStep kept (n, (readFixedEntry e).1)) (n + 1) (fillFixed n e s)
      ∧ ∃ d, Loads [.fwd, .fixed] ((readFixedEntry e).2 + d) s (fillFixed n e s)
          ∧ (keepStep kept (n, (readFixedEntry e).1)).length + d = kept.length + 1 := by
  unfold keepStep
  by_cases full : s.noRoomFor (readFixedEntry e).1
  · rw [if_pos ((h.noRoom_iff _).1 full), fillFixed_dropped full]
    have first : Loads [.fwd, .fixed] _ s (addClamps (readFixedEntry e).2 s) := .addClamps (Frame.refl _ s) (by decide) _
    exact ⟨h.mono (Nat.le_succ n) rfl rfl, 1, first.trans (.addClamps (Frame.refl _ _) (by decide) 1), rfl⟩
  · rw [if_neg fun k => full ((h.noRoom_iff _).2 k)]
    obtain ⟨unknown, room⟩ := not_or.1 full
    have absent := Option.not_isSome_iff_eq_none.1 unknown
    obtain ⟨i, hi⟩ := Option.ne_none_iff_exists'.1 room
    rw [fillFixed_kept absent hi]
    refine ⟨h.keep absent hi rfl rfl, 0, ?_, List.length_append⟩
    exact .addClamps ((setFixed_frame _ s).seq (putEntry_frame _ _ _) (by decide) (by decide)) (by decide) _

theorem fillAll (h : Held kept n s) (es : List (List Byte)) :
    Held ((fixedFrom n es).foldl keepStep kept) (n + es.length) (fillFixedAll n es s)
      ∧ ∃ d, Loads [.fwd, .fixed] ((es.map fun e => (readFixedEntry e).2).sum + d) s (fillFixedAll n es s)
          ∧ ((fixedFrom n es).foldl keepStep kept).length + d = kept.length + es.length := by
  induction es generalizing n kept s with
  | nil => exact ⟨h, 0, .refl _ s, rfl⟩
  | cons e es ih =>
    obtain ⟨held, d, loads, count⟩ := h.fill e
    obtain ⟨held', d', loads', count'⟩ := ih held
    rw [fixedFrom_cons, List.foldl_cons, List.length_cons]
    refine ⟨held'.mono (by omega) rfl rfl, d + d', ?_, by omega⟩
    have total : ((e :: es).map fun e => (readFixedEntry e).2).sum + (d + d') =
        (readFixedEntry e).2 + d + ((es.map fun e => (readFixedEntry e).2).sum + d') := by
      rw [List.map_cons, List.sum_cons]
      omega
    rw [total]
    exact loads.trans loads'

/-- The entry of a kept key. -/
theorem entryAt (h : Held kept n s) {x : Nat × FixedCfg} (hx : x ∈ kept) :
    s.entryAt x.2.tenant x.2.addr = some (fixedEntry x.1 x.2) := by
  obtain ⟨i, hi⟩ := Option.isSome_iff_exists.1 ((h.known_iff x.2).2 ⟨x, hx, rfl, rfl⟩)
  obtain ⟨-, e, he, tenant, addr⟩ := entry_of_keyIndex hi
  obtain ⟨y, hy, -, rfl⟩ := h.entries he
  have same : y = x := List.inj_on_of_nodup_map h.once hy hx (Prod.ext tenant addr)
  unfold State.entryAt
  rw [hi, Option.bind_some, he, same]

end Held

theorem fillFixedAll_queue (n : Nat) (es : List (List Byte)) (s : State) : (fillFixedAll n es s).fwd.queue = s.fwd.queue := by
  induction es generalizing n s with
  | nil => rfl
  | cons e es ih => exact (ih _ _).trans (fillFixed_queue n e s)

/-! ## The JOINs of the fixed entries (R22, R24) -/

/-- The JOINs of fixed entries with a local port, in image order. -/
def joinsOf (fs : List (Nat × FixedCfg)) : List ReachItem :=
  (fs.filter fun x => x.2.localPort.isSome).map fun x => ⟨x.2.tenant, x.2.addr, .join⟩

/-- In LOADING no REACH is composed. -/
theorem not_reachFree_of_loading {s : State} (loading : s.loader.phase = .loading) : ¬ s.reachFree := fun free => by
  have notify := (reachFree_iff.1 free)
  rw [Bool.and_assoc, Bool.and_eq_true] at notify
  rcases (acting_iff.1 (mayNotify_iff.1 notify.1).1) with h | h <;> exact Phase.noConfusion (loading.symm.trans h)

/-- More items wait in the reach queue. -/
def withQueued (items : List ReachItem) (s : State) : State :=
  { s with fwd := { s.fwd with queue := s.fwd.queue ++ items } }

theorem withQueued_nil (s : State) : withQueued [] s = s := by
  unfold withQueued
  rw [List.append_nil]

theorem withQueued_withQueued (a b : List ReachItem) (s : State) :
    withQueued b (withQueued a s) = withQueued (a ++ b) s := by
  unfold withQueued
  dsimp only
  rw [List.append_assoc]

theorem withQueued_queue (items : List ReachItem) (s : State) : (withQueued items s).fwd.queue = s.fwd.queue ++ items := rfl

theorem joinsOf_of_port {x : Nat × FixedCfg} (h : x.2.localPort.isSome = true) :
    joinsOf [x] = [⟨x.2.tenant, x.2.addr, .join⟩] := by
  unfold joinsOf
  rw [List.filter_cons_of_pos (p := fun x : Nat × FixedCfg => x.2.localPort.isSome) h]
  rfl

theorem joinsOf_of_portless {x : Nat × FixedCfg} (h : ¬ x.2.localPort.isSome = true) : joinsOf [x] = [] := by
  unfold joinsOf
  rw [List.filter_cons_of_neg (p := fun x : Nat × FixedCfg => x.2.localPort.isSome) h]
  rfl

theorem announceFixed_loading {x : Nat × FixedCfg} {s : State} (loading : s.loader.phase = .loading)
    (new : fixedKey x ∉ s.fwd.queue.map fun i => (i.tenant, i.addr)) (room : s.fwd.queue.length < 512) :
    announceFixed x.2 s = withQueued (joinsOf [x]) s := by
  unfold announceFixed
  by_cases has : x.2.localPort.isSome = true
  · have absent : ¬ keyQueued x.2.tenant x.2.addr s.fwd.queue = true := fun k => by
      obtain ⟨i, hi, key⟩ := List.any_eq_true.1 k
      rw [Bool.and_eq_true, beq_iff_eq, beq_iff_eq] at key
      exact new (List.mem_map.2 ⟨i, hi, Prod.ext key.1 key.2⟩)
    rw [if_pos has, queueReach_of_not_free (not_reachFree_of_loading loading), enqueueReach_of_room (.inr room),
      reachAfter_of_new absent, if_pos room, joinsOf_of_port has]
    rfl
  · rw [if_neg has, joinsOf_of_portless has, withQueued_nil]

theorem joinsOf_cons (x : Nat × FixedCfg) (fs : List (Nat × FixedCfg)) : joinsOf (x :: fs) = joinsOf [x] ++ joinsOf fs := by
  unfold joinsOf
  rw [← List.map_append, ← List.filter_append]
  rfl

theorem joinsOf_single (x : Nat × FixedCfg) :
    (joinsOf [x]).map (fun i => (i.tenant, i.addr)) = if x.2.localPort.isSome then [fixedKey x] else [] := by
  split
  next has => rw [joinsOf_of_port has]; rfl
  next none => rw [joinsOf_of_portless none]; rfl

/-- In LOADING the JOINs wait in image order. -/
theorem announceEach_loading (fs : List (Nat × FixedCfg)) {s : State} (loading : s.loader.phase = .loading)
    (once : (s.fwd.queue.map (fun i => (i.tenant, i.addr)) ++ fs.map fixedKey).Nodup)
    (room : s.fwd.queue.length + fs.length ≤ 512) :
    eachState (fun x => announceFixed x.2) fs s = withQueued (joinsOf fs) s := by
  induction fs generalizing s with
  | nil => exact (withQueued_nil s).symm
  | cons x fs ih =>
    rw [List.map_cons] at once
    rw [List.length_cons] at room
    have new : fixedKey x ∉ s.fwd.queue.map fun i => (i.tenant, i.addr) := fun old =>
      (List.nodup_append'.1 once).2.2 old List.mem_cons_self
    have rest := ih (s := withQueued (joinsOf [x]) s) loading
    rw [withQueued_queue, List.map_append, joinsOf_single, List.append_assoc, List.length_append,
      withQueued_withQueued, ← joinsOf_cons] at rest
    rw [eachState, announceFixed_loading loading new (by omega)]
    refine rest (once.sublist ((List.Sublist.refl _).append ?_)) ?_
    · split
      · exact List.Sublist.refl _
      · exact List.sublist_cons_self _ _
    · have short : (joinsOf [x]).length ≤ 1 := by
        unfold joinsOf
        rw [List.length_map]
        exact List.length_filter_le _ _
      omega

/-- The JOINs of the kept entries, none queued before (R22). -/
theorem announceAllFixed_loading {kept : List (Nat × FixedCfg)} {n : Nat} {s : State} (held : Held kept n s)
    (loading : s.loader.phase = .loading) (empty : s.fwd.queue = []) (few : kept.length ≤ 512) :
    announceAllFixed s = withQueued (joinsOf kept) s := by
  unfold announceAllFixed
  rw [held.fixed]
  refine announceEach_loading kept loading ?_ ?_
  · rw [empty]
    exact held.once
  · rw [empty]
    exact (Nat.zero_add _).trans_le few

end Sys2Proof.Machine
end


section
/-! From the filled tables to the state that LOADING leaves (O47): the entry to JOINING composes the REACH of the fixed entries,
and neither it nor the events of the command change what the image has set. -/

namespace Sys2Proof.Machine

/-! ## The entry to JOINING -/

/-- The entry to JOINING ends with its REACH, over table and queue as they were. -/
theorem enterJoining_reach (s : State) : ∃ u, (enterJoining s).st = composeReach u ∧ u.fwd = s.fwd ∧ u.params = s.params
    ∧ u.loader = { s.loader with phase := .joining, enteredAt := s.time.now }
    ∧ u.line = { s.line with wHello := u.line.wHello, wLink := u.line.wLink } := by
  have opened := openedJoining_frame s
  have openedLoader : (openedJoining s).loader = { s.loader with phase := .joining, enteredAt := s.time.now } := rfl
  rw [enterJoining_eq, Out.also_st, Out.andThen_st]
  change ∃ u, startNotices (judgeStart (eachOut startPort allPorts (openedJoining s)).st).st = composeReach u ∧ _
  have started : Frame [.ports] (openedJoining s) (eachOut startPort allPorts (openedJoining s)).st :=
    .eachOut startPort_frame allPorts _
  generalize (eachOut startPort allPorts (openedJoining s)).st = v at started
  have judged := judgeStart_frame v
  generalize (judgeStart v).st = w at judged
  have hello := composeHello_frame w
  have link := composeLink_frame (composeHello w)
  have notices : Frame [.line] w (composeLink (composeHello w)) := hello.trans link
  have line : w.line = s.line := (judged.line (by decide)).trans ((started.line (by decide)).trans (openedJoining_line s))
  have loader : w.loader = { s.loader with phase := .joining, enteredAt := s.time.now } :=
    (judged.loader (by decide)).trans ((started.loader (by decide)).trans openedLoader)
  refine ⟨composeLink (composeHello w), rfl, ?_, ?_, (notices.loader (by decide)).trans loader, ?_⟩
  · rw [notices.fwd (by decide), judged.fwd (by decide), started.fwd (by decide), opened.fwd (by decide)]
  · rw [notices.params (by decide), judged.params (by decide), started.params (by decide), opened.params (by decide)]
  · rw [composeLink_waiting, ← line]
    unfold composeHello
    split <;> rfl

/-- The REACH of the entry to JOINING, on a line without messages. -/
theorem enterJoining_fwd {s : State} (line : s.line = {}) : let t := (enterJoining s).st
    t.fwd.queue = s.fwd.queue.drop 14 ∧ t.fwd.table = announceItems (s.fwd.queue.take 14) s.fwd.table
      ∧ t.line.wReach = if s.fwd.queue = [] then none
          else some { dst := 15, body := .reach s.params.serial (s.fwd.queue.take 14) } := by
  intro t
  obtain ⟨u, same, fwd, params, loader, waiting⟩ := enterJoining_reach s
  rw [line] at waiting
  change t = _ at same
  by_cases empty : s.fwd.queue = []
  · rw [same, composeReach_of_not (.inr (by rw [fwd, empty])), fwd, empty, waiting]
    exact ⟨rfl, rfl, rfl⟩
  · have free : u.reachFree := by
      rw [reachFree_iff, waiting, Bool.and_assoc, Bool.and_eq_true, mayNotify_iff, acting_iff, loader, waiting]
      exact ⟨⟨.inl rfl, rfl⟩, rfl⟩
    rw [same, composeReach_of_free free (by rwa [fwd]), fwd, params, if_neg empty]
    exact ⟨rfl, rfl, rfl⟩

/-! ## Bonds -/

theorem startPort_bond (p q : Port) (s : State) : ((startPort p s).st.port q).bond = (s.port q).bond := by
  unfold startPort
  split
  · unfold portToUp raise
    dsimp only
    by_cases same : q = p
    · rw [same, port_setPort]
    · rw [port_setPort_ne same]
  · rfl

theorem enterJoining_bond (s : State) (p : Port) : ((enterJoining s).st.port p).bond = (s.port p).bond := by
  have each (ps : List Port) (t : State) : ((eachOut startPort ps t).st.port p).bond = (t.port p).bond := by
    induction ps generalizing t with
    | nil => rfl
    | cons q ps ih => exact (ih _).trans (startPort_bond q p t)
  rw [enterJoining_eq, Out.also_st, Out.andThen_st]
  have base := each allPorts (openedJoining s)
  change ((startNotices (judgeStart (eachOut startPort allPorts (openedJoining s)).st).st).port p).bond = _
  generalize (eachOut startPort allPorts (openedJoining s)).st = v at base
  unfold State.port at base ⊢
  rw [(startNotices_frame _).ports (by decide), (judgeStart_frame v).ports (by decide)]
  exact base

/-! ## Links -/

/-- A link but for its hold-off count and its pending mark. -/
def EventLink.atRest (l : EventLink) : EventLink := { l with count := 0, pend := false }

/-- The links are the same but for hold-offs and pending marks. -/
def SameLinks (s t : State) : Prop := ∀ n, (mapFind t.links n).map EventLink.atRest = (mapFind s.links n).map EventLink.atRest

namespace SameLinks

variable {s t u : State}

theorem of_eq (h : t.links = s.links) : SameLinks s t := fun n => by rw [h]

theorem trans (h : SameLinks s t) (k : SameLinks t u) : SameLinks s u := fun n => (k n).trans (h n)

theorem setLink (n : Nat) {f : EventLink → EventLink} (rest : ∀ l, (f l).atRest = l.atRest) (s : State) :
    SameLinks s (setLink n f s) := by
  intro m
  unfold Machine.setLink
  by_cases same : m = n
  · rw [same, mapFind_mapModify, Option.map_map]
    exact congrArg (fun g => Option.map g _) (funext rest)
  · rw [mapFind_mapModify_ne _ same]

theorem hearEvent (e : Event) (n : Nat) (s : State) : SameLinks s (hearEvent e n s).st := by
  unfold Machine.hearEvent
  split
  · exact .of_eq rfl
  next l _ =>
    split
    · split
      · have acted : SameLinks s (act l.action s).st := .of_eq ((act_frame l.action s).links (by decide))
        exact acted.trans (setLink n (f := fun x => { x with count := l.holdOff, pend := false }) (fun _ => rfl) _)
      · exact setLink n (f := fun x => { x with pend := true }) (fun _ => rfl) s
    · exact .of_eq rfl

theorem takeEvent (e : Event) (s : State) : SameLinks s (takeEvent e s).st := by
  have each (ns : List Nat) (t : State) : SameLinks t (eachOut (Machine.hearEvent e) ns t).st := by
    induction ns generalizing t with
    | nil => exact .of_eq rfl
    | cons n ns ih => exact (hearEvent e n t).trans (ih _)
  unfold Machine.takeEvent
  split
  · exact each _ s
  · exact .of_eq rfl

theorem settleEvents (n : Nat) (es : List Event) (s : State) : SameLinks s (settleEvents n es s) := by
  induction n generalizing es s with
  | zero => exact .of_eq rfl
  | succ n ih =>
    unfold Machine.settleEvents
    induction es generalizing s with
    | nil => exact .of_eq rfl
    | cons e es ihe => exact ((takeEvent e s).trans (ih _ _)).trans (ihe _)

theorem conclude (o : Out) : SameLinks o.st (conclude o) := settleEvents 8 o.evs o.st

end SameLinks

end Sys2Proof.Machine
end


section
/-! The tables that a sound image fills, over tables as a reset leaves them (O47): one fact for each table, and the clamps. -/

namespace Sys2Proof.Machine

/-- The clamps of a PORTS entry (log entry 38). -/
theorem portClamps_eq (e : List Byte) : portClamps e = if decide (24 ≤ octetNat e 0 ∨ 63 < octetNat e 1) = true then 1 else 0 := by
  unfold portClamps
  rw [clampTo_snd, nearest_zero]
  simp only [decide_eq_true_eq]
  by_cases edge : octetNat e 0 < 24
  · by_cases fits : octetNat e 1 ≤ 63
    · rw [if_pos edge, if_pos (Nat.min_eq_left fits).symm, if_neg (by omega)]
    · rw [if_pos edge, if_neg (by omega), if_pos (.inr (by omega))]
  · rw [if_neg edge, if_pos (.inl (by omega))]

/-! ## The stages before and after each table -/

section

variable (img : List Byte) (s : State)

theorem before_ports : Frame [.loader, .params] s (withParams img s) := (withParams_loads img s).frame

theorem before_rules : Frame [.loader, .params, .ports] s (withPorts img s) :=
  ((before_ports img s).mono (by decide)).trans ((withPorts_loads img s).frame.mono (by decide))

theorem before_tenants : Frame [.loader, .params, .ports, .rules] s (withRules img s) :=
  ((before_rules img s).mono (by decide)).trans ((withRules_loads img s).frame.mono (by decide))

theorem before_tariffs : Frame [.loader, .params, .ports, .rules, .tenants, .restraint] s (withTenants img s) :=
  ((before_tenants img s).mono (by decide)).trans ((withTenants_loads img s).frame.mono (by decide))

theorem before_links : Frame [.loader, .params, .ports, .rules, .tenants, .restraint, .tariffs] s (withTariffs img s) :=
  ((before_tariffs img s).mono (by decide)).trans ((withTariffs_loads img s).frame.mono (by decide))

theorem before_collectors :
    Frame [.loader, .params, .ports, .rules, .tenants, .restraint, .tariffs, .links] s (withLinks img s) :=
  ((before_links img s).mono (by decide)).trans ((withLinks_loads img s).frame.mono (by decide))

theorem before_fixed : Frame [.loader, .params, .ports, .rules, .tenants, .restraint, .tariffs, .links, .orders] s
    (withCollectors img s) :=
  ((before_collectors img s).mono (by decide)).trans ((withCollectors_loads img s).frame.mono (by decide))

theorem after_collectors : Frame [.loader, .fwd, .fixed, .line] (withCollectors img s) (fillTables img s) := by
  obtain ⟨k, fixed⟩ := withFixed_loads img s
  exact (fixed.frame.mono (by decide)).trans ((announceAllFixed_frame _).mono (by decide))

theorem after_links : Frame [.loader, .orders, .fwd, .fixed, .line] (withLinks img s) (fillTables img s) :=
  ((withCollectors_loads img s).frame.mono (by decide)).trans ((after_collectors img s).mono (by decide))

theorem after_tariffs : Frame [.loader, .links, .orders, .fwd, .fixed, .line] (withTariffs img s) (fillTables img s) :=
  ((withLinks_loads img s).frame.mono (by decide)).trans ((after_links img s).mono (by decide))

theorem after_tenants : Frame [.loader, .tariffs, .links, .orders, .fwd, .fixed, .line] (withTenants img s) (fillTables img s) :=
  ((withTariffs_loads img s).frame.mono (by decide)).trans ((after_tariffs img s).mono (by decide))

theorem after_rules : Frame [.loader, .tenants, .restraint, .tariffs, .links, .orders, .fwd, .fixed, .line] (withRules img s)
    (fillTables img s) :=
  ((withTenants_loads img s).frame.mono (by decide)).trans ((after_tenants img s).mono (by decide))

end

/-! ## Configuration tables (R5, R8, R97, R154, R185, R109) -/

section

variable {s : State} {img : List Byte} (fresh : s.fresh) (sound : structuralFault s.loader.station img = none)
include fresh sound

theorem fillTables_rules (n : Nat) : mapFind (fillTables img s).rules n =
    (lastOf (entriesOfKind img 3) n).map fun e => (readRule e).1 := by
  have empty : (withPorts img s).rules = [] := ((before_rules img s).rules (by decide)).trans (fresh.1.rules (by decide))
  rw [(after_rules img s).rules (by decide), withRules, sectionEntries_eq sound (k := 3) (n := 16) rfl, fillRules_find, empty]
  exact Option.or_none

theorem fillTables_tenants (n : Nat) : mapFind (fillTables img s).tenants n =
    ((lastOf (entriesOfKind img 4) n).map fun e => (readTenantEntry e).1).or (if n = 0 then some tenantZero else none) := by
  have first : (withRules img s).tenants = [(0, tenantZero)] :=
    ((before_tenants img s).tenants (by decide)).trans (fresh.1.tenants (by decide))
  have reset : mapFind [(0, tenantZero)] n = if n = 0 then some tenantZero else none := if_congr eq_comm rfl rfl
  rw [(after_tenants img s).tenants (by decide), withTenants, sectionEntries_eq sound (k := 4) (n := 18) rfl, fillTenants_find, first, reset]

theorem fillTables_setting (x : Tenant) : (fillTables img s).setting x =
    ((lastOf (entriesOfKind img 4) x.toNat).map fun e => settingOf x.toNat (readTenantEntry e).1).getD
      { quota := 0, exempt := decide (x = 0) } := by
  have first : (withRules img s).restraint.settings = [(0, { quota := 0, exempt := true })] := by
    rw [(before_tenants img s).restraint (by decide), fresh.1.restraint (by decide)]
    rfl
  have reset : (withRules img s).setting x = { quota := 0, exempt := decide (x = 0) } := by
    unfold State.setting mapGet
    rw [first]
    by_cases zero : x = 0
    · subst zero
      rfl
    · have other : ¬ 0 = x.toNat := fun same => zero (BitVec.eq_of_toNat_eq same.symm)
      rw [mapFind, if_neg other, decide_eq_false zero]
      rfl
  have now : (fillTables img s).setting x = (withTenants img s).setting x := by
    unfold State.setting
    rw [(after_tenants img s).restraint (by decide)]
  rw [now, withTenants, sectionEntries_eq sound (k := 4) (n := 18) rfl, fillTenants_setting _ (by rw [first]; rfl), reset]

theorem fillTables_tariff (n : Nat) : (fillTables img s).tariff n = ((lastOf (entriesOfKind img 5) n).map readTariffEntry).getD {} := by
  have empty : (withTenants img s).tariffs = [] :=
    ((before_tariffs img s).tariffs (by decide)).trans (fresh.1.tariffs (by decide))
  have reset : (withTenants img s).tariff n = {} := by
    unfold State.tariff mapGet
    rw [empty]
    rfl
  have now : (fillTables img s).tariff n = (withTariffs img s).tariff n := by
    unfold State.tariff
    rw [(after_tariffs img s).tariffs (by decide)]
  rw [now, withTariffs, sectionEntries_eq sound (k := 5) (n := 13) rfl, fillTariffs_tariff _ (by rw [empty]; rfl), reset]

theorem fillTables_links (n : Nat) : mapFind (fillTables img s).links n =
    (((entriesOfKind img 7).filter fun e => octetNat e 0 == n).filterMap fun e => (readLinkEntry e).1).getLast? := by
  have empty : (withTariffs img s).links = [] := ((before_links img s).links (by decide)).trans (fresh.1.links (by decide))
  rw [(after_links img s).links (by decide), withLinks, sectionEntries_eq sound (k := 7) (n := 6) rfl, fillLinks_find, empty]
  exact Option.or_none

theorem fillTables_collectors : (fillTables img s).orders.collectors.Nodup ∧ (fillTables img s).orders.anySource = false
    ∧ ∀ st, st ∈ (fillTables img s).orders.collectors ↔ s.collectorsOf (entriesOfKind img 8) st := by
  have empty : (withLinks img s).orders = {} :=
    ((before_collectors img s).orders (by decide)).trans (fresh.1.orders (by decide))
  have nodup : (withLinks img s).orders.collectors.Nodup := by
    rw [empty]
    exact List.nodup_nil
  obtain ⟨once, any, mem⟩ := fillCollectors_orders (entriesOfKind img 8) (withLinks img s) nodup
  rw [(after_collectors img s).orders (by decide), withCollectors, sectionEntries_eq sound (k := 8) (n := 1) rfl]
  refine ⟨once, any.trans (by rw [empty]), fun st => ?_⟩
  rw [mem, empty]
  unfold State.collectorsOf
  rw [withLinks_station]
  exact or_iff_right List.not_mem_nil

theorem fillTables_bond (p : Port) : ((fillTables img s).port p).bond =
    if p.val < 24 then
      (lastOf (entriesOfKind img 2) p.val).bind fun e => if octetNat e 1 = 0 then none else some (min (octetNat e 1) 63)
    else none := by
  have first : ((withParams img s).port p).bond = none := by
    unfold State.port
    rw [(before_ports img s).ports (by decide)]
    exact fresh.2.2.2 p
  have now : (fillTables img s).port p = (withPorts img s).port p := by
    unfold State.port
    rw [fillTables_portsOf]
  rw [now, withPorts, sectionEntries_eq sound (k := 2) (n := 2) rfl, fillPorts_bond, first]
  cases lastOf (entriesOfKind img 2) p.val <;> rfl

/-! ## The checks of the entries (R188, R193) -/

theorem fillTables_rules_good : ∀ x ∈ (fillTables img s).rules, x.2.checkGood = true := by
  have empty : (withPorts img s).rules = [] := ((before_rules img s).rules (by decide)).trans (fresh.1.rules (by decide))
  rw [(after_rules img s).rules (by decide), withRules, sectionEntries_eq sound (k := 3) (n := 16) rfl]
  refine eachState_keeps (P := fun t => ∀ x ∈ t.rules, x.2.checkGood = true) (fun e he t good x hx => ?_) (by simp [empty])
  rcases mem_mapInsert hx with rfl | hx
  · exact entry_checked sound rfl (by decide) he
  · exact good x hx

theorem fillTables_tenants_good : ∀ x ∈ (fillTables img s).tenants, x.2.checkGood = true := by
  have first : (withRules img s).tenants = [(0, tenantZero)] :=
    ((before_tenants img s).tenants (by decide)).trans (fresh.1.tenants (by decide))
  rw [(after_tenants img s).tenants (by decide), withTenants, sectionEntries_eq sound (k := 4) (n := 18) rfl]
  refine eachState_keeps (P := fun t => ∀ x ∈ t.tenants, x.2.checkGood = true) (fun e he t good x hx => ?_) fun x hx => ?_
  · rcases mem_mapInsert hx with rfl | hx
    · exact entry_checked sound rfl (by decide) he
    · exact good x hx
  · rw [first] at hx
    rw [List.mem_singleton.1 hx]
    exact EntryCheck.good_empty

theorem fillTables_tariff_good (n : Nat) : ((fillTables img s).tariff n).checkGood = true := by
  rw [fillTables_tariff fresh sound]
  cases last : lastOf (entriesOfKind img 5) n with
  | none => exact EntryCheck.good_empty
  | some e =>
    have mem : e ∈ entriesOfKind img 5 := List.mem_of_mem_filter (List.mem_of_getLast? last)
    exact entry_checked sound rfl (by decide) mem

/-! ## FIXED entries and reach queue (R22) -/

/-- The kept fixed entries stand in the table, and the JOINs of those with a local port wait. -/
theorem fillTables_fixed : ∃ n, Held (keptFixed (fixedOf img)) n (fillTables img s)
    ∧ (fillTables img s).fwd.queue = joinsOf (keptFixed (fixedOf img)) ∧ (fillTables img s).line = {}
    ∧ ∃ d, Loads [.fwd, .fixed] (((entriesOfKind img 6).map fun e => (readFixedEntry e).2).sum + d) (withCollectors img s)
          (withFixed img s)
        ∧ (keptFixed (fixedOf img)).length + d = (fixedOf img).length
        ∧ (fillTables img s).loader = (withFixed img s).loader := by
  have before := before_fixed img s
  have fixed : (withCollectors img s).fixed = [] := (before.fixed (by decide)).trans (fresh.1.fixed (by decide))
  have fwd : (withCollectors img s).fwd = {} := (before.fwd (by decide)).trans (fresh.1.fwd (by decide))
  have line : (withCollectors img s).line = {} := (before.line (by decide)).trans (fresh.1.line (by decide))
  have start : Held [] 0 (withCollectors img s) := .start fixed (by rw [fwd])
  obtain ⟨held, d, loads, count⟩ := start.fillAll (entriesOfKind img 6)
  rw [← fixedOf_eq, ← keptFixed_eq] at held count
  rw [← sectionEntries_eq sound (k := 6) (n := 10) rfl] at loads held
  change Held _ _ (withFixed img s) at held
  change Loads _ _ _ (withFixed img s) at loads
  rw [List.length_nil, Nat.zero_add] at count
  have few := fixedEntries_few sound
  have phase : (withFixed img s).loader.phase = .loading := by
    obtain ⟨k, total⟩ := withFixed_total img s
    exact total.phase.trans fresh.2.1
  have queue : (withFixed img s).fwd.queue = [] := (fillFixedAll_queue _ _ _).trans (by rw [fwd])
  have filled : fillTables img s = withQueued (joinsOf (keptFixed (fixedOf img))) (withFixed img s) :=
    announceAllFixed_loading held phase queue (by omega)
  rw [sectionEntries_eq sound (k := 6) (n := 10) rfl] at loads
  refine ⟨_, held.mono le_rfl (by rw [filled]; rfl) (by rw [filled]; rfl), ?_, ?_, d, loads, ?_, ?_⟩
  · rw [filled, withQueued_queue, queue]
    rfl
  · rw [filled, ← line]
    exact loads.frame.line (by decide)
  · rw [count, fixedOf_eq, fixedFrom_length]
  · rw [filled]
    rfl

/-! ## Clamps (R190) -/

theorem fillTables_clamps : (fillTables img s).loader.clamps.toNat = min
    (((sectionsOf img).filter fun d => decide (d.kind = 0 ∨ 8 < d.kind)).length
      + (readParams (entriesOfKind img 1)).2
      + ((entriesOfKind img 2).filter fun e => decide (24 ≤ octetNat e 0 ∨ 63 < octetNat e 1)).length
      + ((entriesOfKind img 3).map fun e => (readRule e).2).sum + ((entriesOfKind img 4).map fun e => (readTenantEntry e).2).sum
      + ((entriesOfKind img 7).map fun e => (readLinkEntry e).2).sum + s.collectorClamps (entriesOfKind img 8)
      + ((entriesOfKind img 6).map fun e => (readFixedEntry e).2).sum
      + ((fixedOf img).length - (keptFixed (fixedOf img)).length)) (2 ^ 32 - 1) := by
  obtain ⟨n, -, -, -, d, fixed, count, loader⟩ := fillTables_fixed fresh sound
  have total := (((((((((withParams_loads img s).mono (m := tableFill) (by decide)).trans
    ((withPorts_loads img s).mono (by decide))).trans ((withRules_loads img s).mono (by decide))).trans
    ((withTenants_loads img s).mono (by decide))).trans ((withTariffs_loads img s).mono (by decide))).trans
    ((withLinks_loads img s).mono (by decide))).trans ((withCollectors_loads img s).mono (by decide))).trans
    (fixed.mono (by decide))).clamps
  have ports : ((entriesOfKind img 2).map portClamps).sum =
      ((entriesOfKind img 2).filter fun e => decide (24 ≤ octetNat e 0 ∨ 63 < octetNat e 1)).length := by
    rw [length_filter_eq_sum]
    exact congrArg List.sum (List.map_congr_left fun e _ => portClamps_eq e)
  have dropped : d = (fixedOf img).length - (keptFixed (fixedOf img)).length := by omega
  have start : s.loader.clamps.toNat = 0 := by
    rw [fresh.2.2.1]
    rfl
  rw [loader, total, start, unknownSects_sound sound, sectionEntries_eq sound (k := 1) (n := 5) rfl,
    sectionEntries_eq sound (k := 2) (n := 2) rfl, sectionEntries_eq sound (k := 3) (n := 16) rfl,
    sectionEntries_eq sound (k := 4) (n := 18) rfl, sectionEntries_eq sound (k := 5) (n := 13) rfl,
    sectionEntries_eq sound (k := 7) (n := 6) rfl, sectionEntries_eq sound (k := 8) (n := 1) rfl, ports, collectorClamps_eq,
    ← dropped, List.map_const', List.sum_replicate_nat, Nat.mul_zero]
  congr 1
  omega

end

end Sys2Proof.Machine
end


section
/-! A sound image fills the tables, settled (O47): the filled tables through the entry to JOINING and the events of the
command. -/

namespace Sys2Proof.Machine

theorem mapInsert_length_known {α : Type} {m : List (Nat × α)} (wf : mapWf m = true) {n : Nat} {x : α}
    (found : mapFind m n = some x) (y : α) : (mapInsert m n y).length = m.length := by
  induction m with
  | nil => cases found
  | cons z m ih =>
    obtain ⟨k, v⟩ := z
    obtain ⟨above, wf'⟩ := mapWf_cons.1 wf
    rw [mapInsert]
    by_cases same : k = n
    · rw [if_neg (by omega), if_pos same.symm]
      rfl
    · rw [mapFind, if_neg same] at found
      have := above _ (mem_of_mapFind found)
      rw [if_neg (by omega), if_neg (Ne.symm same), List.length_cons, ih wf' found, List.length_cons]

theorem announceItems_length (is : List ReachItem) {m : List (Nat × FwdEntry)} (wf : mapWf m = true) :
    (announceItems is m).length = m.length := by
  induction is generalizing m with
  | nil => rfl
  | cons i is ih =>
    refine (ih (announceItem_wf wf i)).trans ?_
    cases found : keyIndex m i.tenant i.addr with
    | none => rw [announceItem_of_absent found]
    | some n =>
      obtain ⟨-, e, he, -⟩ := entry_of_keyIndex found
      rw [announceItem_eq found he, mapInsert_length_known wf he]

theorem entryAt_announced {s t : State} {is : List ReachItem} (h : t.fwd.table = announceItems is s.fwd.table) {x : Tenant}
    {a : Addr} {e : FwdEntry} (found : s.entryAt x a = some e) : ∃ b, t.entryAt x a = some { e with announced := b } := by
  obtain ⟨i, hi, he⟩ := entryAt_eq_some found
  have same := announceItems_same is s.fwd.table
  obtain ⟨b, hb⟩ := same.some he
  refine ⟨b, ?_⟩
  unfold State.entryAt
  rw [h, same.keyIndex, hi]
  exact hb

/-- A link as the image gives it has no hold-off count and is not pending. -/
theorem readLinkEntry_atRest {e : List Byte} {l : EventLink} (h : (readLinkEntry e).1 = some l) : l.atRest = l := by
  unfold readLinkEntry at h
  split at h
  · split at h
    · cases h
    · split at h
      · cases h
      · cases h
        rfl
  · cases h

theorem mem_of_keepAll {fs kept : List (Nat × FixedCfg)} {x : Nat × FixedCfg} (h : x ∈ fs.foldl keepStep kept) :
    x ∈ kept ∨ x ∈ fs := by
  induction fs generalizing kept with
  | nil => exact .inl h
  | cons f fs ih =>
    rcases ih h with h | h
    · unfold keepStep at h
      split at h
      · exact .inl h
      · exact (List.mem_append.1 h).imp id fun k => List.mem_cons.2 (.inl (List.mem_singleton.1 k))
    · exact .inr (List.mem_cons_of_mem _ h)

section

variable {s : State} {img : List Byte} (fresh : s.fresh) (sound : structuralFault s.loader.station img = none)
include sound

/-- A kept fixed entry comes with its check. -/
theorem kept_checked {x : Nat × FixedCfg} (h : x ∈ keptFixed (fixedOf img)) : x.2.entry.good = true := by
  rcases mem_of_keepAll h with none | h
  · cases none
  · obtain ⟨⟨e, n⟩, he, rfl⟩ := List.mem_map.1 h
    exact entry_checked sound rfl (by decide) (List.fst_mem_of_mem_zipIdx he)

include fresh

theorem fillTables_table_good : AllGood (fillTables img s).fwd.table := by
  obtain ⟨n, held, -⟩ := fillTables_fixed fresh sound
  intro x hx
  obtain ⟨y, hy, -, same⟩ := held.entries (mapFind_of_mem held.wf hx)
  rw [same]
  exact kept_checked sound hy

end

/-- What LOADING leaves of the tables that the image fills. -/
structure KeptTables (u t : State) : Prop where
  rules : t.rules = u.rules
  tenants : t.tenants = u.tenants
  settings : t.restraint = u.restraint
  tariffs : t.tariffs = u.tariffs
  fixed : t.fixed = u.fixed
  orders : t.orders = u.orders
  params : t.params = u.params
  links : SameLinks u t
  bonds : ∀ p, (t.port p).bond = (u.port p).bond
  clamps : t.loader.clamps = u.loader.clamps
  queue : t.fwd.queue = u.fwd.queue.drop 14
  table : t.fwd.table = announceItems (u.fwd.queue.take 14) u.fwd.table
  notice : t.line.wReach = if u.fwd.queue = [] then none
    else some { dst := 15, body := .reach u.params.serial (u.fwd.queue.take 14) }

/-- The entry to JOINING with its events keeps the tables. -/
theorem enterJoining_keptTables {u : State} (line : u.line = {}) : KeptTables u (conclude (enterJoining u)) := by
  obtain ⟨queue, table, notice⟩ := enterJoining_fwd line
  have bond := enterJoining_bond u
  have joined := (enterJoining_joined u).frame
  have opened := openedJoining_frame u
  have loader : (openedJoining u).loader.clamps = u.loader.clamps := rfl
  generalize enterJoining u = o at queue table notice bond joined
  have after := conclude_frame o
  have whole : Frame (linkBlocks ++ [.time, .ports, .peers, .load, .fwd]) u (conclude o) :=
    ((opened.mono (by decide)).trans (joined.mono (by decide))).trans (after.mono (by decide))
  have linked : SameLinks u o.st := .of_eq ((joined.links (by decide)).trans (opened.links (by decide)))
  refine ⟨whole.rules (by decide), whole.tenants (by decide), whole.restraint (by decide), whole.tariffs (by decide),
    whole.fixed (by decide), whole.orders (by decide), whole.params (by decide), linked.trans (.conclude o), fun p => ?_, ?_, ?_,
    ?_, (conclude_slotKept o).trans notice⟩
  · rw [conclude_port]
    exact bond p
  · obtain ⟨a, b, c, d, same⟩ := conclude_refetchOnly o
    rw [same, ← loader, ← joined.loader (by decide)]
  · rw [after.fwd (by decide), queue]
  · rw [after.fwd (by decide), table]

/-- Settles O47. -/
theorem theImageFillsTheTables : Obligations.TheImageFillsTheTables := by
  unfold Obligations.TheImageFillsTheTables
  intro s img fresh sound rules tenants tariffs bonds kept joins
  obtain ⟨n, held, queue, line, -⟩ := fillTables_fixed fresh sound
  have tables := enterJoining_keptTables line
  have good := fillTables_table_good fresh sound
  obtain ⟨once, any, collectors⟩ := fillTables_collectors fresh sound
  refine ⟨_, exec_imageLoadComplete s img, ?_⟩
  rw [completeLoad_sound fresh.2.1 sound]
  generalize conclude (enterJoining (fillTables img s)) = t at tables
  have emptyIff : (fillTables img s).fwd.queue = joins := queue
  refine ⟨fun n => ?_, fun n => ?_, fun x => ?_, fun n => ?_, fun n => ?_, ?_, ?_, ?_, fun p => ?_, ?_, ?_, fun n f hf => ?_, ?_, ?_,
    fun n => ?_, ?_, ?_, ?_, ?_⟩
  · rw [tables.rules]
    exact fillTables_rules fresh sound n
  · rw [tables.tenants]
    exact fillTables_tenants fresh sound n
  · have now : t.setting x = (fillTables img s).setting x := by
      unfold State.setting
      rw [tables.settings]
    rw [now, fillTables_setting fresh sound]
    by_cases zero : x = 0
    · subst zero
      rw [if_pos rfl]
      cases lastOf (entriesOfKind img 4) (0 : Tenant).toNat <;> rfl
    · have other : x.toNat ≠ 0 := fun k => zero (BitVec.eq_of_toNat_eq k)
      rw [if_neg zero, decide_eq_false zero]
      cases lastOf (entriesOfKind img 4) x.toNat with
      | none => rfl
      | some e => exact if_neg other
  · have now : t.tariff n = (fillTables img s).tariff n := by
      unfold State.tariff
      rw [tables.tariffs]
    rw [now, fillTables_tariff fresh sound]
    cases lastOf (entriesOfKind img 5) n <;> rfl
  · refine (tables.links n).trans ?_
    rw [fillTables_links fresh sound]
    cases last : (((entriesOfKind img 7).filter fun e => octetNat e 0 == n).filterMap fun e => (readLinkEntry e).1).getLast? with
    | none => rfl
    | some l =>
      obtain ⟨e, -, he⟩ := List.mem_filterMap.1 (List.mem_of_getLast? last)
      exact congrArg some (readLinkEntry_atRest he)
  · rw [tables.orders]
    exact collectors
  · rw [tables.orders]
    exact once
  · rw [tables.orders]
    exact any
  · rw [tables.bonds]
    exact fillTables_bond fresh sound p
  · rw [tables.fixed]
    exact held.fixed
  · rw [tables.table, announceItems_length _ held.wf]
    exact held.size
  · obtain ⟨a, ha⟩ := entryAt_announced tables.table (held.entryAt hf)
    exact ⟨a, ha⟩
  · rw [tables.rules]
    exact fillTables_rules_good fresh sound
  · rw [tables.tenants]
    exact fillTables_tenants_good fresh sound
  · have now : t.tariff n = (fillTables img s).tariff n := by
      unfold State.tariff
      rw [tables.tariffs]
    rw [now]
    exact fillTables_tariff_good fresh sound n
  · rw [tables.table]
    exact good.announceItems _
  · rw [tables.queue, emptyIff]
  · rw [tables.notice, emptyIff, tables.params]
  · intro clamps
    rw [tables.clamps]
    exact fillTables_clamps fresh sound

end Sys2Proof.Machine
end
